-- ==== Sys2Proof/Word.lean ====
section
/-! DEFINITION. The word types of the PX7 and the sparse table that holds the state of its many units.

R6, R54, R63: scalars are 64 bits, lanes 32 bits, memory is bytes with a 16-bit coat per 64-byte block. -/

namespace Sys2Proof

/-- A scalar register, a virtual address, a special register: 64 bits (R102). -/
abbrev Word := BitVec 64
/-- One lane of a tile (R54). -/
abbrev Lane := BitVec 32
/-- One byte of memory. -/
abbrev Byte := BitVec 8
/-- The coat of a 64-byte block: E in [15:8], CODE in [7:0] (R63). -/
abbrev Coat := BitVec 16

/-- A sparse table: key and value, keys rising; a key that is not listed holds the table's default. -/
abbrev Tbl (α : Type) := List (Nat × α)

/-- A tile of 16 rows by 64 columns, row-major (R138); a lane past the end of the list is 0. -/
abbrev Tile := List Lane

end Sys2Proof
end

