-- ==== Sys2Proof/Syntax.lean ====
section
/-! DEFINITION. The syntax: one constructor for each row of the table of operations and events.

A slot word's constructor carries the word's fields, from the highest bits to the lowest, under the names of
the opcode table (R22, R31 to R36). An event's constructor carries the numbers of the units it happens to
(R1): c is a package context number 4 x core + context, p a pair or a partition as the text says, f a face,
d a domain, n a flash stack, e a copy engine, k a collective. -/

namespace Sys2Proof

/-- Every step of the machine: the slot words of R22 and the events of the table. -/
inductive Instr where
  /-- PFX (R27): Supplies a 24-bit payload that extends the immediate of the same slot in the successor bundle. -/
  | pfx (p : BitVec 24)
  /-- ADD (R125): Writes sa + sb to sd. -/
  | add (d : BitVec 5) (a : BitVec 5) (b : BitVec 5) (p : BitVec 4)
  /-- ADDI (R125): Writes sa + immediate to sd. -/
  | addi (d : BitVec 5) (a : BitVec 5) (i : BitVec 14)
  /-- SUB (R125): Writes sa - sb to sd. -/
  | sub (d : BitVec 5) (a : BitVec 5) (b : BitVec 5) (p : BitVec 4)
  /-- MUL (R125): Writes the low 64 bits of the signed product. -/
  | mul (d : BitVec 5) (a : BitVec 5) (b : BitVec 5) (p : BitVec 4)
  /-- MULH (R125): Writes the high 64 bits of the signed product. -/
  | mulh (d : BitVec 5) (a : BitVec 5) (b : BitVec 5) (p : BitVec 4)
  /-- MULHU (R125): Writes the high 64 bits of the unsigned product. -/
  | mulhu (d : BitVec 5) (a : BitVec 5) (b : BitVec 5) (p : BitVec 4)
  /-- DIV (R127): Writes the signed quotient truncated toward zero, with defined results for zero and overflow. -/
  | div (d : BitVec 5) (a : BitVec 5) (b : BitVec 5) (p : BitVec 4)
  /-- DIVU (R127): Writes the unsigned quotient. -/
  | divu (d : BitVec 5) (a : BitVec 5) (b : BitVec 5) (p : BitVec 4)
  /-- REM (R127): Writes the signed remainder. -/
  | rem (d : BitVec 5) (a : BitVec 5) (b : BitVec 5) (p : BitVec 4)
  /-- REMU (R127): Writes the unsigned remainder. -/
  | remu (d : BitVec 5) (a : BitVec 5) (b : BitVec 5) (p : BitVec 4)
  /-- AND (R125): Writes sa AND sb. -/
  | and (d : BitVec 5) (a : BitVec 5) (b : BitVec 5) (p : BitVec 4)
  /-- ANDI (R125): Writes sa AND the sign-extended immediate. -/
  | andi (d : BitVec 5) (a : BitVec 5) (i : BitVec 14)
  /-- OR (R125): Writes sa OR sb. -/
  | or (d : BitVec 5) (a : BitVec 5) (b : BitVec 5) (p : BitVec 4)
  /-- ORI (R125): Writes sa OR the sign-extended immediate. -/
  | ori (d : BitVec 5) (a : BitVec 5) (i : BitVec 14)
  /-- XOR (R125): Writes sa XOR sb. -/
  | xor (d : BitVec 5) (a : BitVec 5) (b : BitVec 5) (p : BitVec 4)
  /-- XORI (R125): Writes sa XOR the sign-extended immediate. -/
  | xori (d : BitVec 5) (a : BitVec 5) (i : BitVec 14)
  /-- SHL (R126): Shifts sa left by sb[5:0]. -/
  | shl (d : BitVec 5) (a : BitVec 5) (b : BitVec 5) (p : BitVec 4)
  /-- SHLI (R126): Shifts sa left by an immediate count 0 to 63. -/
  | shli (d : BitVec 5) (a : BitVec 5) (n : BitVec 14)
  /-- SHR (R126): Shifts sa right logically by sb[5:0]. -/
  | shr (d : BitVec 5) (a : BitVec 5) (b : BitVec 5) (p : BitVec 4)
  /-- SHRI (R126): Shifts sa right logically by an immediate count. -/
  | shri (d : BitVec 5) (a : BitVec 5) (n : BitVec 14)
  /-- SRA (R126): Shifts sa right arithmetically by sb[5:0]. -/
  | sra (d : BitVec 5) (a : BitVec 5) (b : BitVec 5) (p : BitVec 4)
  /-- SRAI (R126): Shifts sa right arithmetically by an immediate count. -/
  | srai (d : BitVec 5) (a : BitVec 5) (n : BitVec 14)
  /-- MIN (R125): Writes the signed lesser of sa and sb. -/
  | min (d : BitVec 5) (a : BitVec 5) (b : BitVec 5) (p : BitVec 4)
  /-- MAX (R125): Writes the signed greater of sa and sb. -/
  | max (d : BitVec 5) (a : BitVec 5) (b : BitVec 5) (p : BitVec 4)
  /-- MINU (R125): Writes the unsigned lesser of sa and sb. -/
  | minu (d : BitVec 5) (a : BitVec 5) (b : BitVec 5) (p : BitVec 4)
  /-- MAXU (R125): Writes the unsigned greater of sa and sb. -/
  | maxu (d : BitVec 5) (a : BitVec 5) (b : BitVec 5) (p : BitVec 4)
  /-- CLZ (R125): Counts leading zero bits of sa. -/
  | clz (d : BitVec 5) (a : BitVec 5) (p : BitVec 4)
  /-- POPC (R125): Counts set bits of sa. -/
  | popc (d : BitVec 5) (a : BitVec 5) (p : BitVec 4)
  /-- CLMUL (R125): Writes the low 64 bits of the carry-less product. -/
  | clmul (d : BitVec 5) (a : BitVec 5) (b : BitVec 5) (p : BitVec 4)
  /-- CLMULH (R125): Writes the high 64 bits of the carry-less product. -/
  | clmulh (d : BitVec 5) (a : BitVec 5) (b : BitVec 5) (p : BitVec 4)
  /-- SEL (R128): Writes sa if predicate pN is true and sb otherwise. -/
  | sel (d : BitVec 5) (a : BitVec 5) (b : BitVec 5) (n : BitVec 4)
  /-- CMP (R129): Sets predicate pd from comparing sa with sb under cc. -/
  | cmp (q : BitVec 4) (a : BitVec 5) (b : BitVec 5) (p : BitVec 4) (c : BitVec 5)
  /-- CMPI (R129): Sets predicate pd from comparing sa with an immediate under cc. -/
  | cmpi (q : BitVec 4) (c : BitVec 3) (a : BitVec 5) (i : BitVec 12)
  /-- LI (R128): Loads a sign-extended immediate into sd. -/
  | li (d : BitVec 5) (i : BitVec 19)
  /-- PLOG (R130): Combines two predicates by AND, OR, XOR or ANDN into pd. -/
  | plog (q : BitVec 4) (a : BitVec 4) (b : BitVec 4) (p : BitVec 4) (f : BitVec 5)
  /-- PGET (R130): Writes the predicates as a bit mask to sd. -/
  | pget (d : BitVec 5) (p : BitVec 4)
  /-- PPUT (R130): Sets predicates p1 to p15 from the bits of sa. -/
  | pput (a : BitVec 5) (p : BitVec 4)
  /-- MFSR (R131): Reads a special register into sd. -/
  | mfsr (d : BitVec 5) (r : BitVec 12)
  /-- MTSR (R131): Writes sa to a special register, with the effects of its access code. -/
  | mtsr (a : BitVec 5) (r : BitVec 12)
  /-- FADDS (R132): Writes the rounded F32 sum. -/
  | fadds (d : BitVec 5) (a : BitVec 5) (b : BitVec 5) (p : BitVec 4)
  /-- FSUBS (R132): Writes the rounded F32 difference. -/
  | fsubs (d : BitVec 5) (a : BitVec 5) (b : BitVec 5) (p : BitVec 4)
  /-- FMULS (R132): Writes the rounded F32 product. -/
  | fmuls (d : BitVec 5) (a : BitVec 5) (b : BitVec 5) (p : BitVec 4)
  /-- FMAS (R132): Writes the fused F32 sa × sb + sd with one rounding. -/
  | fmas (d : BitVec 5) (a : BitVec 5) (b : BitVec 5) (p : BitVec 4)
  /-- FMINS (R132): Writes the F32 lesser with -0 below +0. -/
  | fmins (d : BitVec 5) (a : BitVec 5) (b : BitVec 5) (p : BitVec 4)
  /-- FMAXS (R132): Writes the F32 greater with -0 below +0. -/
  | fmaxs (d : BitVec 5) (a : BitVec 5) (b : BitVec 5) (p : BitVec 4)
  /-- FCMPS (R132): Sets pd from an F32 comparison of sa and sb. -/
  | fcmps (q : BitVec 4) (a : BitVec 5) (b : BitVec 5) (p : BitVec 4) (c : BitVec 5)
  /-- FCVTS (R133): Converts sa between I64, F32 and BF16 by kind k. -/
  | fcvts (d : BitVec 5) (a : BitVec 5) (p : BitVec 4) (k : BitVec 5)
  /-- BR (R134): Branches to PC + 32 × off when its guard is true. -/
  | br (p : BitVec 4) (o : BitVec 20)
  /-- CALL (R134): Branches and writes the return address to s31. -/
  | call (p : BitVec 4) (o : BitVec 20)
  /-- JR (R134): Jumps to the address held in sa. -/
  | jr (a : BitVec 5) (p : BitVec 4)
  /-- LOOP (R136): Decrements LC or EC, rotates RRB and stage predicates, and branches without delay. -/
  | loop (p : BitVec 4) (o : BitVec 20)
  /-- LOOPSET (R135): Sets LC and EC from registers, clears RRB and initialises stage predicates. -/
  | loopset (a : BitVec 5) (b : BitVec 5) (p : BitVec 4)
  /-- LOOPSETI (R135): Sets LC and EC from immediates, clears RRB and initialises stage predicates. -/
  | loopseti (e : BitVec 5) (i : BitVec 14)
  /-- VADD.F (R145): Adds two F32 tiles lane by lane. -/
  | vaddF (p : BitVec 4) (d : BitVec 6) (a : BitVec 6) (b : BitVec 6)
  /-- VSUB.F (R145): Subtracts two F32 tiles lane by lane. -/
  | vsubF (p : BitVec 4) (d : BitVec 6) (a : BitVec 6) (b : BitVec 6)
  /-- VMUL.F (R145): Multiplies two F32 tiles lane by lane. -/
  | vmulF (p : BitVec 4) (d : BitVec 6) (a : BitVec 6) (b : BitVec 6)
  /-- VFMA.F (R145): Fused multiply-add of two F32 tiles into vd. -/
  | vfmaF (p : BitVec 4) (d : BitVec 6) (a : BitVec 6) (b : BitVec 6)
  /-- VMAX.F (R145): Lane-wise F32 maximum. -/
  | vmaxF (p : BitVec 4) (d : BitVec 6) (a : BitVec 6) (b : BitVec 6)
  /-- VMIN.F (R145): Lane-wise F32 minimum. -/
  | vminF (p : BitVec 4) (d : BitVec 6) (a : BitVec 6) (b : BitVec 6)
  /-- VABS.F (R146): Clears, inverts or sets the sign bit of each lane. -/
  | vabsF (p : BitVec 4) (d : BitVec 6) (a : BitVec 6) (m : BitVec 2)
  /-- VEXP2 (R147): Computes a scaled power of two per lane using ESC. -/
  | vexp2 (p : BitVec 4) (d : BitVec 6) (a : BitVec 6) (b : BitVec 6)
  /-- VRCP (R148): Correctly rounded reciprocal per lane. -/
  | vrcp (p : BitVec 4) (d : BitVec 6) (a : BitVec 6)
  /-- VRSQ (R148): Correctly rounded reciprocal square root per lane. -/
  | vrsq (p : BitVec 4) (d : BitVec 6) (a : BitVec 6)
  /-- VADD.I (R149): Adds I32 lanes modulo 2^32. -/
  | vaddI (p : BitVec 4) (d : BitVec 6) (a : BitVec 6) (b : BitVec 6)
  /-- VSUB.I (R149): Subtracts I32 lanes modulo 2^32. -/
  | vsubI (p : BitVec 4) (d : BitVec 6) (a : BitVec 6) (b : BitVec 6)
  /-- VMUL.I (R149): Multiplies I32 lanes, keeping the low 32 bits. -/
  | vmulI (p : BitVec 4) (d : BitVec 6) (a : BitVec 6) (b : BitVec 6)
  /-- VMAX.I (R149): Signed lane-wise maximum. -/
  | vmaxI (p : BitVec 4) (d : BitVec 6) (a : BitVec 6) (b : BitVec 6)
  /-- VMIN.I (R149): Signed lane-wise minimum. -/
  | vminI (p : BitVec 4) (d : BitVec 6) (a : BitVec 6) (b : BitVec 6)
  /-- VAND (R149): Lane-wise bitwise AND. -/
  | vand (p : BitVec 4) (d : BitVec 6) (a : BitVec 6) (b : BitVec 6)
  /-- VOR (R149): Lane-wise bitwise OR. -/
  | vor (p : BitVec 4) (d : BitVec 6) (a : BitVec 6) (b : BitVec 6)
  /-- VXOR (R149): Lane-wise bitwise XOR. -/
  | vxor (p : BitVec 4) (d : BitVec 6) (a : BitVec 6) (b : BitVec 6)
  /-- VSHL (R150): Shifts each lane left by the amount in vb. -/
  | vshl (p : BitVec 4) (d : BitVec 6) (a : BitVec 6) (b : BitVec 6)
  /-- VSHR (R150): Shifts each lane right logically by the amount in vb. -/
  | vshr (p : BitVec 4) (d : BitVec 6) (a : BitVec 6) (b : BitVec 6)
  /-- VSRA (R150): Shifts each lane right arithmetically by the amount in vb. -/
  | vsra (p : BitVec 4) (d : BitVec 6) (a : BitVec 6) (b : BitVec 6)
  /-- VCMPF (R152): Writes an all-ones mask where an F32 comparison holds. -/
  | vcmpf (p : BitVec 4) (d : BitVec 6) (a : BitVec 6) (b : BitVec 6) (c : BitVec 2)
  /-- VCMPI (R152): Writes an all-ones mask where a signed comparison holds. -/
  | vcmpi (p : BitVec 4) (d : BitVec 6) (a : BitVec 6) (b : BitVec 6) (c : BitVec 2)
  /-- VSEL (R153): Selects bits of va or vb under the mask held in vd. -/
  | vsel (p : BitVec 4) (d : BitVec 6) (a : BitVec 6) (b : BitVec 6)
  /-- VDOT4 (R154): Accumulates a signed four-byte dot product into each I32 lane, with saturation. -/
  | vdot4 (p : BitVec 4) (d : BitVec 6) (a : BitVec 6) (b : BitVec 6)
  /-- VDOT4U (R154): Accumulates an unsigned-by-signed four-byte dot product into each I32 lane. -/
  | vdot4u (p : BitVec 4) (d : BitVec 6) (a : BitVec 6) (b : BitVec 6)
  /-- VADDS.F (R145): Adds a scalar F32 to every lane. -/
  | vaddsF (p : BitVec 4) (d : BitVec 6) (a : BitVec 6) (b : BitVec 5)
  /-- VMULS.F (R145): Multiplies every lane by a scalar F32. -/
  | vmulsF (p : BitVec 4) (d : BitVec 6) (a : BitVec 6) (b : BitVec 5)
  /-- VFMAS.F (R145): Fused multiply-add of every lane with a scalar into vd. -/
  | vfmasF (p : BitVec 4) (d : BitVec 6) (a : BitVec 6) (b : BitVec 5)
  /-- VCMPU (R152): Writes an all-ones mask where an unsigned comparison holds. -/
  | vcmpu (p : BitVec 4) (d : BitVec 6) (a : BitVec 6) (b : BitVec 6) (c : BitVec 2)
  /-- VADDI.I (R151): Adds a sign-extended immediate to every I32 lane. -/
  | vaddiI (p : BitVec 4) (d : BitVec 6) (a : BitVec 6) (i : BitVec 8)
  /-- VSHIFTI (R150): Shifts every lane by an immediate amount. -/
  | vshifti (p : BitVec 4) (d : BitVec 6) (a : BitVec 6) (o : BitVec 2) (n : BitVec 6)
  /-- VMOV (R155): Copies a tile bit for bit. -/
  | vmov (p : BitVec 4) (d : BitVec 6) (a : BitVec 6)
  /-- VSPLAT (R155): Writes sb[31:0] to every lane. -/
  | vsplat (p : BitVec 4) (d : BitVec 6) (b : BitVec 5)
  /-- VIDX (R155): Writes each lane's row, column or linear index. -/
  | vidx (p : BitVec 4) (d : BitVec 6) (m : BitVec 2)
  /-- RROT (R156): Rotates lanes along each row by an immediate amount. -/
  | rrot (p : BitVec 4) (d : BitVec 6) (a : BitVec 6) (n : BitVec 8)
  /-- CROT (R156): Rotates lanes along each column by an immediate amount. -/
  | crot (p : BitVec 4) (d : BitVec 6) (a : BitVec 6) (n : BitVec 8)
  /-- RBCST (R157): Broadcasts one column across each row. -/
  | rbcst (p : BitVec 4) (d : BitVec 6) (a : BitVec 6) (k : BitVec 8)
  /-- CBCST (R157): Broadcasts one row down each column. -/
  | cbcst (p : BitVec 4) (d : BitVec 6) (a : BitVec 6) (k : BitVec 8)
  /-- RRED (R158): Reduces each row over its columns by a fixed tree. -/
  | rred (p : BitVec 4) (d : BitVec 6) (a : BitVec 6) (o : BitVec 6)
  /-- CRED (R158): Reduces each column over its rows by a fixed tree. -/
  | cred (p : BitVec 4) (d : BitVec 6) (a : BitVec 6) (o : BitVec 6)
  /-- RSCAN (R159): Forms an inclusive sequential scan along each row. -/
  | rscan (p : BitVec 4) (d : BitVec 6) (a : BitVec 6) (o : BitVec 6)
  /-- VCVT (R160): Converts each lane by kind k. -/
  | vcvt (p : BitVec 4) (d : BitVec 6) (a : BitVec 6) (k : BitVec 8)
  /-- VGET (R161): Writes one lane, sign-extended, to a scalar. -/
  | vget (p : BitVec 4) (d : BitVec 5) (a : BitVec 6) (i : BitVec 8)
  /-- VPUT (R162): Writes a scalar into one lane of a tile. -/
  | vput (p : BitVec 4) (d : BitVec 6) (a : BitVec 5) (i : BitVec 8)
  /-- RROTV (R156): Rotates lanes along each row by a scalar amount. -/
  | rrotv (p : BitVec 4) (d : BitVec 6) (a : BitVec 6) (b : BitVec 5)
  /-- VLD (R193): Loads a 16-row tile in a memory format. -/
  | vld (p : BitVec 4) (d : BitVec 6) (a : BitVec 5) (f : BitVec 4) (b : BitVec 5)
  /-- VST (R194): Stores a tile in a memory format, choosing block coats. -/
  | vst (p : BitVec 4) (d : BitVec 6) (a : BitVec 5) (f : BitVec 4) (b : BitVec 5)
  /-- VLDT (R216): Requests a tile into a landing slot. -/
  | vldt (p : BitVec 4) (l : BitVec 5) (a : BitVec 5) (f : BitVec 4) (b : BitVec 5)
  /-- VLAND (R217): Moves a landing slot's tile into a vector register. -/
  | vland (p : BitVec 4) (d : BitVec 6) (l : BitVec 5)
  /-- SLD (R197): Loads a scalar of 1, 2, 4 or 8 bytes. -/
  | sld (p : BitVec 4) (d : BitVec 5) (a : BitVec 5) (w : BitVec 2) (x : BitVec 1) (o : BitVec 7)
  /-- SST (R197): Stores a scalar of 1, 2, 4 or 8 bytes. -/
  | sst (p : BitVec 4) (d : BitVec 5) (a : BitVec 5) (w : BitVec 2) (o : BitVec 7)
  /-- SLDA (R339): Scalar load that is an acquire at its scope. -/
  | slda (p : BitVec 4) (d : BitVec 5) (a : BitVec 5) (w : BitVec 2) (s : BitVec 3)
  /-- SSTR (R339): Scalar store that is a release at its scope. -/
  | sstr (p : BitVec 4) (d : BitVec 5) (a : BitVec 5) (w : BitVec 2) (s : BitVec 3)
  /-- CTLD (R195): Reads the coats of the blocks that a tile access would touch. -/
  | ctld (p : BitVec 4) (d : BitVec 6) (a : BitVec 5) (f : BitVec 4) (b : BitVec 5)
  /-- CTST (R196): Writes coats of the blocks of a tile layout. -/
  | ctst (p : BitVec 4) (d : BitVec 6) (a : BitVec 5) (f : BitVec 4) (b : BitVec 5)
  /-- WATCH (R331): Arms the context's monitor on a 64-byte block. -/
  | watch (p : BitVec 4) (a : BitVec 5)
  /-- SNOOZE (R333): Sleeps until the monitor triggers or the GTC limit passes. -/
  | snooze (p : BitVec 4) (d : BitVec 5) (a : BitVec 5)
  /-- MARK (R340): Holds until every earlier access is performed at the scope. -/
  | mark (p : BitVec 4) (s : BitVec 3)
  /-- CAS (R336): Compares 8 bytes with sd and writes sb if equal, returning the old value. -/
  | cas (p : BitVec 4) (d : BitVec 5) (a : BitVec 5) (b : BitVec 5) (s : BitVec 3)
  /-- AMOADD (R335): Atomic 64-bit add at the home slice. -/
  | amoadd (p : BitVec 4) (d : BitVec 5) (a : BitVec 5) (b : BitVec 5) (s : BitVec 3)
  /-- AMOAND (R335): Atomic 64-bit AND. -/
  | amoand (p : BitVec 4) (d : BitVec 5) (a : BitVec 5) (b : BitVec 5) (s : BitVec 3)
  /-- AMOOR (R335): Atomic 64-bit OR. -/
  | amoor (p : BitVec 4) (d : BitVec 5) (a : BitVec 5) (b : BitVec 5) (s : BitVec 3)
  /-- AMOXOR (R335): Atomic 64-bit XOR. -/
  | amoxor (p : BitVec 4) (d : BitVec 5) (a : BitVec 5) (b : BitVec 5) (s : BitVec 3)
  /-- AMOMIN (R335): Atomic signed minimum. -/
  | amomin (p : BitVec 4) (d : BitVec 5) (a : BitVec 5) (b : BitVec 5) (s : BitVec 3)
  /-- AMOMAX (R335): Atomic signed maximum. -/
  | amomax (p : BitVec 4) (d : BitVec 5) (a : BitVec 5) (b : BitVec 5) (s : BitVec 3)
  /-- AMOMINU (R335): Atomic unsigned minimum. -/
  | amominu (p : BitVec 4) (d : BitVec 5) (a : BitVec 5) (b : BitVec 5) (s : BitVec 3)
  /-- AMOMAXU (R335): Atomic unsigned maximum. -/
  | amomaxu (p : BitVec 4) (d : BitVec 5) (a : BitVec 5) (b : BitVec 5) (s : BitVec 3)
  /-- AMOSWAP (R335): Atomic swap. -/
  | amoswap (p : BitVec 4) (d : BitVec 5) (a : BitVec 5) (b : BitVec 5) (s : BitVec 3)
  /-- AMOFADD (R337): Atomic F32 add. -/
  | amofadd (p : BitVec 4) (d : BitVec 5) (a : BitVec 5) (b : BitVec 5) (s : BitVec 3)
  /-- AMOFMIN (R337): Atomic F32 minimum with its own NaN rule. -/
  | amofmin (p : BitVec 4) (d : BitVec 5) (a : BitVec 5) (b : BitVec 5) (s : BitVec 3)
  /-- AMOFMAX (R337): Atomic F32 maximum with its own NaN rule. -/
  | amofmax (p : BitVec 4) (d : BitVec 5) (a : BitVec 5) (b : BitVec 5) (s : BitVec 3)
  /-- MMA (R237): Queues a matrix multiply-accumulate of kind P, F8 or BF into an accumulator bank. -/
  | mma (p : BitVec 4) (c : BitVec 1) (k : BitVec 2) (g : BitVec 5) (e : BitVec 1) (f : BitVec 4)
  /-- MREF (R238): Queues a refinement adding further weight planes to a bank. -/
  | mref (p : BitVec 4) (c : BitVec 1) (g : BitVec 5) (e : BitVec 1) (f : BitVec 4)
  /-- MLUT (R239): Queues a table-lookup multiply of 1 or 2 planes. -/
  | mlut (p : BitVec 4) (c : BitVec 1) (g : BitVec 5) (e : BitVec 1) (f : BitVec 4)
  /-- MZERO (R240): Queues clearing of an accumulator bank and its poison bit. -/
  | mzero (p : BitVec 4) (c : BitVec 1)
  /-- MLDACC (R241): Queues loading of bank rows from the scratchpad. -/
  | mldacc (p : BitVec 4) (c : BitVec 1) (g : BitVec 5) (e : BitVec 1) (f : BitVec 4)
  /-- MDRAIN (R243): Queues scaling, biasing and storing of bank rows to memory. -/
  | mdrain (p : BitVec 4) (c : BitVec 1) (g : BitVec 5) (e : BitVec 1) (f : BitVec 4)
  /-- MFMT (R242): Writes NFR.MX from a scalar. -/
  | mfmt (p : BitVec 4) (g : BitVec 5)
  /-- MPROG (R248): Reads the context's array progress record. -/
  | mprog (p : BitVec 4) (d : BitVec 5)
  /-- MRESUME (R250): Re-queues the context's held macro-ops after re-translation. -/
  | mresume (p : BitVec 4)
  /-- WSWAP (R253): Schedules exchange of the active and shadow weight-bank halves at a tick. -/
  | wswap (p : BitVec 4) (g : BitVec 5) (e : BitVec 1) (f : BitVec 4)
  /-- XTRN (R164): Transposes each 16 × 16 block of a tile. -/
  | xtrn (p : BitVec 4) (d : BitVec 6) (a : BitVec 6)
  /-- XCVT (R165): Packs or unpacks lanes along each row by kind k. -/
  | xcvt (p : BitVec 4) (d : BitVec 6) (a : BitVec 6) (k : BitVec 8)
  /-- XPLS (R166): Splits two I32 tiles into bit planes. -/
  | xpls (p : BitVec 4) (d : BitVec 6) (a : BitVec 6) (b : BitVec 6)
  /-- XPLM (R167): Adds the Q-plane reading of a plane-form tile to vb. -/
  | xplm (p : BitVec 4) (d : BitVec 6) (a : BitVec 6) (b : BitVec 6)
  /-- XFMT (R168): Writes NFR.XC from a scalar. -/
  | xfmt (p : BitVec 4) (g : BitVec 5)
  /-- CPY (R262): Queues a block copy with an optional transform. -/
  | cpy (p : BitVec 4) (t : BitVec 6) (g : BitVec 5) (x : BitVec 9)
  /-- CPYSL (R271): Queues a copy into or out of a named staging slice. -/
  | cpysl (p : BitVec 4) (t : BitVec 6) (g : BitVec 5) (x : BitVec 9)
  /-- CPYMC (R272): Queues a lockstep multicast of one row into several pairs' scratchpads. -/
  | cpymc (p : BitVec 4) (t : BitVec 6) (g : BitVec 5)
  /-- CPYCAN (R273): Cancels the copy holding a tag. -/
  | cpycan (p : BitVec 4) (t : BitVec 6)
  /-- COLL (R382): Starts the issuing pair's part in a bit-plane collective. -/
  | coll (p : BitVec 4) (t : BitVec 6) (g : BitVec 5) (o : BitVec 2)
  /-- PCNT (R389): Reads a precision counter into sd. -/
  | pcnt (p : BitVec 4) (d : BitVec 5) (a : BitVec 5)
  /-- PCANCEL (R391): Cancels the remaining planes of one receive tile. -/
  | pcancel (p : BitVec 4) (a : BitVec 5)
  /-- PCANCEL.TAG (R393): Cancels a whole collective by tag. -/
  | pcancelTag (p : BitVec 4) (t : BitVec 6)
  /-- WHFETCH (R313): Requests planes of a weight handle at a priority. -/
  | whfetch (p : BitVec 4) (g : BitVec 5) (h : BitVec 9)
  /-- WHSTAT (R316): Reads word 0 of a handle record. -/
  | whstat (p : BitVec 4) (d : BitVec 5) (h : BitVec 9)
  /-- WHDROP (R318): Releases a weight handle. -/
  | whdrop (p : BitVec 4) (h : BitVec 9)
  /-- SYNC (R53): Holds until every flag of the mask is set, or only carries a stall. -/
  | sync (s : BitVec 4) (m : BitVec 16)
  /-- FSET (R324): Sets a flag on a target core as a release at a scope. -/
  | fset (s : BitVec 4) (c : BitVec 3) (f : BitVec 4) (a : BitVec 5)
  /-- FSET (R324): Sets a flag on the issuing core as a release at a scope. -/
  | fsetSelf (s : BitVec 4) (c : BitVec 3) (f : BitVec 4)
  /-- FCLR (R325): Clears a flag on a target core after earlier accesses are performed. -/
  | fclr (s : BitVec 4) (f : BitVec 4) (a : BitVec 5)
  /-- FCLR (R325): Clears a flag on the issuing core after earlier accesses are performed. -/
  | fclrSelf (s : BitVec 4) (f : BitVec 4)
  /-- WAITANY (R276): Holds until any masked tag bit is set. -/
  | waitany (s : BitVec 4) (a : BitVec 5)
  /-- WAITALL (R276): Holds until all masked tag bits are set. -/
  | waitall (s : BitVec 4) (a : BitVec 5)
  /-- FFR (R277): Finds the lowest completed masked tag and its status. -/
  | ffr (s : BitVec 4) (a : BitVec 5) (d : BitVec 5)
  /-- PWAIT (R390): Holds until a precision counter shows q planes or ends. -/
  | pwait (s : BitVec 4) (a : BitVec 5) (q : BitVec 4)
  /-- WHWAIT (R317): Holds until a handle shows q landed planes. -/
  | whwait (s : BitVec 4) (h : BitVec 12) (q : BitVec 4)
  /-- BARRIVE (R328): Arrives at a memory barrier as a release. -/
  | barrive (s : BitVec 4) (a : BitVec 5) (c : BitVec 3)
  /-- BARWAIT (R330): Waits for a barrier's phase to change or a GTC limit. -/
  | barwait (s : BitVec 4) (a : BitVec 5) (b : BitVec 5) (d : BitVec 5)
  /-- SLK (R209): Sets the slack allowed before the next SLK. -/
  | slk (s : BitVec 4) (n : BitVec 20)
  /-- BOOK (R206): Admits the issuing context as a booked task with a plan. -/
  | book (s : BitVec 4) (a : BitVec 5) (d : BitVec 5)
  /-- UNBOOK (R208): Releases the task's later bookings and returns it to FREE. -/
  | unbook (s : BitVec 4)
  /-- CALQ (R207): Queries the start tick that BOOK would return. -/
  | calq (s : BitVec 4) (a : BitVec 5) (d : BitVec 5)
  /-- SPAWN (R355): Spawns a TCB into a task queue and returns a status. -/
  | spawn (s : BitVec 4) (a : BitVec 5) (d : BitVec 5) (q : BitVec 4)
  /-- SPAWN.W (R355): Spawns a TCB, holding instead of returning FULL in a free context. -/
  | spawnW (s : BitVec 4) (a : BitVec 5) (d : BitVec 5) (q : BitVec 4)
  /-- TDONE (R369): Ends the task instance and halts the context. -/
  | tdone (s : BitVec 4)
  /-- TYIELD (R371): Returns the instance to its queue unfinished. -/
  | tyield (s : BitVec 4)
  /-- TRAP (R410): Raises TRAPI with a code. -/
  | trap (s : BitVec 4) (c : BitVec 16)
  /-- TRAP.BRK (R410): Raises BREAK with a code. -/
  | trapBrk (s : BitVec 4) (c : BitVec 16)
  /-- RFT (R422): Resumes a stopped context from its save area. -/
  | rft (s : BitVec 4) (a : BitVec 5)
  /-- HALT (R411): Halts the issuing context without a save area. -/
  | halt (s : BitVec 4)
  /-- CTXRUN (R422): Runs a save area on a named context. -/
  | ctxrun (s : BitVec 4) (a : BitVec 5) (b : BitVec 5)
  /-- CTXSTOP (R417): Requests a stop of a named context. -/
  | ctxstop (s : BitVec 4) (a : BitVec 5)
  /-- CONTEXT_STOP (R413): A stop request reaches the core and the context freezes at the stop edge, writing its save area. -/
  | contextStop (c : Nat) (kind : Nat)
  /-- STOP_POINT (R418): The context named in STOPCTL reaches STOPPC with the matching LC and stops. -/
  | stopPoint (p : Nat)
  /-- RESUME_START (R423): After its busy copies and pending results complete, an RFT or CTXRUN target is checked and started. -/
  | resumeStart (id : Nat)
  /-- WATCHDOG (R407): A bundle held for WDLIMIT ns traps with WATCHDOG. -/
  | watchdog (c : Nat)
  /-- LOAD_RESULT (R39): A variable-latency result returns and is written to its register. -/
  | loadResult (c : Nat) (id : Nat)
  /-- ICACHE_FILL (R113): An instruction-cache miss of a free context completes. -/
  | icacheFill (core : Nat) (line : Nat)
  /-- VLDT_LANDED (R216): The last row of a timed load arrives and the landing slot becomes LANDED. -/
  | vldtLanded (core : Nat) (slot : Nat)
  /-- SNOOZE_TIMEOUT (R333): GTC passes a SNOOZE limit and sd becomes 1. -/
  | snoozeTimeout (c : Nat)
  /-- BARWAIT_TIMEOUT (R330): GTC passes a BARWAIT limit and sd becomes 1. -/
  | barwaitTimeout (c : Nat)
  /-- TICK_START (R205): At the first cycle of each tick the calendar controller writes refresh bookings and runs compaction. -/
  | tickStart (f : Nat)
  /-- ADMISSION (R204): The calendar controller processes an admission request, finds a start tick and books the plan. -/
  | admission (f : Nat)
  /-- TASK_START (R204): At its start tick a booked task's context becomes BOOKED and issues its entry bundle. -/
  | taskStart (f : Nat) (bid : Nat)
  /-- ISSUEEND (R112): A booked task still issuing after its last core-issue tick traps with OVERRUN. -/
  | issueend (c : Nat)
  /-- UNBOOKED (R211): An engine step of a booked task finds no owned start and the task traps with OVERRUN. -/
  | unbooked (c : Nat) (slot : Nat) (row : Nat)
  /-- SLACK_EXHAUSTED (R213): A wait finds SLACKLEFT at 0 and the task traps under PAD or the pair freezes under SLIP. -/
  | slackExhausted (c : Nat)
  /-- SLIP_TEST (R215): At each 32-cycle mark of a freeze the controller tests a slip of k ticks and moves bookings or traps. -/
  | slipTest (p : Nat)
  /-- THAW (R215): The frozen pair's clock runs again at the end of a passed slip. -/
  | thaw (p : Nat)
  /-- WRATIO_CHANGE (R221): A write of WRATIO.REQ starts a weight-layer clock ratio change. -/
  | wratioChange (f : Nat) (p : Nat)
  /-- RATIO_SWITCH (R221): At tick B+1 the drained weight layer changes its clock ratio. -/
  | ratioSwitch (f : Nat) (p : Nat)
  /-- ARRAY_STEP (R232): A macro-op step starts once its queue, rows and banks are available. -/
  | arrayStep (p : Nat) (q : Nat)
  /-- MACROOP_COMPLETE (R233): A macro-op completes after its last step and sets its flag if enabled. -/
  | macroopComplete (p : Nat) (q : Nat)
  /-- WEIGHT_SWAP (R253): At tick t the active and shadow weight-bank halves exchange. -/
  | weightSwap (p : Nat)
  /-- SWAP_DONE (R253): At tick t+1 SWAPPEND clears and the WSWAP flag is set. -/
  | swapDone (p : Nat)
  /-- ACCT_FLUSH (R255): ACCTCTL.FLUSH writes every accounting entry to the ring. -/
  | acctFlush (p : Nat)
  /-- COPY_CHUNK (R258): A copy engine carries out one chunk of a command. -/
  | copyChunk (e : Nat)
  /-- COPY_COMPLETE (R274): A copy completes, writes TSTAT and sets its tag as a release. -/
  | copyComplete (e : Nat) (id : Nat)
  /-- CPYMC_WRITE (R272): At tick LT a multicast copy writes its beats into every target bank. -/
  | cpymcWrite (e : Nat) (id : Nat)
  /-- HANDLE_COMMAND_ACCEPT (R313): The flash port accepts a queued handle command and updates the handle. -/
  | handleCommandAccept (d : Nat)
  /-- CARD_START (R314): The flash port chooses and starts the next job card. -/
  | cardStart (d : Nat)
  /-- CODEWORD_READ (R306): The read channel reads one codeword from the first source with work. -/
  | codewordRead (d : Nat)
  /-- PLANE_LAND (R315): A job card finishes and its plane lands, advancing LANDED as a release. -/
  | planeLand (d : Nat)
  /-- FORWARDED_READ (R290): A read of an HBF page is served from flash through the line cache. -/
  | forwardedRead (d : Nat)
  /-- PROMOTION (R292): The promotion engine starts moving a page from flash to an HBM frame. -/
  | promotion (d : Nat)
  /-- PROMOTION_DONE (R292): The last line of a promotion is copied and the page becomes HBM. -/
  | promotionDone (d : Nat)
  /-- SWEEP (R293): READY below LOWWM starts the clock sweeper freeing frames. -/
  | sweep (d : Nat)
  /-- DEMOTION_DONE (R293): A demotion's flash write completes and the frame is pushed. -/
  | demotionDone (d : Nat) (page : Nat)
  /-- EPOCH_ADVANCE (R291): The domain's epoch number advances every EPOCHLEN ns. -/
  | epochAdvance (d : Nat)
  /-- GARBAGE_COLLECTION (R302): With fewer than 64 free blocks the layer collects the emptiest data block. -/
  | garbageCollection (n : Nat)
  /-- STATIC_WEAR_LEVELLING (R302): A wear spread above WLDELTA moves the least-worn data block. -/
  | staticWearLevelling (n : Nat)
  /-- PATROL_READ (R304): Each valid page is patrol-read once per PATROL interval. -/
  | patrolRead (n : Nat)
  /-- WAYPART_DONE (R184): A way-partition change finishes and BUSY clears. -/
  | waypartDone (s : Nat)
  /-- WB (R297): L2CMD writes back the dirty lines of a range. -/
  | wb (d : Nat) (p : Nat)
  /-- WBINV (R297): L2CMD writes back and invalidates the lines of a range. -/
  | wbinv (d : Nat) (p : Nat)
  /-- INV (R297): L2CMD invalidates the lines of a range and discards dirty data. -/
  | inv (d : Nat) (p : Nat)
  /-- MAPHBM (R298): Maps an INVALID page to an HBM frame. -/
  | maphbm (d : Nat) (p : Nat)
  /-- MAPHBF (R298): Maps an INVALID page to flash. -/
  | maphbf (d : Nat) (p : Nat)
  /-- UNMAP (R298): Makes a page INVALID and frees its frame. -/
  | unmap (d : Nat) (p : Nat)
  /-- PIN (R298): Sets a page's PIN bit. -/
  | pin (d : Nat) (p : Nat)
  /-- UNPIN (R298): Clears a page's PIN bit. -/
  | unpin (d : Nat) (p : Nat)
  /-- PROMOTE (R298): Starts a demand promotion of an HBF page. -/
  | promote (d : Nat) (p : Nat)
  /-- DEMOTE (R298): Runs the sweeper's demotion step on an HBM page. -/
  | demote (d : Nat) (p : Nat)
  /-- REPLICATE (R298): Makes a region 0x8 page REPLICATED with zero bytes. -/
  | replicate (d : Nat) (p : Nat)
  /-- INVAL (R298): Drops a page's cached translation entry. -/
  | inval (d : Nat) (p : Nat)
  /-- DISPATCH_STEP (R364): Every 8 ns the dispatcher draws a queue and dispatches an instance. -/
  | dispatchStep (d : Nat)
  /-- TASK_COMPLETE (R370): A task completes once all its instances and work are done and performs DONEACT. -/
  | taskComplete (d : Nat) (seq : Nat)
  /-- VERSION_COMMIT (R362): A renamed page version commits and its fresh frame replaces the old one. -/
  | versionCommit (d : Nat) (seq : Nat)
  /-- COLL_JOIN (R384): A COLL at the engine's head reads its descriptor and joins by CID. -/
  | collJoin (e : Nat) (id : Nat)
  /-- COLL_ABSENT (R384): A member's LIMIT passes before all join and the collective ends ABSENT. -/
  | collAbsent (k : Nat)
  /-- PLANE_SEND (R395): A sender sends one plane of its tiles as a link step. -/
  | planeSend (k : Nat) (m : Nat)
  /-- PLANE_LANDING (R385): A plane's contribution lands in a receive tile and its counter advances. -/
  | planeLanding (k : Nat) (m : Nat) (t : Nat) (j : Nat)
  /-- CANCEL_PROCESS (R392): A cancel queue entry is processed and freezes its receive tiles. -/
  | cancelProcess (p : Nat)
  /-- SENDER_STOP (R394): A sender stops after cancellation and frees its unsent booked link ticks. -/
  | senderStop (k : Nat) (m : Nat)
  /-- COLL_COMPLETE (R396): A collective completes at every member and sets each tag. -/
  | collComplete (k : Nat)
  /-- PRESET_DONE (R405): A partition reset ends, PRESET.BUSY and PSTAT.RBUSY return to 0 and GO writes are accepted again. -/
  | presetDone (p : Nat)
  /-- L2CMD_DONE (R297): An L2CMD maintenance operation finishes its range and DONE reads 1. -/
  | l2cmdDone (d : Nat)
  /-- PGCMD_DONE (R298): A page command completes, PGCMD.BUSY clears and STATUS holds the result. -/
  | pgcmdDone (d : Nat)
  /-- RELOCATION (R303): The translation layer copies a block's valid data, switches its map entries and erases it. -/
  | relocation (n : Nat)
  /-- MACHINE (R408): An uncontained error stops every touched partition's contexts and reports to firmware. -/
  | machine (parts : Nat)
  /-- PROGRAM_FAIL (R302): A program or erase failure adds a grown bad block and takes a spare. -/
  | programFail (n : Nat) (b : Nat)
  /-- SRAM_ERROR (R190): An SRAM error is corrected in place or poisons its block. -/
  | sramError (place : Nat) (unc : Bool)
  /-- PEER_PACKET (R399): The Ethernet port receives a plane packet or control message from a peer. -/
  | peerPacket (k : Nat) (m : Nat) (t : Nat) (j : Nat) (scale : Byte) (bits : (List Byte))
  /-- PEERLOST (R400): The port reports a peer unreachable and the collective ends PEERLOST. -/
  | peerlost (k : Nat)
  /-- INJECT_WRITE (R307): A write of INJECT arms error injection on a target flash page. -/
  | injectWrite (n : Nat) (v : Word)
  /-- WAYPART_WRITE (R184): A write of WAYPART starts growing or shrinking staging. -/
  | waypartWrite (s : Nat) (v : Word)
  /-- TALLOW_WRITE (R224): A write of TALLOW sets a pair's array allowance, clamped to 64. -/
  | tallowWrite (p : Nat) (v : Word)
  /-- ACFG_WRITE (R255): A write of ACFG changes array mode or LEASEMAX, or is refused. -/
  | acfgWrite (p : Nat) (v : Word)
  /-- QUEUE_CONFIG_WRITE (R354): A write to a queue block updates EN and TICKETS and other fields when no slot is held. -/
  | queueConfigWrite (p : Nat) (q : Nat) (off : Nat) (v : Word)
  /-- SQHEAD_WRITE (R374): A write of SQHEAD is taken only within one ring of the tail. -/
  | sqheadWrite (p : Nat) (v : Word)
  /-- MSGHEAD_WRITE (R412): A write of MSGHEAD is taken only within one ring of the tail. -/
  | msgheadWrite (p : Nat) (v : Word)
  /-- START (R100): A write of START.GO checks the start-vector table and launches the partition. -/
  | start (p : Nat) (v : Word)
  /-- PRESET (R405): A write of PRESET.GO resets the partition. -/
  | preset (p : Nat) (v : Word)
  /-- REGISTER_WRITE (R7): A write to a configuration register without behaviour of its own stores its fields by access code. -/
  | registerWrite (priv : Nat) (p : Nat) (ia : Nat) (v : Word)
  /-- HOST_READ (R428): A CXL.mem read of data through a logical device. -/
  | hostRead (ld : Nat) (o : Nat) (n : Nat)
  /-- HOST_WRITE (R428): A CXL.mem write of data through a logical device. -/
  | hostWrite (ld : Nat) (o : Nat) (bs : (List Byte))
  /-- HOST_COAT_READ (R428): A CXL.mem read of a block's coat. -/
  | hostCoatRead (ld : Nat) (o : Nat)
  /-- HOST_COAT_WRITE (R428): A CXL.mem write of a block's coat. -/
  | hostCoatWrite (ld : Nat) (o : Nat) (v : Coat)
  /-- GET_EVENT_RECORDS (R431): Mailbox command returning event records. -/
  | getEventRecords (ld : Nat)
  /-- GET_FW_INFO (R431): Mailbox command returning firmware information. -/
  | getFwInfo (ld : Nat)
  /-- TRANSFER_FW (R434): Mailbox command transferring and checking a firmware image. -/
  | transferFw (ld : Nat) (image : (List Byte))
  /-- ACTIVATE_FW (R434): Mailbox command writing the checked image and clearing FAILS. -/
  | activateFw (ld : Nat)
  /-- GET_SUPPORTED_LOGS (R431): Mailbox command listing supported logs. -/
  | getSupportedLogs (ld : Nat)
  /-- GET_LOG (R446): Mailbox command returning a log, including the lifetime log on the FM LD. -/
  | getLog (ld : Nat) (log : Nat)
  /-- IDENTIFY_MEMORY_DEVICE (R431): Mailbox command identifying the memory device. -/
  | identifyMemoryDevice (ld : Nat)
  /-- GET_HEALTH_INFO (R431): Mailbox command returning health information. -/
  | getHealthInfo (ld : Nat)
  /-- ATTEST (R437): Mailbox command returning a signed attestation report for a nonce. -/
  | attest (ld : Nat) (nonce : (List Byte))
  /-- GETIDKEY (R431): Mailbox command returning the identity key and certificate chain. -/
  | getidkey (ld : Nat)
  /-- EXTEND (R436): Mailbox command extending MEAS2 to MEAS7. -/
  | extend (ld : Nat) (i : Nat) (data : (List Byte))
  /-- PREEMPT (R431): Mailbox command pre-empting a context as firmware. -/
  | preempt (ld : Nat) (c : Nat)
  /-- WRESET (R438): Mailbox command running a warm reset. -/
  | wreset (ld : Nat)
  /-- POWERCAP (R431): Mailbox command setting the power limit. -/
  | powercap (ld : Nat) (watts : Nat)
  /-- SET_TIMESTAMP (R440): Sets the CXL timestamp of event records only. -/
  | setTimestamp (ld : Nat) (t : Word)
  /-- UNSUPPORTED (R431): An unknown or disallowed mailbox opcode completes with Unsupported. -/
  | unsupported (ld : Nat) (opcode : Nat)
  /-- DOUBLE_REFRESH_ENTRY (R442): A weight layer reaches 85 °C and enters double refresh with a cut allowance. -/
  | doubleRefreshEntry (p : Nat)
  /-- DOUBLE_REFRESH_EXIT (R448): A weight layer falls below 80 °C and its allowance is restored. -/
  | doubleRefreshExit (p : Nat)
  /-- FACE_THROTTLE (R442): A face sensor reaches 95 °C and every pair's allowance drops to 32. -/
  | faceThrottle (f : Nat)
  /-- FACE_THROTTLE_END (R442): All of a face's sensors fall below 90 °C and allowances are restored. -/
  | faceThrottleEnd (f : Nat)
  /-- DROOP (R444): A supply droop on a face captures DGTC and per-core samples. -/
  | droop (f : Nat)
  /-- CONVENTIONAL_RESET (R438): A CXL conventional reset runs a warm reset. -/
  | conventionalReset
  /-- COLD_START (R432): Power-on runs the secure cold start sequence. -/
  | coldStart
  /-- START_TIMEOUT (R432): STARTOK not reached within 30 s ends the start with TIMEOUT. -/
  | startTimeout
  /-- THERMTRIP (R442): Any sensor reaches 105 °C and every die's clocks stop. -/
  | thermtrip
  /-- POWER_CHECK (R443): Every millisecond firmware compares PWR with PLIMIT and adjusts allowances. -/
  | powerCheck
  /-- LOG_APPEND (R446): Firmware appends to the lifetime log hourly and at each event. -/
  | logAppend
  /-- STARTOK (R432): Firmware finishes the cold-start steps and sets STARTOK, FAILS becomes 0 and the logical devices accept CXL.mem. -/
  | startok
  /-- NOP (R22): The all-zero slot word does nothing. -/
  | nop
  deriving DecidableEq, Repr

end Sys2Proof
end

