-- ==== Sys2Proof/WellFormed.lean ====
section
/-! DEFINITION. Well-formedness: the limits that a word's own fields must keep (R4, R22, R45) and, for an event,
unit numbers that exist (R1). A slot word that breaks one traps with ILLOP (R22). -/

namespace Sys2Proof

/-- A scope field other than 7 (R4). -/
def scopeOk (s : BitVec 3) : Bool := s.toNat < 7

/-- A scalar group starts at 8, 16 or 24 (R22, R35). -/
def groupOk (g : BitVec 5) : Bool := g.toNat == 8 || g.toNat == 16 || g.toNat == 24

/-- The flag field is used only when the flag enable bit is set, and an unused field is zero (R35, R49). -/
def flagOk (e : BitVec 1) (f : BitVec 4) : Bool := e == 1 || f == 0

/-- The special register numbers of R115. -/
def srAssigned (r : Nat) : Bool :=
  r ≤ 0x00B || r == 0x020 || r == 0x021 || r == 0x022 || (0x030 ≤ r && r ≤ 0x033) || r == 0x041 || r == 0x042 ||
  r == 0x050 || (0x100 ≤ r && r ≤ 0x11F)

/-- The limits of each instruction's own fields. -/
def Instr.wf : Instr → Bool
  | .nop => true
  | .pfx _ => true
  | .add _ _ _ _ => true
  | .addi _ _ _ => true
  | .sub _ _ _ _ => true
  | .mul _ _ _ _ => true
  | .mulh _ _ _ _ => true
  | .mulhu _ _ _ _ => true
  | .div _ _ _ _ => true
  | .divu _ _ _ _ => true
  | .rem _ _ _ _ => true
  | .remu _ _ _ _ => true
  | .and _ _ _ _ => true
  | .andi _ _ _ => true
  | .or _ _ _ _ => true
  | .ori _ _ _ => true
  | .xor _ _ _ _ => true
  | .xori _ _ _ => true
  | .shl _ _ _ _ => true
  | .shli _ _ n => n.toNat ≤ 63
  | .shr _ _ _ _ => true
  | .shri _ _ n => n.toNat ≤ 63
  | .sra _ _ _ _ => true
  | .srai _ _ n => n.toNat ≤ 63
  | .min _ _ _ _ => true
  | .max _ _ _ _ => true
  | .minu _ _ _ _ => true
  | .maxu _ _ _ _ => true
  | .clz _ _ _ => true
  | .popc _ _ _ => true
  | .clmul _ _ _ _ => true
  | .clmulh _ _ _ _ => true
  | .sel _ _ _ _ => true
  | .cmp _ _ _ _ c => c.toNat < 6
  | .cmpi _ c _ _ => c.toNat < 6
  | .li _ _ => true
  | .plog _ _ _ _ f => f.toNat < 4
  | .pget _ _ => true
  | .pput _ _ => true
  | .mfsr _ r => srAssigned r.toNat
  | .mtsr _ r => srAssigned r.toNat && r.toNat != 0x041 && r.toNat != 0x042
  | .fadds _ _ _ _ => true
  | .fsubs _ _ _ _ => true
  | .fmuls _ _ _ _ => true
  | .fmas _ _ _ _ => true
  | .fmins _ _ _ _ => true
  | .fmaxs _ _ _ _ => true
  | .fcmps _ _ _ _ c => c.toNat < 4
  | .fcvts _ _ _ k => k.toNat < 6
  | .br _ _ => true
  | .call _ _ => true
  | .jr _ _ => true
  | .loop _ _ => true
  | .loopset _ _ _ => true
  | .loopseti _ _ => true
  | .vaddF _ _ _ _ => true
  | .vsubF _ _ _ _ => true
  | .vmulF _ _ _ _ => true
  | .vfmaF _ _ _ _ => true
  | .vmaxF _ _ _ _ => true
  | .vminF _ _ _ _ => true
  | .vabsF _ _ _ m => m.toNat < 3
  | .vexp2 _ _ _ _ => true
  | .vrcp _ _ _ => true
  | .vrsq _ _ _ => true
  | .vaddI _ _ _ _ => true
  | .vsubI _ _ _ _ => true
  | .vmulI _ _ _ _ => true
  | .vmaxI _ _ _ _ => true
  | .vminI _ _ _ _ => true
  | .vand _ _ _ _ => true
  | .vor _ _ _ _ => true
  | .vxor _ _ _ _ => true
  | .vshl _ _ _ _ => true
  | .vshr _ _ _ _ => true
  | .vsra _ _ _ _ => true
  | .vcmpf _ _ _ _ _ => true
  | .vcmpi _ _ _ _ _ => true
  | .vsel _ _ _ _ => true
  | .vdot4 _ _ _ _ => true
  | .vdot4u _ _ _ _ => true
  | .vaddsF _ _ _ _ => true
  | .vmulsF _ _ _ _ => true
  | .vfmasF _ _ _ _ => true
  | .vcmpu _ _ _ _ _ => true
  | .vaddiI _ _ _ _ => true
  | .vshifti _ _ _ o n => o.toNat < 3 && n.toNat < 32
  | .vmov _ _ _ => true
  | .vsplat _ _ _ => true
  | .vidx _ _ m => m.toNat < 3
  | .rrot _ _ _ n => n.toNat ≤ 63
  | .crot _ _ _ n => n.toNat ≤ 15
  | .rbcst _ _ _ k => k.toNat ≤ 63
  | .cbcst _ _ _ k => k.toNat ≤ 15
  | .rred _ _ _ o => o.toNat ≤ 5
  | .cred _ _ _ o => o.toNat ≤ 5
  | .rscan _ _ _ o => o.toNat == 0 || o.toNat == 3 || o.toNat == 6
  | .vcvt _ _ _ k => k.toNat ≤ 8
  | .vget _ _ _ _ => true
  | .vput _ _ _ _ => true
  | .rrotv _ _ _ _ => true
  | .vld _ _ _ f _ => f.toNat < 15
  | .vst _ _ _ f _ => 0 < f.toNat && f.toNat < 15
  | .vldt _ _ _ f _ => f.toNat < 15
  | .vland _ _ _ => true
  | .sld _ _ _ w x _ => !(w.toNat == 3 && x.toNat == 1)
  | .sst _ _ _ _ _ => true
  | .slda _ _ _ _ s => scopeOk s
  | .sstr _ _ _ _ s => scopeOk s
  | .ctld _ _ _ f _ => f.toNat < 15
  | .ctst _ _ _ f _ => 0 < f.toNat && f.toNat < 15
  | .watch _ _ => true
  | .snooze _ _ _ => true
  | .mark _ s => scopeOk s
  | .cas _ _ _ _ s => scopeOk s
  | .amoadd _ _ _ _ s => scopeOk s
  | .amoand _ _ _ _ s => scopeOk s
  | .amoor _ _ _ _ s => scopeOk s
  | .amoxor _ _ _ _ s => scopeOk s
  | .amomin _ _ _ _ s => scopeOk s
  | .amomax _ _ _ _ s => scopeOk s
  | .amominu _ _ _ _ s => scopeOk s
  | .amomaxu _ _ _ _ s => scopeOk s
  | .amoswap _ _ _ _ s => scopeOk s
  | .amofadd _ _ _ _ s => scopeOk s
  | .amofmin _ _ _ _ s => scopeOk s
  | .amofmax _ _ _ _ s => scopeOk s
  | .mma _ _ k g e f => k.toNat < 3 && groupOk g && flagOk e f
  | .mref _ _ g e f => groupOk g && flagOk e f
  | .mlut _ _ g e f => groupOk g && flagOk e f
  | .mzero _ _ => true
  | .mldacc _ _ g e f => groupOk g && flagOk e f
  | .mdrain _ _ g e f => groupOk g && flagOk e f
  | .mfmt _ g => groupOk g
  | .mprog _ _ => true
  | .mresume _ => true
  | .wswap _ g e f => groupOk g && flagOk e f
  | .xtrn _ _ _ => true
  | .xcvt _ _ _ k => k.toNat ≤ 9
  | .xpls _ _ _ _ => true
  | .xplm _ _ _ _ => true
  | .xfmt _ g => groupOk g
  | .cpy _ _ g x => groupOk g && x.toNat ≤ 5
  | .cpysl _ _ g x => groupOk g && x.toNat ≤ 5
  | .cpymc _ _ g => groupOk g
  | .cpycan _ _ => true
  | .coll _ _ g _ => groupOk g
  | .pcnt _ _ _ => true
  | .pcancel _ _ => true
  | .pcancelTag _ _ => true
  | .whfetch _ g _ => groupOk g
  | .whstat _ _ _ => true
  | .whdrop _ _ => true
  | .sync s m => s != 0 || m != 0
  | .fset _ c _ _ => scopeOk c
  | .fsetSelf _ c _ => scopeOk c
  | .fclr _ _ _ => true
  | .fclrSelf _ _ => true
  | .waitany _ _ => true
  | .waitall _ _ => true
  | .ffr _ _ _ => true
  | .pwait _ _ q => q.toNat ≤ 8
  | .whwait _ _ q => 1 ≤ q.toNat && q.toNat ≤ 8
  | .barrive _ _ c => scopeOk c
  | .barwait _ _ _ _ => true
  | .slk _ _ => true
  | .book _ _ _ => true
  | .unbook _ => true
  | .calq _ _ _ => true
  | .spawn _ _ _ _ => true
  | .spawnW _ _ _ _ => true
  | .tdone _ => true
  | .tyield _ => true
  | .trap _ _ => true
  | .trapBrk _ _ => true
  | .rft _ _ => true
  | .halt _ => true
  | .ctxrun _ _ _ => true
  | .ctxstop _ _ => true
  | .contextStop c _ => decide (c < 2048)
  | .stopPoint p => decide (p < 16)
  | .resumeStart _ => true
  | .watchdog c => decide (c < 2048)
  | .loadResult c _ => decide (c < 2048)
  | .icacheFill core _ => decide (core < 512)
  | .vldtLanded core slot => decide (core < 512) && decide (slot < 32)
  | .snoozeTimeout c => decide (c < 2048)
  | .barwaitTimeout c => decide (c < 2048)
  | .tickStart f => decide (f < 32)
  | .admission f => decide (f < 32)
  | .taskStart f _ => decide (f < 32)
  | .issueend c => decide (c < 2048)
  | .unbooked c slot row => decide (c < 2048) && decide (slot < 8) && decide (row < 512)
  | .slackExhausted c => decide (c < 2048)
  | .slipTest p => decide (p < 256)
  | .thaw p => decide (p < 256)
  | .wratioChange f p => decide (f < 32) && decide (p < 8)
  | .ratioSwitch f p => decide (f < 32) && decide (p < 8)
  | .arrayStep p q => decide (p < 256) && decide (q < 4)
  | .macroopComplete p q => decide (p < 256) && decide (q < 4)
  | .weightSwap p => decide (p < 256)
  | .swapDone p => decide (p < 256)
  | .acctFlush p => decide (p < 256)
  | .copyChunk e => decide (e < 128)
  | .copyComplete e _ => decide (e < 128)
  | .cpymcWrite e _ => decide (e < 128)
  | .handleCommandAccept d => decide (d < 8)
  | .cardStart d => decide (d < 8)
  | .codewordRead d => decide (d < 8)
  | .planeLand d => decide (d < 8)
  | .forwardedRead d => decide (d < 8)
  | .promotion d => decide (d < 8)
  | .promotionDone d => decide (d < 8)
  | .sweep d => decide (d < 8)
  | .demotionDone d _ => decide (d < 8)
  | .epochAdvance d => decide (d < 8)
  | .garbageCollection n => decide (n < 8)
  | .staticWearLevelling n => decide (n < 8)
  | .patrolRead n => decide (n < 8)
  | .waypartDone s => decide (s < 1536)
  | .wb d p => decide (d < 8) && decide (p < 16)
  | .wbinv d p => decide (d < 8) && decide (p < 16)
  | .inv d p => decide (d < 8) && decide (p < 16)
  | .maphbm d p => decide (d < 8) && decide (p < 16)
  | .maphbf d p => decide (d < 8) && decide (p < 16)
  | .unmap d p => decide (d < 8) && decide (p < 16)
  | .pin d p => decide (d < 8) && decide (p < 16)
  | .unpin d p => decide (d < 8) && decide (p < 16)
  | .promote d p => decide (d < 8) && decide (p < 16)
  | .demote d p => decide (d < 8) && decide (p < 16)
  | .replicate d p => decide (d < 8) && decide (p < 16)
  | .inval d p => decide (d < 8) && decide (p < 16)
  | .dispatchStep d => decide (d < 8)
  | .taskComplete d _ => decide (d < 8)
  | .versionCommit d _ => decide (d < 8)
  | .collJoin e _ => decide (e < 128)
  | .collAbsent _ => true
  | .planeSend _ _ => true
  | .planeLanding _ _ _ _ => true
  | .cancelProcess p => decide (p < 256)
  | .senderStop _ _ => true
  | .collComplete _ => true
  | .presetDone p => decide (p < 16)
  | .l2cmdDone d => decide (d < 8)
  | .pgcmdDone d => decide (d < 8)
  | .machine parts => decide (parts < 65536)
  | .relocation n => decide (n < 8)
  | .programFail n _ => decide (n < 8)
  | .sramError _ _ => true
  | .peerPacket _ _ _ _ _ _ => true
  | .peerlost _ => true
  | .injectWrite n _ => decide (n < 8)
  | .waypartWrite s _ => decide (s < 1536)
  | .tallowWrite p _ => decide (p < 256)
  | .acfgWrite p _ => decide (p < 256)
  | .queueConfigWrite p q _ _ => decide (p < 16) && decide (q < 16)
  | .sqheadWrite p _ => decide (p < 16)
  | .msgheadWrite p _ => decide (p < 16)
  | .start p _ => decide (p < 16)
  | .preset p _ => decide (p < 16)
  | .registerWrite priv p _ _ => decide (priv ≤ 2) && decide (p < 16)
  | .hostRead ld _ _ => decide (ld ≤ 16)
  | .hostWrite ld _ _ => decide (ld ≤ 16)
  | .hostCoatRead ld _ => decide (ld ≤ 16)
  | .hostCoatWrite ld _ _ => decide (ld ≤ 16)
  | .getEventRecords ld => decide (ld ≤ 16)
  | .getFwInfo ld => decide (ld ≤ 16)
  | .transferFw ld _ => decide (ld ≤ 16)
  | .activateFw ld => decide (ld ≤ 16)
  | .getSupportedLogs ld => decide (ld ≤ 16)
  | .getLog ld _ => decide (ld ≤ 16)
  | .identifyMemoryDevice ld => decide (ld ≤ 16)
  | .getHealthInfo ld => decide (ld ≤ 16)
  | .attest ld _ => decide (ld ≤ 16)
  | .getidkey ld => decide (ld ≤ 16)
  | .extend ld _ _ => decide (ld ≤ 16)
  | .preempt ld _ => decide (ld ≤ 16)
  | .wreset ld => decide (ld ≤ 16)
  | .powercap ld _ => decide (ld ≤ 16)
  | .setTimestamp ld _ => decide (ld ≤ 16)
  | .unsupported ld _ => decide (ld ≤ 16)
  | .doubleRefreshEntry p => decide (p < 256)
  | .doubleRefreshExit p => decide (p < 256)
  | .faceThrottle f => decide (f < 32)
  | .faceThrottleEnd f => decide (f < 32)
  | .droop f => decide (f < 32)
  | .conventionalReset => true
  | .coldStart => true
  | .startTimeout => true
  | .thermtrip => true
  | .powerCheck => true
  | .logAppend => true
  | .startok => true

end Sys2Proof
end

