-- ==== Sys2Proof/Decode.lean ====
section
/-! DEFINITION. The decoder of the eight slot words, total, rejecting by name, and the encoder.

R22: the zero word is NOP; opcode 0x00 otherwise, an opcode that the slot's map does not assign, a nonzero
reserved field and a field outside its limit are ILLOP; 0xFF is PFX in slots 0 to 6. R23, R36: the CT word has
a class and an op in place of an opcode. The rows below are those of R44 and R46 to R52. -/

namespace Sys2Proof

/-- Why a slot word is no instruction; every reason is the trap ILLOP (R22, R23). -/
inductive DecodeError where
  /-- opcode 0x00 with another bit set (R22 step 2) -/
  | zeroOpcode
  /-- an opcode, class or op that the slot's map does not assign (R22 step 4, R23) -/
  | unassigned
  /-- a field that must be zero is not (R22 step 5) -/
  | reservedField
  /-- a field is outside the limit its description gives (R22 step 5, R45) -/
  | badLimit
  deriving DecidableEq, Repr

/-- Bits `lo` up of a slot word, `n` of them. -/
def fld (w : BitVec 32) (lo n : Nat) : BitVec n := w.extractLsb' lo n

/-- One row of an opcode map: the bits under `mask` must be `pat`, and the instruction keeps its limits. -/
def decodeRow (mask pat w : BitVec 32) (i : Instr) : Except DecodeError Instr :=
  if w &&& mask = pat then (if i.wf then .ok i else .error .badLimit) else .error .reservedField

/-- The opcodes that both SA and SB decode (R44). -/
def decodeScalar (op : Nat) (w : BitVec 32) : Except DecodeError Instr :=
  match op with
  | 0x01 => decodeRow 0xFF00001F 0x01000000 w (.add (fld w 19 5) (fld w 14 5) (fld w 9 5) (fld w 5 4))
  | 0x02 => decodeRow 0xFF000000 0x02000000 w (.addi (fld w 19 5) (fld w 14 5) (fld w 0 14))
  | 0x03 => decodeRow 0xFF00001F 0x03000000 w (.sub (fld w 19 5) (fld w 14 5) (fld w 9 5) (fld w 5 4))
  | 0x04 => decodeRow 0xFF00001F 0x04000000 w (.mul (fld w 19 5) (fld w 14 5) (fld w 9 5) (fld w 5 4))
  | 0x05 => decodeRow 0xFF00001F 0x05000000 w (.mulh (fld w 19 5) (fld w 14 5) (fld w 9 5) (fld w 5 4))
  | 0x06 => decodeRow 0xFF00001F 0x06000000 w (.mulhu (fld w 19 5) (fld w 14 5) (fld w 9 5) (fld w 5 4))
  | 0x07 => decodeRow 0xFF00001F 0x07000000 w (.div (fld w 19 5) (fld w 14 5) (fld w 9 5) (fld w 5 4))
  | 0x08 => decodeRow 0xFF00001F 0x08000000 w (.divu (fld w 19 5) (fld w 14 5) (fld w 9 5) (fld w 5 4))
  | 0x09 => decodeRow 0xFF00001F 0x09000000 w (.rem (fld w 19 5) (fld w 14 5) (fld w 9 5) (fld w 5 4))
  | 0x0A => decodeRow 0xFF00001F 0x0A000000 w (.remu (fld w 19 5) (fld w 14 5) (fld w 9 5) (fld w 5 4))
  | 0x0B => decodeRow 0xFF00001F 0x0B000000 w (.and (fld w 19 5) (fld w 14 5) (fld w 9 5) (fld w 5 4))
  | 0x0C => decodeRow 0xFF000000 0x0C000000 w (.andi (fld w 19 5) (fld w 14 5) (fld w 0 14))
  | 0x0D => decodeRow 0xFF00001F 0x0D000000 w (.or (fld w 19 5) (fld w 14 5) (fld w 9 5) (fld w 5 4))
  | 0x0E => decodeRow 0xFF000000 0x0E000000 w (.ori (fld w 19 5) (fld w 14 5) (fld w 0 14))
  | 0x0F => decodeRow 0xFF00001F 0x0F000000 w (.xor (fld w 19 5) (fld w 14 5) (fld w 9 5) (fld w 5 4))
  | 0x10 => decodeRow 0xFF000000 0x10000000 w (.xori (fld w 19 5) (fld w 14 5) (fld w 0 14))
  | 0x11 => decodeRow 0xFF00001F 0x11000000 w (.shl (fld w 19 5) (fld w 14 5) (fld w 9 5) (fld w 5 4))
  | 0x12 => decodeRow 0xFF000000 0x12000000 w (.shli (fld w 19 5) (fld w 14 5) (fld w 0 14))
  | 0x13 => decodeRow 0xFF00001F 0x13000000 w (.shr (fld w 19 5) (fld w 14 5) (fld w 9 5) (fld w 5 4))
  | 0x14 => decodeRow 0xFF000000 0x14000000 w (.shri (fld w 19 5) (fld w 14 5) (fld w 0 14))
  | 0x15 => decodeRow 0xFF00001F 0x15000000 w (.sra (fld w 19 5) (fld w 14 5) (fld w 9 5) (fld w 5 4))
  | 0x16 => decodeRow 0xFF000000 0x16000000 w (.srai (fld w 19 5) (fld w 14 5) (fld w 0 14))
  | 0x17 => decodeRow 0xFF00001F 0x17000000 w (.min (fld w 19 5) (fld w 14 5) (fld w 9 5) (fld w 5 4))
  | 0x18 => decodeRow 0xFF00001F 0x18000000 w (.max (fld w 19 5) (fld w 14 5) (fld w 9 5) (fld w 5 4))
  | 0x19 => decodeRow 0xFF00001F 0x19000000 w (.minu (fld w 19 5) (fld w 14 5) (fld w 9 5) (fld w 5 4))
  | 0x1A => decodeRow 0xFF00001F 0x1A000000 w (.maxu (fld w 19 5) (fld w 14 5) (fld w 9 5) (fld w 5 4))
  | 0x1B => decodeRow 0xFF003E1F 0x1B000000 w (.clz (fld w 19 5) (fld w 14 5) (fld w 5 4))
  | 0x1C => decodeRow 0xFF003E1F 0x1C000000 w (.popc (fld w 19 5) (fld w 14 5) (fld w 5 4))
  | 0x1D => decodeRow 0xFF00001F 0x1D000000 w (.clmul (fld w 19 5) (fld w 14 5) (fld w 9 5) (fld w 5 4))
  | 0x1E => decodeRow 0xFF00001F 0x1E000000 w (.clmulh (fld w 19 5) (fld w 14 5) (fld w 9 5) (fld w 5 4))
  | 0x1F => decodeRow 0xFF00001F 0x1F000000 w (.sel (fld w 19 5) (fld w 14 5) (fld w 9 5) (fld w 5 4))
  | 0x20 => decodeRow 0xFF800000 0x20000000 w (.cmp (fld w 19 4) (fld w 14 5) (fld w 9 5) (fld w 5 4) (fld w 0 5))
  | 0x21 => decodeRow 0xFF000000 0x21000000 w (.cmpi (fld w 20 4) (fld w 17 3) (fld w 12 5) (fld w 0 12))
  | 0x22 => decodeRow 0xFF000000 0x22000000 w (.li (fld w 19 5) (fld w 0 19))
  | 0x23 => decodeRow 0xFF842000 0x23000000 w (.plog (fld w 19 4) (fld w 14 4) (fld w 9 4) (fld w 5 4) (fld w 0 5))
  | 0x24 => decodeRow 0xFF07FE1F 0x24000000 w (.pget (fld w 19 5) (fld w 5 4))
  | 0x25 => decodeRow 0xFFF83E1F 0x25000000 w (.pput (fld w 14 5) (fld w 5 4))
  | 0x26 => decodeRow 0xFF07F000 0x26000000 w (.mfsr (fld w 19 5) (fld w 0 12))
  | 0x27 => decodeRow 0xFFF83000 0x27000000 w (.mtsr (fld w 14 5) (fld w 0 12))
  | 0x28 => decodeRow 0xFF00001F 0x28000000 w (.fadds (fld w 19 5) (fld w 14 5) (fld w 9 5) (fld w 5 4))
  | 0x29 => decodeRow 0xFF00001F 0x29000000 w (.fsubs (fld w 19 5) (fld w 14 5) (fld w 9 5) (fld w 5 4))
  | 0x2A => decodeRow 0xFF00001F 0x2A000000 w (.fmuls (fld w 19 5) (fld w 14 5) (fld w 9 5) (fld w 5 4))
  | 0x2B => decodeRow 0xFF00001F 0x2B000000 w (.fmas (fld w 19 5) (fld w 14 5) (fld w 9 5) (fld w 5 4))
  | 0x2C => decodeRow 0xFF00001F 0x2C000000 w (.fmins (fld w 19 5) (fld w 14 5) (fld w 9 5) (fld w 5 4))
  | 0x2D => decodeRow 0xFF00001F 0x2D000000 w (.fmaxs (fld w 19 5) (fld w 14 5) (fld w 9 5) (fld w 5 4))
  | 0x2E => decodeRow 0xFF800000 0x2E000000 w (.fcmps (fld w 19 4) (fld w 14 5) (fld w 9 5) (fld w 5 4) (fld w 0 5))
  | 0x2F => decodeRow 0xFF003E00 0x2F000000 w (.fcvts (fld w 19 5) (fld w 14 5) (fld w 5 4) (fld w 0 5))
  | _ => .error .unassigned

/-- The opcodes valid in SB only (R44). -/
def decodeBranch (op : Nat) (w : BitVec 32) : Except DecodeError Instr :=
  match op with
  | 0x40 => decodeRow 0xFF000000 0x40000000 w (.br (fld w 20 4) (fld w 0 20))
  | 0x41 => decodeRow 0xFF000000 0x41000000 w (.call (fld w 20 4) (fld w 0 20))
  | 0x42 => decodeRow 0xFFF83E1F 0x42000000 w (.jr (fld w 14 5) (fld w 5 4))
  | 0x43 => decodeRow 0xFF000000 0x43000000 w (.loop (fld w 20 4) (fld w 0 20))
  | 0x44 => decodeRow 0xFFF8001F 0x44000000 w (.loopset (fld w 14 5) (fld w 9 5) (fld w 5 4))
  | 0x45 => decodeRow 0xFF07C000 0x45000000 w (.loopseti (fld w 19 5) (fld w 0 14))
  | _ => .error .unassigned

/-- Slot VA (R46). -/
def decodeVA (op : Nat) (w : BitVec 32) : Except DecodeError Instr :=
  match op with
  | 0x01 => decodeRow 0xFF000003 0x01000000 w (.vaddF (fld w 20 4) (fld w 14 6) (fld w 8 6) (fld w 2 6))
  | 0x02 => decodeRow 0xFF000003 0x02000000 w (.vsubF (fld w 20 4) (fld w 14 6) (fld w 8 6) (fld w 2 6))
  | 0x03 => decodeRow 0xFF000003 0x03000000 w (.vmulF (fld w 20 4) (fld w 14 6) (fld w 8 6) (fld w 2 6))
  | 0x04 => decodeRow 0xFF000003 0x04000000 w (.vfmaF (fld w 20 4) (fld w 14 6) (fld w 8 6) (fld w 2 6))
  | 0x05 => decodeRow 0xFF000003 0x05000000 w (.vmaxF (fld w 20 4) (fld w 14 6) (fld w 8 6) (fld w 2 6))
  | 0x06 => decodeRow 0xFF000003 0x06000000 w (.vminF (fld w 20 4) (fld w 14 6) (fld w 8 6) (fld w 2 6))
  | 0x07 => decodeRow 0xFF0000FC 0x07000000 w (.vabsF (fld w 20 4) (fld w 14 6) (fld w 8 6) (fld w 0 2))
  | 0x08 => decodeRow 0xFF000003 0x08000000 w (.vexp2 (fld w 20 4) (fld w 14 6) (fld w 8 6) (fld w 2 6))
  | 0x09 => decodeRow 0xFF0000FF 0x09000000 w (.vrcp (fld w 20 4) (fld w 14 6) (fld w 8 6))
  | 0x0A => decodeRow 0xFF0000FF 0x0A000000 w (.vrsq (fld w 20 4) (fld w 14 6) (fld w 8 6))
  | 0x0B => decodeRow 0xFF000003 0x0B000000 w (.vaddI (fld w 20 4) (fld w 14 6) (fld w 8 6) (fld w 2 6))
  | 0x0C => decodeRow 0xFF000003 0x0C000000 w (.vsubI (fld w 20 4) (fld w 14 6) (fld w 8 6) (fld w 2 6))
  | 0x0D => decodeRow 0xFF000003 0x0D000000 w (.vmulI (fld w 20 4) (fld w 14 6) (fld w 8 6) (fld w 2 6))
  | 0x0E => decodeRow 0xFF000003 0x0E000000 w (.vmaxI (fld w 20 4) (fld w 14 6) (fld w 8 6) (fld w 2 6))
  | 0x0F => decodeRow 0xFF000003 0x0F000000 w (.vminI (fld w 20 4) (fld w 14 6) (fld w 8 6) (fld w 2 6))
  | 0x10 => decodeRow 0xFF000003 0x10000000 w (.vand (fld w 20 4) (fld w 14 6) (fld w 8 6) (fld w 2 6))
  | 0x11 => decodeRow 0xFF000003 0x11000000 w (.vor (fld w 20 4) (fld w 14 6) (fld w 8 6) (fld w 2 6))
  | 0x12 => decodeRow 0xFF000003 0x12000000 w (.vxor (fld w 20 4) (fld w 14 6) (fld w 8 6) (fld w 2 6))
  | 0x13 => decodeRow 0xFF000003 0x13000000 w (.vshl (fld w 20 4) (fld w 14 6) (fld w 8 6) (fld w 2 6))
  | 0x14 => decodeRow 0xFF000003 0x14000000 w (.vshr (fld w 20 4) (fld w 14 6) (fld w 8 6) (fld w 2 6))
  | 0x15 => decodeRow 0xFF000003 0x15000000 w (.vsra (fld w 20 4) (fld w 14 6) (fld w 8 6) (fld w 2 6))
  | 0x16 => decodeRow 0xFF000000 0x16000000 w (.vcmpf (fld w 20 4) (fld w 14 6) (fld w 8 6) (fld w 2 6) (fld w 0 2))
  | 0x17 => decodeRow 0xFF000000 0x17000000 w (.vcmpi (fld w 20 4) (fld w 14 6) (fld w 8 6) (fld w 2 6) (fld w 0 2))
  | 0x18 => decodeRow 0xFF000003 0x18000000 w (.vsel (fld w 20 4) (fld w 14 6) (fld w 8 6) (fld w 2 6))
  | 0x19 => decodeRow 0xFF000003 0x19000000 w (.vdot4 (fld w 20 4) (fld w 14 6) (fld w 8 6) (fld w 2 6))
  | 0x1A => decodeRow 0xFF000003 0x1A000000 w (.vdot4u (fld w 20 4) (fld w 14 6) (fld w 8 6) (fld w 2 6))
  | 0x1B => decodeRow 0xFF000007 0x1B000000 w (.vaddsF (fld w 20 4) (fld w 14 6) (fld w 8 6) (fld w 3 5))
  | 0x1C => decodeRow 0xFF000007 0x1C000000 w (.vmulsF (fld w 20 4) (fld w 14 6) (fld w 8 6) (fld w 3 5))
  | 0x1D => decodeRow 0xFF000007 0x1D000000 w (.vfmasF (fld w 20 4) (fld w 14 6) (fld w 8 6) (fld w 3 5))
  | 0x1E => decodeRow 0xFF000000 0x1E000000 w (.vcmpu (fld w 20 4) (fld w 14 6) (fld w 8 6) (fld w 2 6) (fld w 0 2))
  | 0x1F => decodeRow 0xFF000000 0x1F000000 w (.vaddiI (fld w 20 4) (fld w 14 6) (fld w 8 6) (fld w 0 8))
  | 0x20 => decodeRow 0xFF000000 0x20000000 w (.vshifti (fld w 20 4) (fld w 14 6) (fld w 8 6) (fld w 6 2) (fld w 0 6))
  | _ => .error .unassigned

/-- Slot VB (R47). -/
def decodeVB (op : Nat) (w : BitVec 32) : Except DecodeError Instr :=
  match op with
  | 0x01 => decodeRow 0xFF0000FF 0x01000000 w (.vmov (fld w 20 4) (fld w 14 6) (fld w 8 6))
  | 0x02 => decodeRow 0xFF003F07 0x02000000 w (.vsplat (fld w 20 4) (fld w 14 6) (fld w 3 5))
  | 0x03 => decodeRow 0xFF003FFC 0x03000000 w (.vidx (fld w 20 4) (fld w 14 6) (fld w 0 2))
  | 0x04 => decodeRow 0xFF000000 0x04000000 w (.rrot (fld w 20 4) (fld w 14 6) (fld w 8 6) (fld w 0 8))
  | 0x05 => decodeRow 0xFF000000 0x05000000 w (.crot (fld w 20 4) (fld w 14 6) (fld w 8 6) (fld w 0 8))
  | 0x06 => decodeRow 0xFF000000 0x06000000 w (.rbcst (fld w 20 4) (fld w 14 6) (fld w 8 6) (fld w 0 8))
  | 0x07 => decodeRow 0xFF000000 0x07000000 w (.cbcst (fld w 20 4) (fld w 14 6) (fld w 8 6) (fld w 0 8))
  | 0x08 => decodeRow 0xFF000003 0x08000000 w (.rred (fld w 20 4) (fld w 14 6) (fld w 8 6) (fld w 2 6))
  | 0x09 => decodeRow 0xFF000003 0x09000000 w (.cred (fld w 20 4) (fld w 14 6) (fld w 8 6) (fld w 2 6))
  | 0x0A => decodeRow 0xFF000003 0x0A000000 w (.rscan (fld w 20 4) (fld w 14 6) (fld w 8 6) (fld w 2 6))
  | 0x0B => decodeRow 0xFF000000 0x0B000000 w (.vcvt (fld w 20 4) (fld w 14 6) (fld w 8 6) (fld w 0 8))
  | 0x0C => decodeRow 0xFF004000 0x0C000000 w (.vget (fld w 20 4) (fld w 15 5) (fld w 8 6) (fld w 0 8))
  | 0x0D => decodeRow 0xFF000100 0x0D000000 w (.vput (fld w 20 4) (fld w 14 6) (fld w 9 5) (fld w 0 8))
  | 0x0E => decodeRow 0xFF000007 0x0E000000 w (.rrotv (fld w 20 4) (fld w 14 6) (fld w 8 6) (fld w 3 5))
  | _ => .error .unassigned

/-- Slot MEM (R48). -/
def decodeMEM (op : Nat) (w : BitVec 32) : Except DecodeError Instr :=
  match op with
  | 0x01 => decodeRow 0xFF000000 0x01000000 w (.vld (fld w 20 4) (fld w 14 6) (fld w 9 5) (fld w 5 4) (fld w 0 5))
  | 0x02 => decodeRow 0xFF000000 0x02000000 w (.vst (fld w 20 4) (fld w 14 6) (fld w 9 5) (fld w 5 4) (fld w 0 5))
  | 0x03 => decodeRow 0xFF080000 0x03000000 w (.vldt (fld w 20 4) (fld w 14 5) (fld w 9 5) (fld w 5 4) (fld w 0 5))
  | 0x04 => decodeRow 0xFF0001FF 0x04000000 w (.vland (fld w 20 4) (fld w 14 6) (fld w 9 5))
  | 0x05 => decodeRow 0xFF000000 0x05000000 w (.sld (fld w 20 4) (fld w 15 5) (fld w 10 5) (fld w 8 2) (fld w 7 1) (fld w 0 7))
  | 0x06 => decodeRow 0xFF000080 0x06000000 w (.sst (fld w 20 4) (fld w 15 5) (fld w 10 5) (fld w 8 2) (fld w 0 7))
  | 0x07 => decodeRow 0xFF000383 0x07000000 w (.slda (fld w 20 4) (fld w 15 5) (fld w 10 5) (fld w 5 2) (fld w 2 3))
  | 0x08 => decodeRow 0xFF000383 0x08000000 w (.sstr (fld w 20 4) (fld w 15 5) (fld w 10 5) (fld w 5 2) (fld w 2 3))
  | 0x09 => decodeRow 0xFF000000 0x09000000 w (.ctld (fld w 20 4) (fld w 14 6) (fld w 9 5) (fld w 5 4) (fld w 0 5))
  | 0x0A => decodeRow 0xFF000000 0x0A000000 w (.ctst (fld w 20 4) (fld w 14 6) (fld w 9 5) (fld w 5 4) (fld w 0 5))
  | 0x0B => decodeRow 0xFF0F83FF 0x0B000000 w (.watch (fld w 20 4) (fld w 10 5))
  | 0x0C => decodeRow 0xFF0003FF 0x0C000000 w (.snooze (fld w 20 4) (fld w 15 5) (fld w 10 5))
  | 0x0D => decodeRow 0xFF0FFFE3 0x0D000000 w (.mark (fld w 20 4) (fld w 2 3))
  | 0x0E => decodeRow 0xFF000003 0x0E000000 w (.cas (fld w 20 4) (fld w 15 5) (fld w 10 5) (fld w 5 5) (fld w 2 3))
  | 0x10 => decodeRow 0xFF000003 0x10000000 w (.amoadd (fld w 20 4) (fld w 15 5) (fld w 10 5) (fld w 5 5) (fld w 2 3))
  | 0x11 => decodeRow 0xFF000003 0x11000000 w (.amoand (fld w 20 4) (fld w 15 5) (fld w 10 5) (fld w 5 5) (fld w 2 3))
  | 0x12 => decodeRow 0xFF000003 0x12000000 w (.amoor (fld w 20 4) (fld w 15 5) (fld w 10 5) (fld w 5 5) (fld w 2 3))
  | 0x13 => decodeRow 0xFF000003 0x13000000 w (.amoxor (fld w 20 4) (fld w 15 5) (fld w 10 5) (fld w 5 5) (fld w 2 3))
  | 0x14 => decodeRow 0xFF000003 0x14000000 w (.amomin (fld w 20 4) (fld w 15 5) (fld w 10 5) (fld w 5 5) (fld w 2 3))
  | 0x15 => decodeRow 0xFF000003 0x15000000 w (.amomax (fld w 20 4) (fld w 15 5) (fld w 10 5) (fld w 5 5) (fld w 2 3))
  | 0x16 => decodeRow 0xFF000003 0x16000000 w (.amominu (fld w 20 4) (fld w 15 5) (fld w 10 5) (fld w 5 5) (fld w 2 3))
  | 0x17 => decodeRow 0xFF000003 0x17000000 w (.amomaxu (fld w 20 4) (fld w 15 5) (fld w 10 5) (fld w 5 5) (fld w 2 3))
  | 0x18 => decodeRow 0xFF000003 0x18000000 w (.amoswap (fld w 20 4) (fld w 15 5) (fld w 10 5) (fld w 5 5) (fld w 2 3))
  | 0x19 => decodeRow 0xFF000003 0x19000000 w (.amofadd (fld w 20 4) (fld w 15 5) (fld w 10 5) (fld w 5 5) (fld w 2 3))
  | 0x1A => decodeRow 0xFF000003 0x1A000000 w (.amofmin (fld w 20 4) (fld w 15 5) (fld w 10 5) (fld w 5 5) (fld w 2 3))
  | 0x1B => decodeRow 0xFF000003 0x1B000000 w (.amofmax (fld w 20 4) (fld w 15 5) (fld w 10 5) (fld w 5 5) (fld w 2 3))
  | _ => .error .unassigned

/-- Slot MX (R49). -/
def decodeMX (op : Nat) (w : BitVec 32) : Except DecodeError Instr :=
  match op with
  | 0x01 => decodeRow 0xFF00007F 0x01000000 w (.mma (fld w 20 4) (fld w 19 1) (fld w 17 2) (fld w 12 5) (fld w 11 1) (fld w 7 4))
  | 0x02 => decodeRow 0xFF06007F 0x02000000 w (.mref (fld w 20 4) (fld w 19 1) (fld w 12 5) (fld w 11 1) (fld w 7 4))
  | 0x03 => decodeRow 0xFF06007F 0x03000000 w (.mlut (fld w 20 4) (fld w 19 1) (fld w 12 5) (fld w 11 1) (fld w 7 4))
  | 0x04 => decodeRow 0xFF07FFFF 0x04000000 w (.mzero (fld w 20 4) (fld w 19 1))
  | 0x05 => decodeRow 0xFF06007F 0x05000000 w (.mldacc (fld w 20 4) (fld w 19 1) (fld w 12 5) (fld w 11 1) (fld w 7 4))
  | 0x06 => decodeRow 0xFF06007F 0x06000000 w (.mdrain (fld w 20 4) (fld w 19 1) (fld w 12 5) (fld w 11 1) (fld w 7 4))
  | 0x07 => decodeRow 0xFF0E0FFF 0x07000000 w (.mfmt (fld w 20 4) (fld w 12 5))
  | 0x08 => decodeRow 0xFF0E0FFF 0x08000000 w (.mprog (fld w 20 4) (fld w 12 5))
  | 0x09 => decodeRow 0xFF0FFFFF 0x09000000 w (.mresume (fld w 20 4))
  | 0x0A => decodeRow 0xFF0E007F 0x0A000000 w (.wswap (fld w 20 4) (fld w 12 5) (fld w 11 1) (fld w 7 4))
  | _ => .error .unassigned

/-- Slot XC (R50). -/
def decodeXC (op : Nat) (w : BitVec 32) : Except DecodeError Instr :=
  match op with
  | 0x01 => decodeRow 0xFF0000FF 0x01000000 w (.xtrn (fld w 20 4) (fld w 14 6) (fld w 8 6))
  | 0x02 => decodeRow 0xFF000000 0x02000000 w (.xcvt (fld w 20 4) (fld w 14 6) (fld w 8 6) (fld w 0 8))
  | 0x03 => decodeRow 0xFF000003 0x03000000 w (.xpls (fld w 20 4) (fld w 14 6) (fld w 8 6) (fld w 2 6))
  | 0x04 => decodeRow 0xFF000003 0x04000000 w (.xplm (fld w 20 4) (fld w 14 6) (fld w 8 6) (fld w 2 6))
  | 0x05 => decodeRow 0xFF0FC1FF 0x05000000 w (.xfmt (fld w 20 4) (fld w 9 5))
  | 0x10 => decodeRow 0xFF000000 0x10000000 w (.cpy (fld w 20 4) (fld w 14 6) (fld w 9 5) (fld w 0 9))
  | 0x11 => decodeRow 0xFF000000 0x11000000 w (.cpysl (fld w 20 4) (fld w 14 6) (fld w 9 5) (fld w 0 9))
  | 0x12 => decodeRow 0xFF0001FF 0x12000000 w (.cpymc (fld w 20 4) (fld w 14 6) (fld w 9 5))
  | 0x13 => decodeRow 0xFF003FFF 0x13000000 w (.cpycan (fld w 20 4) (fld w 14 6))
  | 0x18 => decodeRow 0xFF0001FC 0x18000000 w (.coll (fld w 20 4) (fld w 14 6) (fld w 9 5) (fld w 0 2))
  | 0x19 => decodeRow 0xFF0801FF 0x19000000 w (.pcnt (fld w 20 4) (fld w 14 5) (fld w 9 5))
  | 0x1A =>
    if fld w 0 9 = 0 then decodeRow 0xFF0FC1FF 0x1A000000 w (.pcancel (fld w 20 4) (fld w 9 5))
    else if fld w 0 9 = 1 then decodeRow 0xFF003FFF 0x1A000001 w (.pcancelTag (fld w 20 4) (fld w 14 6))
    else .error .badLimit
  | 0x20 => decodeRow 0xFF0FC000 0x20000000 w (.whfetch (fld w 20 4) (fld w 9 5) (fld w 0 9))
  | 0x21 => decodeRow 0xFF083E00 0x21000000 w (.whstat (fld w 20 4) (fld w 14 5) (fld w 0 9))
  | 0x22 => decodeRow 0xFF0FFE00 0x22000000 w (.whdrop (fld w 20 4) (fld w 0 9))
  | _ => .error .unassigned

/-- The CT word, by class [27:24] and op [23:20] (R36, R52); SELF, W and B split one op into two rows. -/
def decodeCT (w : BitVec 32) : Except DecodeError Instr :=
  if w = 0 then .ok .nop
  else match (fld w 24 4).toNat, (fld w 20 4).toNat with
  | 0, _ => decodeRow 0x0F0000FF 0x00000000 w (.sync (fld w 28 4) (fld w 8 16))
  | 1, 0 =>
    if fld w 7 1 = 0 then decodeRow 0x0FF000FF 0x01000000 w (.fset (fld w 28 4) (fld w 17 3) (fld w 13 4) (fld w 8 5))
    else decodeRow 0x0FF01FFF 0x01000080 w (.fsetSelf (fld w 28 4) (fld w 17 3) (fld w 13 4))
  | 1, 1 =>
    if fld w 7 1 = 0 then decodeRow 0x0FFE00FF 0x01100000 w (.fclr (fld w 28 4) (fld w 13 4) (fld w 8 5))
    else decodeRow 0x0FFE1FFF 0x01100080 w (.fclrSelf (fld w 28 4) (fld w 13 4))
  | 2, 0 => decodeRow 0x0FF07FFF 0x02000000 w (.waitany (fld w 28 4) (fld w 15 5))
  | 2, 1 => decodeRow 0x0FF07FFF 0x02100000 w (.waitall (fld w 28 4) (fld w 15 5))
  | 2, 2 => decodeRow 0x0FF003FF 0x02200000 w (.ffr (fld w 28 4) (fld w 15 5) (fld w 10 5))
  | 2, 3 => decodeRow 0x0FF007FF 0x02300000 w (.pwait (fld w 28 4) (fld w 15 5) (fld w 11 4))
  | 2, 4 => decodeRow 0x0FF0000F 0x02400000 w (.whwait (fld w 28 4) (fld w 8 12) (fld w 4 4))
  | 3, 0 => decodeRow 0x0FF00FFF 0x03000000 w (.barrive (fld w 28 4) (fld w 15 5) (fld w 12 3))
  | 3, 1 => decodeRow 0x0FF0001F 0x03100000 w (.barwait (fld w 28 4) (fld w 15 5) (fld w 10 5) (fld w 5 5))
  | 4, 0 => decodeRow 0x0FF00000 0x04000000 w (.slk (fld w 28 4) (fld w 0 20))
  | 5, 0 => decodeRow 0x0FF003FF 0x05000000 w (.book (fld w 28 4) (fld w 15 5) (fld w 10 5))
  | 5, 1 => decodeRow 0x0FFFFFFF 0x05100000 w (.unbook (fld w 28 4))
  | 5, 2 => decodeRow 0x0FF003FF 0x05200000 w (.calq (fld w 28 4) (fld w 15 5) (fld w 10 5))
  | 6, 0 =>
    if fld w 5 1 = 0 then decodeRow 0x0FF0003F 0x06000000 w (.spawn (fld w 28 4) (fld w 15 5) (fld w 10 5) (fld w 6 4))
    else decodeRow 0x0FF0003F 0x06000020 w (.spawnW (fld w 28 4) (fld w 15 5) (fld w 10 5) (fld w 6 4))
  | 6, 1 => decodeRow 0x0FFFFFFF 0x06100000 w (.tdone (fld w 28 4))
  | 6, 2 => decodeRow 0x0FFFFFFF 0x06200000 w (.tyield (fld w 28 4))
  | 7, 0 =>
    if fld w 16 1 = 0 then decodeRow 0x0FFF0000 0x07000000 w (.trap (fld w 28 4) (fld w 0 16))
    else decodeRow 0x0FFF0000 0x07010000 w (.trapBrk (fld w 28 4) (fld w 0 16))
  | 7, 1 => decodeRow 0x0FF07FFF 0x07100000 w (.rft (fld w 28 4) (fld w 15 5))
  | 7, 2 => decodeRow 0x0FFFFFFF 0x07200000 w (.halt (fld w 28 4))
  | 8, 0 => decodeRow 0x0FF003FF 0x08000000 w (.ctxrun (fld w 28 4) (fld w 15 5) (fld w 10 5))
  | 8, 1 => decodeRow 0x0FF07FFF 0x08100000 w (.ctxstop (fld w 28 4) (fld w 15 5))
  | _, _ => .error .unassigned

/-- The word in slot `k` of a bundle, 0 SA to 7 CT (R20, R22, R23). -/
def decodeSlot (k : Nat) (w : BitVec 32) : Except DecodeError Instr :=
  if k = 7 then decodeCT w
  else if w = 0 then .ok .nop
  else
    let op := (fld w 24 8).toNat
    if op = 0 then .error .zeroOpcode
    else if op = 0xFF then .ok (.pfx (fld w 0 24))
    else match k with
      | 0 => decodeScalar op w
      | 1 => if 0x40 ≤ op ∧ op ≤ 0x45 then decodeBranch op w else decodeScalar op w
      | 2 => decodeVA op w
      | 3 => decodeVB op w
      | 4 => decodeMEM op w
      | 5 => decodeMX op w
      | 6 => decodeXC op w
      | _ => .error .unassigned

/-- The lowest slot whose map holds the instruction (R20, R81); an event stands in no slot. -/
def Instr.slotOf : Instr → Option Nat
  | .nop => some 0
  | .pfx _ => some 0
  | .add _ _ _ _ => some 0
  | .addi _ _ _ => some 0
  | .sub _ _ _ _ => some 0
  | .mul _ _ _ _ => some 0
  | .mulh _ _ _ _ => some 0
  | .mulhu _ _ _ _ => some 0
  | .div _ _ _ _ => some 0
  | .divu _ _ _ _ => some 0
  | .rem _ _ _ _ => some 0
  | .remu _ _ _ _ => some 0
  | .and _ _ _ _ => some 0
  | .andi _ _ _ => some 0
  | .or _ _ _ _ => some 0
  | .ori _ _ _ => some 0
  | .xor _ _ _ _ => some 0
  | .xori _ _ _ => some 0
  | .shl _ _ _ _ => some 0
  | .shli _ _ _ => some 0
  | .shr _ _ _ _ => some 0
  | .shri _ _ _ => some 0
  | .sra _ _ _ _ => some 0
  | .srai _ _ _ => some 0
  | .min _ _ _ _ => some 0
  | .max _ _ _ _ => some 0
  | .minu _ _ _ _ => some 0
  | .maxu _ _ _ _ => some 0
  | .clz _ _ _ => some 0
  | .popc _ _ _ => some 0
  | .clmul _ _ _ _ => some 0
  | .clmulh _ _ _ _ => some 0
  | .sel _ _ _ _ => some 0
  | .cmp _ _ _ _ _ => some 0
  | .cmpi _ _ _ _ => some 0
  | .li _ _ => some 0
  | .plog _ _ _ _ _ => some 0
  | .pget _ _ => some 0
  | .pput _ _ => some 0
  | .mfsr _ _ => some 0
  | .mtsr _ _ => some 0
  | .fadds _ _ _ _ => some 0
  | .fsubs _ _ _ _ => some 0
  | .fmuls _ _ _ _ => some 0
  | .fmas _ _ _ _ => some 0
  | .fmins _ _ _ _ => some 0
  | .fmaxs _ _ _ _ => some 0
  | .fcmps _ _ _ _ _ => some 0
  | .fcvts _ _ _ _ => some 0
  | .br _ _ => some 1
  | .call _ _ => some 1
  | .jr _ _ => some 1
  | .loop _ _ => some 1
  | .loopset _ _ _ => some 1
  | .loopseti _ _ => some 1
  | .vaddF _ _ _ _ => some 2
  | .vsubF _ _ _ _ => some 2
  | .vmulF _ _ _ _ => some 2
  | .vfmaF _ _ _ _ => some 2
  | .vmaxF _ _ _ _ => some 2
  | .vminF _ _ _ _ => some 2
  | .vabsF _ _ _ _ => some 2
  | .vexp2 _ _ _ _ => some 2
  | .vrcp _ _ _ => some 2
  | .vrsq _ _ _ => some 2
  | .vaddI _ _ _ _ => some 2
  | .vsubI _ _ _ _ => some 2
  | .vmulI _ _ _ _ => some 2
  | .vmaxI _ _ _ _ => some 2
  | .vminI _ _ _ _ => some 2
  | .vand _ _ _ _ => some 2
  | .vor _ _ _ _ => some 2
  | .vxor _ _ _ _ => some 2
  | .vshl _ _ _ _ => some 2
  | .vshr _ _ _ _ => some 2
  | .vsra _ _ _ _ => some 2
  | .vcmpf _ _ _ _ _ => some 2
  | .vcmpi _ _ _ _ _ => some 2
  | .vsel _ _ _ _ => some 2
  | .vdot4 _ _ _ _ => some 2
  | .vdot4u _ _ _ _ => some 2
  | .vaddsF _ _ _ _ => some 2
  | .vmulsF _ _ _ _ => some 2
  | .vfmasF _ _ _ _ => some 2
  | .vcmpu _ _ _ _ _ => some 2
  | .vaddiI _ _ _ _ => some 2
  | .vshifti _ _ _ _ _ => some 2
  | .vmov _ _ _ => some 3
  | .vsplat _ _ _ => some 3
  | .vidx _ _ _ => some 3
  | .rrot _ _ _ _ => some 3
  | .crot _ _ _ _ => some 3
  | .rbcst _ _ _ _ => some 3
  | .cbcst _ _ _ _ => some 3
  | .rred _ _ _ _ => some 3
  | .cred _ _ _ _ => some 3
  | .rscan _ _ _ _ => some 3
  | .vcvt _ _ _ _ => some 3
  | .vget _ _ _ _ => some 3
  | .vput _ _ _ _ => some 3
  | .rrotv _ _ _ _ => some 3
  | .vld _ _ _ _ _ => some 4
  | .vst _ _ _ _ _ => some 4
  | .vldt _ _ _ _ _ => some 4
  | .vland _ _ _ => some 4
  | .sld _ _ _ _ _ _ => some 4
  | .sst _ _ _ _ _ => some 4
  | .slda _ _ _ _ _ => some 4
  | .sstr _ _ _ _ _ => some 4
  | .ctld _ _ _ _ _ => some 4
  | .ctst _ _ _ _ _ => some 4
  | .watch _ _ => some 4
  | .snooze _ _ _ => some 4
  | .mark _ _ => some 4
  | .cas _ _ _ _ _ => some 4
  | .amoadd _ _ _ _ _ => some 4
  | .amoand _ _ _ _ _ => some 4
  | .amoor _ _ _ _ _ => some 4
  | .amoxor _ _ _ _ _ => some 4
  | .amomin _ _ _ _ _ => some 4
  | .amomax _ _ _ _ _ => some 4
  | .amominu _ _ _ _ _ => some 4
  | .amomaxu _ _ _ _ _ => some 4
  | .amoswap _ _ _ _ _ => some 4
  | .amofadd _ _ _ _ _ => some 4
  | .amofmin _ _ _ _ _ => some 4
  | .amofmax _ _ _ _ _ => some 4
  | .mma _ _ _ _ _ _ => some 5
  | .mref _ _ _ _ _ => some 5
  | .mlut _ _ _ _ _ => some 5
  | .mzero _ _ => some 5
  | .mldacc _ _ _ _ _ => some 5
  | .mdrain _ _ _ _ _ => some 5
  | .mfmt _ _ => some 5
  | .mprog _ _ => some 5
  | .mresume _ => some 5
  | .wswap _ _ _ _ => some 5
  | .xtrn _ _ _ => some 6
  | .xcvt _ _ _ _ => some 6
  | .xpls _ _ _ _ => some 6
  | .xplm _ _ _ _ => some 6
  | .xfmt _ _ => some 6
  | .cpy _ _ _ _ => some 6
  | .cpysl _ _ _ _ => some 6
  | .cpymc _ _ _ => some 6
  | .cpycan _ _ => some 6
  | .coll _ _ _ _ => some 6
  | .pcnt _ _ _ => some 6
  | .pcancel _ _ => some 6
  | .pcancelTag _ _ => some 6
  | .whfetch _ _ _ => some 6
  | .whstat _ _ _ => some 6
  | .whdrop _ _ => some 6
  | .sync _ _ => some 7
  | .fset _ _ _ _ => some 7
  | .fsetSelf _ _ _ => some 7
  | .fclr _ _ _ => some 7
  | .fclrSelf _ _ => some 7
  | .waitany _ _ => some 7
  | .waitall _ _ => some 7
  | .ffr _ _ _ => some 7
  | .pwait _ _ _ => some 7
  | .whwait _ _ _ => some 7
  | .barrive _ _ _ => some 7
  | .barwait _ _ _ _ => some 7
  | .slk _ _ => some 7
  | .book _ _ _ => some 7
  | .unbook _ => some 7
  | .calq _ _ _ => some 7
  | .spawn _ _ _ _ => some 7
  | .spawnW _ _ _ _ => some 7
  | .tdone _ => some 7
  | .tyield _ => some 7
  | .trap _ _ => some 7
  | .trapBrk _ _ => some 7
  | .rft _ _ => some 7
  | .halt _ => some 7
  | .ctxrun _ _ _ => some 7
  | .ctxstop _ _ => some 7
  | .contextStop _ _ => none
  | .stopPoint _ => none
  | .resumeStart _ => none
  | .watchdog _ => none
  | .loadResult _ _ => none
  | .icacheFill _ _ => none
  | .vldtLanded _ _ => none
  | .snoozeTimeout _ => none
  | .barwaitTimeout _ => none
  | .tickStart _ => none
  | .admission _ => none
  | .taskStart _ _ => none
  | .issueend _ => none
  | .unbooked _ _ _ => none
  | .slackExhausted _ => none
  | .slipTest _ => none
  | .thaw _ => none
  | .wratioChange _ _ => none
  | .ratioSwitch _ _ => none
  | .arrayStep _ _ => none
  | .macroopComplete _ _ => none
  | .weightSwap _ => none
  | .swapDone _ => none
  | .acctFlush _ => none
  | .copyChunk _ => none
  | .copyComplete _ _ => none
  | .cpymcWrite _ _ => none
  | .handleCommandAccept _ => none
  | .cardStart _ => none
  | .codewordRead _ => none
  | .planeLand _ => none
  | .forwardedRead _ => none
  | .promotion _ => none
  | .promotionDone _ => none
  | .sweep _ => none
  | .demotionDone _ _ => none
  | .epochAdvance _ => none
  | .garbageCollection _ => none
  | .staticWearLevelling _ => none
  | .patrolRead _ => none
  | .waypartDone _ => none
  | .wb _ _ => none
  | .wbinv _ _ => none
  | .inv _ _ => none
  | .maphbm _ _ => none
  | .maphbf _ _ => none
  | .unmap _ _ => none
  | .pin _ _ => none
  | .unpin _ _ => none
  | .promote _ _ => none
  | .demote _ _ => none
  | .replicate _ _ => none
  | .inval _ _ => none
  | .dispatchStep _ => none
  | .taskComplete _ _ => none
  | .versionCommit _ _ => none
  | .collJoin _ _ => none
  | .collAbsent _ => none
  | .planeSend _ _ => none
  | .planeLanding _ _ _ _ => none
  | .cancelProcess _ => none
  | .senderStop _ _ => none
  | .collComplete _ => none
  | .presetDone _ => none
  | .l2cmdDone _ => none
  | .pgcmdDone _ => none
  | .machine _ => none
  | .relocation _ => none
  | .programFail _ _ => none
  | .sramError _ _ => none
  | .peerPacket _ _ _ _ _ _ => none
  | .peerlost _ => none
  | .injectWrite _ _ => none
  | .waypartWrite _ _ => none
  | .tallowWrite _ _ => none
  | .acfgWrite _ _ => none
  | .queueConfigWrite _ _ _ _ => none
  | .sqheadWrite _ _ => none
  | .msgheadWrite _ _ => none
  | .start _ _ => none
  | .preset _ _ => none
  | .registerWrite _ _ _ _ => none
  | .hostRead _ _ _ => none
  | .hostWrite _ _ _ => none
  | .hostCoatRead _ _ => none
  | .hostCoatWrite _ _ _ => none
  | .getEventRecords _ => none
  | .getFwInfo _ => none
  | .transferFw _ _ => none
  | .activateFw _ => none
  | .getSupportedLogs _ => none
  | .getLog _ _ => none
  | .identifyMemoryDevice _ => none
  | .getHealthInfo _ => none
  | .attest _ _ => none
  | .getidkey _ => none
  | .extend _ _ _ => none
  | .preempt _ _ => none
  | .wreset _ => none
  | .powercap _ _ => none
  | .setTimestamp _ _ => none
  | .unsupported _ _ => none
  | .doubleRefreshEntry _ => none
  | .doubleRefreshExit _ => none
  | .faceThrottle _ => none
  | .faceThrottleEnd _ => none
  | .droop _ => none
  | .conventionalReset => none
  | .coldStart => none
  | .startTimeout => none
  | .thermtrip => none
  | .powerCheck => none
  | .logAppend => none
  | .startok => none

/-- The word of an instruction, written from the field layouts of R31 to R36; an event has none. -/
def encode : Instr → BitVec 32
  | .nop => 0x0#32
  | .pfx p => 0xff#8 ++ p
  | .add d a b p => 0x1#8 ++ d ++ a ++ b ++ p ++ 0x0#5
  | .addi d a i => 0x2#8 ++ d ++ a ++ i
  | .sub d a b p => 0x3#8 ++ d ++ a ++ b ++ p ++ 0x0#5
  | .mul d a b p => 0x4#8 ++ d ++ a ++ b ++ p ++ 0x0#5
  | .mulh d a b p => 0x5#8 ++ d ++ a ++ b ++ p ++ 0x0#5
  | .mulhu d a b p => 0x6#8 ++ d ++ a ++ b ++ p ++ 0x0#5
  | .div d a b p => 0x7#8 ++ d ++ a ++ b ++ p ++ 0x0#5
  | .divu d a b p => 0x8#8 ++ d ++ a ++ b ++ p ++ 0x0#5
  | .rem d a b p => 0x9#8 ++ d ++ a ++ b ++ p ++ 0x0#5
  | .remu d a b p => 0xa#8 ++ d ++ a ++ b ++ p ++ 0x0#5
  | .and d a b p => 0xb#8 ++ d ++ a ++ b ++ p ++ 0x0#5
  | .andi d a i => 0xc#8 ++ d ++ a ++ i
  | .or d a b p => 0xd#8 ++ d ++ a ++ b ++ p ++ 0x0#5
  | .ori d a i => 0xe#8 ++ d ++ a ++ i
  | .xor d a b p => 0xf#8 ++ d ++ a ++ b ++ p ++ 0x0#5
  | .xori d a i => 0x10#8 ++ d ++ a ++ i
  | .shl d a b p => 0x11#8 ++ d ++ a ++ b ++ p ++ 0x0#5
  | .shli d a n => 0x12#8 ++ d ++ a ++ n
  | .shr d a b p => 0x13#8 ++ d ++ a ++ b ++ p ++ 0x0#5
  | .shri d a n => 0x14#8 ++ d ++ a ++ n
  | .sra d a b p => 0x15#8 ++ d ++ a ++ b ++ p ++ 0x0#5
  | .srai d a n => 0x16#8 ++ d ++ a ++ n
  | .min d a b p => 0x17#8 ++ d ++ a ++ b ++ p ++ 0x0#5
  | .max d a b p => 0x18#8 ++ d ++ a ++ b ++ p ++ 0x0#5
  | .minu d a b p => 0x19#8 ++ d ++ a ++ b ++ p ++ 0x0#5
  | .maxu d a b p => 0x1a#8 ++ d ++ a ++ b ++ p ++ 0x0#5
  | .clz d a p => 0x1b#8 ++ d ++ a ++ 0x0#5 ++ p ++ 0x0#5
  | .popc d a p => 0x1c#8 ++ d ++ a ++ 0x0#5 ++ p ++ 0x0#5
  | .clmul d a b p => 0x1d#8 ++ d ++ a ++ b ++ p ++ 0x0#5
  | .clmulh d a b p => 0x1e#8 ++ d ++ a ++ b ++ p ++ 0x0#5
  | .sel d a b n => 0x1f#8 ++ d ++ a ++ b ++ n ++ 0x0#5
  | .cmp q a b p c => 0x40#9 ++ q ++ a ++ b ++ p ++ c
  | .cmpi q c a i => 0x21#8 ++ q ++ c ++ a ++ i
  | .li d i => 0x22#8 ++ d ++ i
  | .plog q a b p f => 0x46#9 ++ q ++ 0x0#1 ++ a ++ 0x0#1 ++ b ++ p ++ f
  | .pget d p => 0x24#8 ++ d ++ 0x0#10 ++ p ++ 0x0#5
  | .pput a p => 0x4a0#13 ++ a ++ 0x0#5 ++ p ++ 0x0#5
  | .mfsr d r => 0x26#8 ++ d ++ 0x0#7 ++ r
  | .mtsr a r => 0x4e0#13 ++ a ++ 0x0#2 ++ r
  | .fadds d a b p => 0x28#8 ++ d ++ a ++ b ++ p ++ 0x0#5
  | .fsubs d a b p => 0x29#8 ++ d ++ a ++ b ++ p ++ 0x0#5
  | .fmuls d a b p => 0x2a#8 ++ d ++ a ++ b ++ p ++ 0x0#5
  | .fmas d a b p => 0x2b#8 ++ d ++ a ++ b ++ p ++ 0x0#5
  | .fmins d a b p => 0x2c#8 ++ d ++ a ++ b ++ p ++ 0x0#5
  | .fmaxs d a b p => 0x2d#8 ++ d ++ a ++ b ++ p ++ 0x0#5
  | .fcmps q a b p c => 0x5c#9 ++ q ++ a ++ b ++ p ++ c
  | .fcvts d a p k => 0x2f#8 ++ d ++ a ++ 0x0#5 ++ p ++ k
  | .br p o => 0x40#8 ++ p ++ o
  | .call p o => 0x41#8 ++ p ++ o
  | .jr a p => 0x840#13 ++ a ++ 0x0#5 ++ p ++ 0x0#5
  | .loop p o => 0x43#8 ++ p ++ o
  | .loopset a b p => 0x880#13 ++ a ++ b ++ p ++ 0x0#5
  | .loopseti e i => 0x45#8 ++ e ++ 0x0#5 ++ i
  | .vaddF p d a b => 0x1#8 ++ p ++ d ++ a ++ b ++ 0x0#2
  | .vsubF p d a b => 0x2#8 ++ p ++ d ++ a ++ b ++ 0x0#2
  | .vmulF p d a b => 0x3#8 ++ p ++ d ++ a ++ b ++ 0x0#2
  | .vfmaF p d a b => 0x4#8 ++ p ++ d ++ a ++ b ++ 0x0#2
  | .vmaxF p d a b => 0x5#8 ++ p ++ d ++ a ++ b ++ 0x0#2
  | .vminF p d a b => 0x6#8 ++ p ++ d ++ a ++ b ++ 0x0#2
  | .vabsF p d a m => 0x7#8 ++ p ++ d ++ a ++ 0x0#6 ++ m
  | .vexp2 p d a b => 0x8#8 ++ p ++ d ++ a ++ b ++ 0x0#2
  | .vrcp p d a => 0x9#8 ++ p ++ d ++ a ++ 0x0#8
  | .vrsq p d a => 0xa#8 ++ p ++ d ++ a ++ 0x0#8
  | .vaddI p d a b => 0xb#8 ++ p ++ d ++ a ++ b ++ 0x0#2
  | .vsubI p d a b => 0xc#8 ++ p ++ d ++ a ++ b ++ 0x0#2
  | .vmulI p d a b => 0xd#8 ++ p ++ d ++ a ++ b ++ 0x0#2
  | .vmaxI p d a b => 0xe#8 ++ p ++ d ++ a ++ b ++ 0x0#2
  | .vminI p d a b => 0xf#8 ++ p ++ d ++ a ++ b ++ 0x0#2
  | .vand p d a b => 0x10#8 ++ p ++ d ++ a ++ b ++ 0x0#2
  | .vor p d a b => 0x11#8 ++ p ++ d ++ a ++ b ++ 0x0#2
  | .vxor p d a b => 0x12#8 ++ p ++ d ++ a ++ b ++ 0x0#2
  | .vshl p d a b => 0x13#8 ++ p ++ d ++ a ++ b ++ 0x0#2
  | .vshr p d a b => 0x14#8 ++ p ++ d ++ a ++ b ++ 0x0#2
  | .vsra p d a b => 0x15#8 ++ p ++ d ++ a ++ b ++ 0x0#2
  | .vcmpf p d a b c => 0x16#8 ++ p ++ d ++ a ++ b ++ c
  | .vcmpi p d a b c => 0x17#8 ++ p ++ d ++ a ++ b ++ c
  | .vsel p d a b => 0x18#8 ++ p ++ d ++ a ++ b ++ 0x0#2
  | .vdot4 p d a b => 0x19#8 ++ p ++ d ++ a ++ b ++ 0x0#2
  | .vdot4u p d a b => 0x1a#8 ++ p ++ d ++ a ++ b ++ 0x0#2
  | .vaddsF p d a b => 0x1b#8 ++ p ++ d ++ a ++ b ++ 0x0#3
  | .vmulsF p d a b => 0x1c#8 ++ p ++ d ++ a ++ b ++ 0x0#3
  | .vfmasF p d a b => 0x1d#8 ++ p ++ d ++ a ++ b ++ 0x0#3
  | .vcmpu p d a b c => 0x1e#8 ++ p ++ d ++ a ++ b ++ c
  | .vaddiI p d a i => 0x1f#8 ++ p ++ d ++ a ++ i
  | .vshifti p d a o n => 0x20#8 ++ p ++ d ++ a ++ o ++ n
  | .vmov p d a => 0x1#8 ++ p ++ d ++ a ++ 0x0#8
  | .vsplat p d b => 0x2#8 ++ p ++ d ++ 0x0#6 ++ b ++ 0x0#3
  | .vidx p d m => 0x3#8 ++ p ++ d ++ 0x0#12 ++ m
  | .rrot p d a n => 0x4#8 ++ p ++ d ++ a ++ n
  | .crot p d a n => 0x5#8 ++ p ++ d ++ a ++ n
  | .rbcst p d a k => 0x6#8 ++ p ++ d ++ a ++ k
  | .cbcst p d a k => 0x7#8 ++ p ++ d ++ a ++ k
  | .rred p d a o => 0x8#8 ++ p ++ d ++ a ++ o ++ 0x0#2
  | .cred p d a o => 0x9#8 ++ p ++ d ++ a ++ o ++ 0x0#2
  | .rscan p d a o => 0xa#8 ++ p ++ d ++ a ++ o ++ 0x0#2
  | .vcvt p d a k => 0xb#8 ++ p ++ d ++ a ++ k
  | .vget p d a i => 0xc#8 ++ p ++ d ++ 0x0#1 ++ a ++ i
  | .vput p d a i => 0xd#8 ++ p ++ d ++ a ++ 0x0#1 ++ i
  | .rrotv p d a b => 0xe#8 ++ p ++ d ++ a ++ b ++ 0x0#3
  | .vld p d a f b => 0x1#8 ++ p ++ d ++ a ++ f ++ b
  | .vst p d a f b => 0x2#8 ++ p ++ d ++ a ++ f ++ b
  | .vldt p l a f b => 0x3#8 ++ p ++ 0x0#1 ++ l ++ a ++ f ++ b
  | .vland p d l => 0x4#8 ++ p ++ d ++ l ++ 0x0#9
  | .sld p d a w x o => 0x5#8 ++ p ++ d ++ a ++ w ++ x ++ o
  | .sst p d a w o => 0x6#8 ++ p ++ d ++ a ++ w ++ 0x0#1 ++ o
  | .slda p d a w s => 0x7#8 ++ p ++ d ++ a ++ 0x0#3 ++ w ++ s ++ 0x0#2
  | .sstr p d a w s => 0x8#8 ++ p ++ d ++ a ++ 0x0#3 ++ w ++ s ++ 0x0#2
  | .ctld p d a f b => 0x9#8 ++ p ++ d ++ a ++ f ++ b
  | .ctst p d a f b => 0xa#8 ++ p ++ d ++ a ++ f ++ b
  | .watch p a => 0xb#8 ++ p ++ 0x0#5 ++ a ++ 0x0#10
  | .snooze p d a => 0xc#8 ++ p ++ d ++ a ++ 0x0#10
  | .mark p s => 0xd#8 ++ p ++ 0x0#15 ++ s ++ 0x0#2
  | .cas p d a b s => 0xe#8 ++ p ++ d ++ a ++ b ++ s ++ 0x0#2
  | .amoadd p d a b s => 0x10#8 ++ p ++ d ++ a ++ b ++ s ++ 0x0#2
  | .amoand p d a b s => 0x11#8 ++ p ++ d ++ a ++ b ++ s ++ 0x0#2
  | .amoor p d a b s => 0x12#8 ++ p ++ d ++ a ++ b ++ s ++ 0x0#2
  | .amoxor p d a b s => 0x13#8 ++ p ++ d ++ a ++ b ++ s ++ 0x0#2
  | .amomin p d a b s => 0x14#8 ++ p ++ d ++ a ++ b ++ s ++ 0x0#2
  | .amomax p d a b s => 0x15#8 ++ p ++ d ++ a ++ b ++ s ++ 0x0#2
  | .amominu p d a b s => 0x16#8 ++ p ++ d ++ a ++ b ++ s ++ 0x0#2
  | .amomaxu p d a b s => 0x17#8 ++ p ++ d ++ a ++ b ++ s ++ 0x0#2
  | .amoswap p d a b s => 0x18#8 ++ p ++ d ++ a ++ b ++ s ++ 0x0#2
  | .amofadd p d a b s => 0x19#8 ++ p ++ d ++ a ++ b ++ s ++ 0x0#2
  | .amofmin p d a b s => 0x1a#8 ++ p ++ d ++ a ++ b ++ s ++ 0x0#2
  | .amofmax p d a b s => 0x1b#8 ++ p ++ d ++ a ++ b ++ s ++ 0x0#2
  | .mma p c k g e f => 0x1#8 ++ p ++ c ++ k ++ g ++ e ++ f ++ 0x0#7
  | .mref p c g e f => 0x2#8 ++ p ++ c ++ 0x0#2 ++ g ++ e ++ f ++ 0x0#7
  | .mlut p c g e f => 0x3#8 ++ p ++ c ++ 0x0#2 ++ g ++ e ++ f ++ 0x0#7
  | .mzero p c => 0x4#8 ++ p ++ c ++ 0x0#19
  | .mldacc p c g e f => 0x5#8 ++ p ++ c ++ 0x0#2 ++ g ++ e ++ f ++ 0x0#7
  | .mdrain p c g e f => 0x6#8 ++ p ++ c ++ 0x0#2 ++ g ++ e ++ f ++ 0x0#7
  | .mfmt p g => 0x7#8 ++ p ++ 0x0#3 ++ g ++ 0x0#12
  | .mprog p d => 0x8#8 ++ p ++ 0x0#3 ++ d ++ 0x0#12
  | .mresume p => 0x9#8 ++ p ++ 0x0#20
  | .wswap p g e f => 0xa#8 ++ p ++ 0x0#3 ++ g ++ e ++ f ++ 0x0#7
  | .xtrn p d a => 0x1#8 ++ p ++ d ++ a ++ 0x0#8
  | .xcvt p d a k => 0x2#8 ++ p ++ d ++ a ++ k
  | .xpls p d a b => 0x3#8 ++ p ++ d ++ a ++ b ++ 0x0#2
  | .xplm p d a b => 0x4#8 ++ p ++ d ++ a ++ b ++ 0x0#2
  | .xfmt p g => 0x5#8 ++ p ++ 0x0#6 ++ g ++ 0x0#9
  | .cpy p t g x => 0x10#8 ++ p ++ t ++ g ++ x
  | .cpysl p t g x => 0x11#8 ++ p ++ t ++ g ++ x
  | .cpymc p t g => 0x12#8 ++ p ++ t ++ g ++ 0x0#9
  | .cpycan p t => 0x13#8 ++ p ++ t ++ 0x0#14
  | .coll p t g o => 0x18#8 ++ p ++ t ++ g ++ 0x0#7 ++ o
  | .pcnt p d a => 0x19#8 ++ p ++ 0x0#1 ++ d ++ a ++ 0x0#9
  | .pcancel p a => 0x1a#8 ++ p ++ 0x0#6 ++ a ++ 0x0#9
  | .pcancelTag p t => 0x1a#8 ++ p ++ t ++ 0x1#14
  | .whfetch p g h => 0x20#8 ++ p ++ 0x0#6 ++ g ++ h
  | .whstat p d h => 0x21#8 ++ p ++ 0x0#1 ++ d ++ 0x0#5 ++ h
  | .whdrop p h => 0x22#8 ++ p ++ 0x0#11 ++ h
  | .sync s m => s ++ 0x0#4 ++ m ++ 0x0#8
  | .fset s c f a => s ++ 0x10#8 ++ c ++ f ++ a ++ 0x0#8
  | .fsetSelf s c f => s ++ 0x10#8 ++ c ++ f ++ 0x80#13
  | .fclr s f a => s ++ 0x88#11 ++ f ++ a ++ 0x0#8
  | .fclrSelf s f => s ++ 0x88#11 ++ f ++ 0x80#13
  | .waitany s a => s ++ 0x20#8 ++ a ++ 0x0#15
  | .waitall s a => s ++ 0x21#8 ++ a ++ 0x0#15
  | .ffr s a d => s ++ 0x22#8 ++ a ++ d ++ 0x0#10
  | .pwait s a q => s ++ 0x23#8 ++ a ++ q ++ 0x0#11
  | .whwait s h q => s ++ 0x24#8 ++ h ++ q ++ 0x0#4
  | .barrive s a c => s ++ 0x30#8 ++ a ++ c ++ 0x0#12
  | .barwait s a b d => s ++ 0x31#8 ++ a ++ b ++ d ++ 0x0#5
  | .slk s n => s ++ 0x40#8 ++ n
  | .book s a d => s ++ 0x50#8 ++ a ++ d ++ 0x0#10
  | .unbook s => s ++ 0x5100000#28
  | .calq s a d => s ++ 0x52#8 ++ a ++ d ++ 0x0#10
  | .spawn s a d q => s ++ 0x60#8 ++ a ++ d ++ q ++ 0x0#6
  | .spawnW s a d q => s ++ 0x60#8 ++ a ++ d ++ q ++ 0x20#6
  | .tdone s => s ++ 0x6100000#28
  | .tyield s => s ++ 0x6200000#28
  | .trap s c => s ++ 0x700#12 ++ c
  | .trapBrk s c => s ++ 0x701#12 ++ c
  | .rft s a => s ++ 0x71#8 ++ a ++ 0x0#15
  | .halt s => s ++ 0x7200000#28
  | .ctxrun s a b => s ++ 0x80#8 ++ a ++ b ++ 0x0#10
  | .ctxstop s a => s ++ 0x81#8 ++ a ++ 0x0#15
  | .contextStop _ _ => 0
  | .stopPoint _ => 0
  | .resumeStart _ => 0
  | .watchdog _ => 0
  | .loadResult _ _ => 0
  | .icacheFill _ _ => 0
  | .vldtLanded _ _ => 0
  | .snoozeTimeout _ => 0
  | .barwaitTimeout _ => 0
  | .tickStart _ => 0
  | .admission _ => 0
  | .taskStart _ _ => 0
  | .issueend _ => 0
  | .unbooked _ _ _ => 0
  | .slackExhausted _ => 0
  | .slipTest _ => 0
  | .thaw _ => 0
  | .wratioChange _ _ => 0
  | .ratioSwitch _ _ => 0
  | .arrayStep _ _ => 0
  | .macroopComplete _ _ => 0
  | .weightSwap _ => 0
  | .swapDone _ => 0
  | .acctFlush _ => 0
  | .copyChunk _ => 0
  | .copyComplete _ _ => 0
  | .cpymcWrite _ _ => 0
  | .handleCommandAccept _ => 0
  | .cardStart _ => 0
  | .codewordRead _ => 0
  | .planeLand _ => 0
  | .forwardedRead _ => 0
  | .promotion _ => 0
  | .promotionDone _ => 0
  | .sweep _ => 0
  | .demotionDone _ _ => 0
  | .epochAdvance _ => 0
  | .garbageCollection _ => 0
  | .staticWearLevelling _ => 0
  | .patrolRead _ => 0
  | .waypartDone _ => 0
  | .wb _ _ => 0
  | .wbinv _ _ => 0
  | .inv _ _ => 0
  | .maphbm _ _ => 0
  | .maphbf _ _ => 0
  | .unmap _ _ => 0
  | .pin _ _ => 0
  | .unpin _ _ => 0
  | .promote _ _ => 0
  | .demote _ _ => 0
  | .replicate _ _ => 0
  | .inval _ _ => 0
  | .dispatchStep _ => 0
  | .taskComplete _ _ => 0
  | .versionCommit _ _ => 0
  | .collJoin _ _ => 0
  | .collAbsent _ => 0
  | .planeSend _ _ => 0
  | .planeLanding _ _ _ _ => 0
  | .cancelProcess _ => 0
  | .senderStop _ _ => 0
  | .collComplete _ => 0
  | .presetDone _ => 0
  | .l2cmdDone _ => 0
  | .pgcmdDone _ => 0
  | .machine _ => 0
  | .relocation _ => 0
  | .programFail _ _ => 0
  | .sramError _ _ => 0
  | .peerPacket _ _ _ _ _ _ => 0
  | .peerlost _ => 0
  | .injectWrite _ _ => 0
  | .waypartWrite _ _ => 0
  | .tallowWrite _ _ => 0
  | .acfgWrite _ _ => 0
  | .queueConfigWrite _ _ _ _ => 0
  | .sqheadWrite _ _ => 0
  | .msgheadWrite _ _ => 0
  | .start _ _ => 0
  | .preset _ _ => 0
  | .registerWrite _ _ _ _ => 0
  | .hostRead _ _ _ => 0
  | .hostWrite _ _ _ => 0
  | .hostCoatRead _ _ => 0
  | .hostCoatWrite _ _ _ => 0
  | .getEventRecords _ => 0
  | .getFwInfo _ => 0
  | .transferFw _ _ => 0
  | .activateFw _ => 0
  | .getSupportedLogs _ => 0
  | .getLog _ _ => 0
  | .identifyMemoryDevice _ => 0
  | .getHealthInfo _ => 0
  | .attest _ _ => 0
  | .getidkey _ => 0
  | .extend _ _ _ => 0
  | .preempt _ _ => 0
  | .wreset _ => 0
  | .powercap _ _ => 0
  | .setTimestamp _ _ => 0
  | .unsupported _ _ => 0
  | .doubleRefreshEntry _ => 0
  | .doubleRefreshExit _ => 0
  | .faceThrottle _ => 0
  | .faceThrottleEnd _ => 0
  | .droop _ => 0
  | .conventionalReset => 0
  | .coldStart => 0
  | .startTimeout => 0
  | .thermtrip => 0
  | .powerCheck => 0
  | .logAppend => 0
  | .startok => 0

/-- The instruction of a 32-bit word that names no slot: the one that the lowest slot accepting it decodes. -/
def decodeLowest : List Nat → BitVec 32 → Option Instr
  | [], _ => none
  | k :: ks, w =>
    match decodeSlot k w with
    | .ok i => some i
    | .error _ => decodeLowest ks w

/-- The lowest slot whose map accepts a word. -/
def lowestSlot : List Nat → BitVec 32 → Nat
  | [], _ => 0
  | k :: ks, w =>
    match decodeSlot k w with
    | .ok _ => k
    | .error _ => lowestSlot ks w

/-- The instruction that the decoder reads from the opcode table's word; the table gives the word no slot, so the
lowest-numbered slot that accepts it decides. -/
def decodeTableWord (nbits w : Nat) : Option Instr :=
  if nbits ≤ 32 then decodeLowest [0, 1, 2, 3, 4, 5, 6, 7] (BitVec.ofNat 32 w) else none

end Sys2Proof
end

