-- ==== Sys2Proof/Config.lean ====
section
/-! DEFINITION. What the manual leaves open, as constants without a body: no proof can learn a value of one.

Each is applied to a number that names the occasion (a counter of the state, or the operands it depends on). -/

namespace Sys2Proof

/-- Cycles that a variable-latency result takes beyond the least that R180 states, on occasion `n` (R39, R180). -/
opaque Config.extraLatency : Nat → Nat
/-- Cycles from the reading of a job card's last codeword to its first write (R314, R315). -/
opaque Config.cardTime : Nat → Nat
/-- Cycles by which an engine's reads from outside its face return late (R258). -/
opaque Config.farTime : Nat → Nat
/-- Cycles between a plane's first send cycle and its landing at a receiver (R395). -/
opaque Config.planeTime : Nat → Nat
/-- Cycles that a stop or cancel request takes to reach its unit, within the bound the manual gives (R394, R416). -/
opaque Config.reachTime : Nat → Nat
/-- Cycles that reading a codeword of flash, or moving a page to or from flash, takes, on occasion `n` (R292, R300,
R306). -/
opaque Config.flashTime : Nat → Nat
/-- The accumulator cell (m, n) of bank `b` of pair `p` before MZERO or MLDACC has set it (R225). -/
opaque Config.freeAcc : Nat → Nat → Nat → Nat → Lane
/-- The set of a slice in which the line with this number is kept; the manual gives no index function (R181). -/
opaque Config.sliceSet : Nat → Nat
/-- The instruction-cache line that a fill displaces when the cache is full, on occasion `n` (R113). -/
opaque Config.icacheVictim : Nat → Nat
/-- The number of bits that reading a codeword corrects, on occasion `n`: 0 to 96 decode (R305). -/
opaque Config.codewordBits : Nat → Nat
/-- Whether the first read of a codeword and each of its retries fails, on occasion `n` (R305). -/
opaque Config.codewordFails : Nat → Bool
/-- The public key that a firmware image carries (R432). -/
opaque Config.imageKey : List Byte → List Byte
/-- The fused KEYHASH (R432). -/
opaque Config.keyHash : BitVec 512
/-- Whether the Falcon-1024 signature of a firmware image verifies over a digest (R432). -/
opaque Config.falconVerifies : List Byte → BitVec 512 → Bool
/-- Whether the reading of the stored image meets an uncorrectable codeword, at start `n` (R433). -/
opaque Config.imageUnreadable : Nat → Bool
/-- Whether the vertical-bus tests of start `n` find a lane that cannot be repaired (R433). -/
opaque Config.repairFails : Nat → Bool
/-- The lanes that firmware repairs on die `d` at start `n`, as the repair record holds them (R432). -/
opaque Config.repairLanes : Nat → Nat → List Byte
/-- The version of the repair records (R438). -/
opaque Config.recordVersion : Nat
/-- What reading the repair record of die `d` at warm reset `n` finds altered of its version and of its check (R438). -/
opaque Config.recordVersionDamage : Nat → Nat → Nat
opaque Config.recordCheckDamage : Nat → Nat → Nat
/-- The partition configuration with which firmware extends MEAS1 at start `n` (R432). -/
opaque Config.partitionImage : Nat → List Byte
/-- The Falcon-1024 signature of a report under the device identity key (R437). -/
opaque Config.falconSign : List Byte → List Byte
/-- The identity public key and its certificate chain (R431). -/
opaque Config.identityKey : List Byte
/-- The fused serial number (R437). -/
opaque Config.serial : Word
/-- The payload that a mailbox command returns where only its name is given, by opcode and occasion (R431). -/
opaque Config.mailboxPayload : Nat → Nat → List Byte
/-- Spare blocks of a stack at delivery (R307, "from tables"). -/
opaque Config.spareBlocks : Nat → Nat
/-- The initial program/erase count of block `b` of stack `n` (R307, "from tables"). -/
opaque Config.blockWear : Nat → Nat → Nat
/-- Whether frame `f` of stack `d` holds a map of the translation layer (R293, R301). -/
opaque Config.mapFrame : Nat → Nat → Bool
/-- The package power in W in millisecond `n` (R443, R445). -/
opaque Config.power : Nat → Nat
/-- The reading in °C of a sensor, by its number in R441, when GTC is `g` (R445). -/
opaque Config.temperature : Nat → Nat → Nat
/-- Whether block `b` of stack `n` carries a factory bad-block mark (R302). -/
opaque Config.factoryBad : Nat → Nat → Bool
/-- Cycles from power-on to STARTOK in start `n` (R432). -/
opaque Config.startTime : Nat → Nat
/-- The payload of Get Event Records: the CXL timestamp, and the events with their GTC (R431, R440). -/
opaque Config.eventPayload : Word → List (Nat × Nat) → List Byte
/-- The payload of Get Log for a log other than the lifetime log (R431). -/
opaque Config.logPayload : Nat → List Byte
/-- The bytes of one section of the lifetime log, by its number and entries (R446). -/
opaque Config.logSection : Nat → List (Nat × List Nat × Nat) → List Byte
/-- HBM corrections of stack `n` when GTC is `g` (R446). -/
opaque Config.hbmCorrections : Nat → Nat → Nat
/-- The time that a sensor has spent in a 5 °C band when GTC is `g` (R446). -/
opaque Config.bandTime : Nat → Nat → Nat → Nat

end Sys2Proof
end

