-- ==== Sys2Proof/Machine/State.lean ====
section
/-! DEFINITION. The whole state of a PX7 package as plain data, and the state right after power-on.

Every unit of R1 and R13 that holds state has a structure here, kept in a sparse table under its package-wide
number; a unit that is not listed holds its reset value. Registers that software reads as words are kept as
their named fields; the register maps are in Machine/Registers.lean. -/

namespace Sys2Proof.Machine

/-! ## Contexts and cores -/

/-- The three states of a context (R103). -/
inductive RunState where
  | halted
  | free
  | booked
  /-- its stop edge has passed, and its macro-op in progress has not reached its stopping point (R249, R416) -/
  | stopping
  deriving DecidableEq, Repr

/-- What the end of a stop has still to do (R412, R416, R417). -/
structure Stopping where
  /-- the step in progress of a held macro-op ends at this cycle (R249) -/
  due  : Nat
  /-- the contents of the save area as the stop edge found them: IA and bytes -/
  area : List (Nat × List Byte)
  /-- the messages that follow: whether each goes to firmware, and its words -/
  msgs : List (Bool × List Word)
  deriving DecidableEq, Repr

/-- A trap that awaits the first bundle that would issue (R191, R247, R289, R406). -/
structure LateTrap where
  code : Nat
  sub  : Nat := 0
  addr : Word
  slot : Nat
  /-- a bundle that is held already traps at once (R247) -/
  atOnce : Bool := false
  /-- the cycle in which it fell, and the one in which the load that brings it was issued (R191) -/
  fell   : Nat := 0
  issued : Nat := 0
  deriving DecidableEq, Repr

/-- What a fixed-latency result writes when it is due (R38, R107, R137, R420). -/
inductive Write where
  /-- the trap of a poisoned load, which falls in the cycle of its write (R191); it is in no dump -/
  | owe (t : LateTrap)
  /-- a scalar register -/
  | scalar (n : Nat) (v : Word)
  /-- a predicate -/
  | pred (n : Nat) (v : Bool)
  /-- a whole tile, by physical register of the core -/
  | tile (phys : Nat) (t : Tile)
  /-- one lane of a physical register (VPUT, R144) -/
  | lane (phys idx : Nat) (v : Lane)
  /-- a special register, by number, with the effects of its access code (R45, R136) -/
  | sreg (num : Nat) (v : Word)
  /-- bits of TAGS or of FLAGS set again: what takes a W1C write back (R413); never in flight itself -/
  | setTags (v : Word)
  | setFlags (v : BitVec 16)
  /-- the predicate shift of a LOOP (R136, R420 KIND 9) -/
  | loopShift (live : Bool)
  deriving DecidableEq, Repr

/-- A result in flight: the cycle it is due, the slot that made it and what it writes (R38). -/
structure InFlight where
  due  : Nat
  slot : Nat
  w    : Write
  /-- the cycle in which it was issued (R144) -/
  issued : Nat := 0
  deriving DecidableEq, Repr

/-- A trap cause: its code and subcode, TADDR, its stage in R43 and whether it follows from the word alone. -/
structure Cause where
  code  : Nat
  sub   : Nat := 0
  addr  : Word := 0
  stage : Nat
  word  : Bool := false
  /-- where this is an ILLOP found by value, the code of a cause of the same slot's word that ranks after it, else 0 (R43) -/
  behind : Nat := 0
  deriving DecidableEq, Repr

/-- Where a variable-latency result goes (R39, R329). -/
inductive Dest where
  | scalar (n : Nat)
  | tile (phys : Nat)
  | arrival
  /-- a store, an atomic or a fetch without a register: only its fault returns (R289, R449) -/
  | nothing
  deriving DecidableEq, Repr

/-- A variable-latency result that has not returned (R39, R414): a load is reissued after a stop, the others
are performed once. -/
structure Pending where
  id     : Nat
  slot   : Nat
  dest   : Dest
  /-- the request is a load, recorded as KIND 6 at a stop (R414, R420) -/
  reissue : Bool
  coats  : Bool := false
  va     : Word := 0
  stride : Word := 0
  fmt    : Nat := 0
  width  : Nat := 0
  signed : Bool := false
  nfr    : Word := 0
  pq     : Word := 0
  /-- the value, once performed -/
  value  : Word := 0
  tile   : Tile := []
  /-- VA of the first poisoned block (R191) -/
  poison : Option Word := none
  /-- a memory-side fault to be taken on arrival: cause code, TADDR (R289, R406, R449) -/
  fault  : Option (Nat × Word) := none
  /-- the landing slot that this VLAND waits on (R217) -/
  landing : Option Nat := none
  /-- the barrier whose arrival record this result becomes (R329); of a result that goes to a save area, the value that
  its register had at the stop -/
  barrier : Word := 0
  /-- IA of the dump entry that takes the result of a stopped context (R414, R420) -/
  saveIa : Option Nat := none
  /-- IA of the base, and whether the window's policy is ALLOC (R284) -/
  ia     : Nat := 0
  alloc  : Bool := true
  /-- address of the bundle that issued it (R58) -/
  pc     : Word := 0
  /-- the request waits for a page held in flash (R290, R292) -/
  flash  : Bool := false
  /-- such a result returns no earlier than this cycle (R180) -/
  least  : Nat := 0
  /-- the cycle in which it was issued (R144, R191) -/
  issued : Nat := 0
  /-- it has returned to a frozen pair, and is written when the clock runs again (R214) -/
  arrived : Bool := false
  deriving DecidableEq, Repr

/-- The monitor of a context (R331, R332). -/
inductive Monitor where
  | disarmed
  | armed (block : Nat)
  | triggered (block : Nat)
  deriving DecidableEq, Repr

/-- The wait of a held BARWAIT (R330). -/
inductive BarHold where
  /-- limit, barrier IA, the reference phase and the first cycle in which the phase has been read -/
  | waiting (limit : Word) (ia : Nat) (phase : Nat) (seen : Nat)
  /-- its limit has passed: its bundle may issue, and writes 1 -/
  | over
  deriving DecidableEq, Repr

/-- What a context waits for: what its last bundle has begun, and what its held bundle has begun. The slots of one bundle may
begin several waits, each of which goes on by itself (R37, R206, R253, R330, R333). -/
structure Sleep where
  /-- SNOOZE has issued: its destination and limit -/
  snooze : Option (Nat × Word) := none
  /-- BOOK has issued: its destination, and the start tick or 0 until the controller has answered (R206) -/
  book   : Option (Nat × Nat) := none
  /-- the held BARWAIT -/
  bar    : Option BarHold := none
  /-- the held WSWAP of a free context, with the answer once the controller has given one (R253) -/
  swap   : Option (Option Bool) := none
  /-- the held macro-ops of a held MRESUME have begun to enter (R250) -/
  resume : Bool := false
  deriving DecidableEq, Repr

/-- No wait is going on. -/
abbrev Sleep.awake : Sleep := {}

/-- A sampled macro-op (R230, R231, R249): its slot word, accumulator, group as VAs, NFR.MX and bundle address. -/
structure MxOp where
  word   : BitVec 32 := 0
  op     : Nat
  acc    : Nat
  kind   : Nat := 0
  group  : List Word
  nfr    : Word
  pc     : Word
  flagEn : Bool
  flag   : Nat
  core   : Nat
  ctx    : Nat
  /-- the booking that owns it, if its context was BOOKED -/
  bid    : Option Nat := none
  /-- operand addresses as IAs: A, B, C and bias -/
  aIa    : Nat := 0
  bIa    : Nat := 0
  biasIa : Nat := 0
  /-- B is read through the weight bank's active half -/
  bWbank : Bool := false
  /-- the drain must not be interrupted (R245) -/
  solid  : Bool := false
  issued : Nat := 0
  /-- the number of its steps -/
  steps  : Nat := 1
  seg    : Nat := 0
  rows   : Nat := 0
  /-- the task instance that issued it: domain and SEQ (R370) -/
  task   : Option (Nat × Nat) := none
  /-- cycle in which the step in progress ends -/
  busy   : Option Nat := none
  /-- its next step is parked: it starts only at the beginning of a tick (R210) -/
  parked : Bool := false
  /-- a booked step that found no start: it waits for its task's trap (R211) -/
  stuck  : Bool := false
  /-- the bias as the first step has read it (R244) -/
  bias   : List Lane := []
  deriving DecidableEq, Repr

/-- One context (R102, R115). -/
structure Ctx where
  run     : RunState := .halted
  pc      : Word := 0
  s       : Vector Word 32 := Vector.replicate 32 0
  p       : BitVec 16 := 1
  priv    : Nat := 0
  chk     : Bool := false
  base    : Nat := 0
  vcount  : Nat := 0
  rot     : Nat := 0
  rrb     : Nat := 0
  lc      : Word := 0
  ec      : Word := 0
  esc     : BitVec 32 := 0x3F800000
  /-- PQ in the layout of R75 -/
  pq      : Word := 8
  taskid  : Word := 0
  inst    : Word := 0
  tags    : Word := 0
  slack   : Nat := 0
  tcause  : Word := 0
  tpc     : Word := 0
  taddr   : Word := 0
  tslot   : Nat := 0
  /-- NFR.MX and NFR.XC in the layout of R67 -/
  nfrMx   : BitVec 16 := 0x0018
  nfrXc   : BitVec 16 := 0x0018
  /-- MFMT and XFMT writes not yet visible: is it XC, the value, bundles still to see the old one (R51) -/
  nfrPend : List (Bool × BitVec 16 × Nat) := []
  landpend : BitVec 32 := 0
  /-- AW word j of window w under 4w + j (R284) -/
  aw      : Tbl Word := []
  /-- pending prefix of each slot (R29) -/
  prefixes : Tbl (BitVec 24) := []
  inflight : List InFlight := []
  /-- the results written in this cycle, newest first, with the writes that take them back: a stop in their due cycle
  dumps them (R413) -/
  undo    : List (InFlight × List Write) := []
  pending : List Pending := []
  late    : List LateTrap := []
  sleep   : Sleep := {}
  monitor : Monitor := .disarmed
  /-- the arrival record: barrier IA and old phase (R329) -/
  arrival : Option (Word × Nat) := none
  /-- first cycle in which the next bundle may issue: STALL and branch delay (R41) -/
  ready   : Nat := 0
  /-- cycle from which the next bundle has been held by a wait that the watchdog counts (R407) -/
  heldAt  : Option Nat := none
  /-- the lowest slot of that bundle that waits -/
  heldSlot : Nat := 0
  /-- the last cycle in which the next bundle of a booked task was late (R212, R213) -/
  lateAt   : Option Nat := none
  /-- the line of an outstanding instruction-cache miss, by its number (R110) -/
  fetchMiss : Option Nat := none
  /-- the words of the bundle at the PC, once it has been fetched and waits to issue (R115) -/
  fetched : List (BitVec 32) := []
  /-- booking of a BOOKED context, or of a BOOK that awaits its start tick, on the core's face -/
  bid     : Option Nat := none
  /-- lateness paid so far (R209, R212) -/
  paid    : Nat := 0
  /-- UNBOOK has issued: the context becomes FREE at the next tick (R208) -/
  unbook  : Bool := false
  /-- held macro-ops awaiting MRESUME, the one in progress first (R249) -/
  held    : List MxOp := []
  /-- a stop was requested, with its message KIND (R413) -/
  stopReq : Option Nat := none
  /-- a stop whose edge has passed and that is not complete (R249, R416) -/
  stopping : Option Stopping := none
  /-- the last bundle that issued had this address (R444) -/
  last    : Word := 0
  deriving DecidableEq, Repr

/-- The state of a landing slot (R174). -/
inductive LandState where
  | empty
  | waiting
  | landed
  deriving DecidableEq, Repr

/-- A landing slot with the request that a stop records (R174, R177). -/
structure Landing where
  st     : LandState := .empty
  owner  : Nat := 0
  va     : Word := 0
  stride : Word := 0
  fmt    : Nat := 0
  nfr    : Word := 0
  pq     : Word := 0
  lanes  : Tile := []
  poison : Option Word := none
  fault  : Option (Nat × Word) := none
  /-- the cycle in which it was issued -/
  issued : Nat := 0
  /-- address of the bundle that requested it (R58) -/
  pc     : Word := 0
  /-- the cycle in which its last row arrives, once the request has been performed (R216) -/
  due    : Option Nat := none
  /-- a request that waits for the flash port arrives no earlier than this cycle (R180) -/
  least  : Nat := 0
  deriving DecidableEq, Repr

/-- A copy tag of a core: busy, and the context that issued what holds it (R260). -/
structure Tag where
  busy : Bool := false
  ctx  : Nat := 0
  deriving DecidableEq, Repr

/-- A half of the instruction buffer: the booking that holds it, its preload base and code size (R113). -/
structure IBuf where
  bid  : Nat
  base : Word
  size : Nat
  /-- the bundles of the range as they were preloaded, eight words each; an empty one could not be read -/
  code : List (List (BitVec 32)) := []
  deriving DecidableEq, Repr

/-- A flag operation on its way: the first cycle whose bundles see it, and the context whose FSET or FCLR it is, whose
operations on one core stay in order (R324 to R326). -/
structure FlagOp where
  due   : Nat
  flag  : Nat
  set   : Bool
  origin   : Option Nat := none
  /-- the cycle in which its context sent it: it waits for what that context issued earlier (R324, R325) -/
  issued : Nat := 0
  deriving DecidableEq, Repr

/-- What the four contexts of a core share (R102). -/
structure Core where
  flags : BitVec 16 := 0
  flagOps : List FlagOp := []
  /-- the physical vector registers, 0 to 63 -/
  vreg  : Tbl Tile := []
  /-- first free cycle of VA, VB, the transform units and the two dividers (R40) -/
  vaFree : Nat := 0
  vbFree : Nat := 0
  xcFree : Nat := 0
  saDiv : Nat := 0
  sbDiv : Nat := 0
  landing : Tbl Landing := []
  tags  : Tbl Tag := []
  tstat : Tbl Byte := []
  /-- the current free context (R110) -/
  cur   : Nat := 0
  /-- the current free context has blocked and no other was ready (R110) -/
  idle  : Bool := true
  /-- the first cycle in which the context that became current may issue (R110) -/
  turn  : Nat := 0
  /-- instruction-cache lines held: line number to its 64 bytes (R113) -/
  icache : Tbl (List Byte) := []
  ibuf  : List IBuf := []
  /-- staging-size table: sizes that differ from 0 (R183) -/
  staging : Tbl Nat := []
  /-- handle commands queued for the port (R313) -/
  whq   : Nat := 0
  /-- the last bundle that the core issued, with its context in [1:0] (R444) -/
  last  : Word := 0
  deriving DecidableEq, Repr

/-! ## Pairs -/

/-- An accumulator bank (R225, R246): rows written, whether MZERO has cleared it, its poison bit, APSN, and the
range of B operands read into it (R245). -/
structure AccBank where
  rows    : Tbl (List Lane) := []
  cleared : Bool := false
  poison  : Bool := false
  apsn    : Nat := 0
  bLo     : Nat := 0
  bHi     : Nat := 0
  deriving DecidableEq, Repr

/-- A precision counter (R388). -/
structure Counter where
  tag    : Nat := 0
  core   : Nat := 0
  done   : Bool := false
  error  : Bool := false
  cancelled : Bool := false
  armed  : Bool := false
  qt     : Nat := 0
  planes : Nat := 0
  deriving DecidableEq, Repr

/-- An entry of a pair's cancel queue: one tile by counter, or a whole collective by tag (R391). -/
inductive CancelEntry where
  | tile (counter : Nat)
  | tag (core tag : Nat)
  deriving DecidableEq, Repr

/-- An entry of the cycle-accounting table (R254). -/
structure Acct where
  addr    : Word
  /-- the cycle that it was last charged -/
  stamp   : Nat := 0
  compute : Nat := 0
  awaitA  : Nat := 0
  wload   : Nat := 0
  drain   : Nat := 0
  deriving DecidableEq, Repr

/-- The cycles of a step in progress still to be charged, in the order in which they are: COMPUTE, then WLOAD or
AWAIT_A, or DRAIN_BLOCK (R254). -/
structure Charge where
  addr    : Word
  compute : Nat := 0
  wait    : Nat := 0
  wload   : Bool := false
  drain   : Nat := 0
  deriving DecidableEq, Repr

/-- A WSWAP accepted and not yet done (R253). -/
structure Swap where
  tick   : Nat
  core   : Nat
  flagEn : Bool
  flag   : Nat
  done   : Bool := false
  deriving DecidableEq, Repr

/-- A freeze of a pair under SLIP: its first cycle, the context that waits, the tests made (R215). -/
structure Freeze where
  start : Nat
  c     : Nat
  k     : Nat
  deriving DecidableEq, Repr

/-- A block of C on its way into its bank: the cycle in which the bank takes it, its place in `mem`, and the write (R171, R244). -/
structure BankWrite where
  due   : Nat
  place : Nat
  mask  : Nat
  data  : Nat
  coat  : Option Coat
  deriving DecidableEq, Repr

/-- What belongs to a pair (R1, R225, R388). -/
structure Pair where
  acc      : Tbl AccBank := []
  lease    : Bool := false
  leaseMax : Nat := 8
  acfgErr  : Bool := false
  holder   : Nat := 0
  count    : Nat := 0
  /-- MX queues: even free, even booked, odd free, odd booked (R230, R255) -/
  queues   : Tbl (List MxOp) := []
  /-- first free cycle of the array, for the even and the odd core (R227, R249) -/
  arrFree  : Tbl Nat := []
  /-- what copies, collectives and cards hold of the banks, and of the weight bank's write port as bank 33: bank, first cycle
  and end (R170, R252) -/
  bankBusy : List (Nat × Nat × Nat) := []
  /-- first free cycle of a bank's port and of the weight bank's read port, as accesses of the pair's cores hold them -/
  coreBank : Tbl Nat := []
  rdFree   : Nat := 0
  /-- the array's use of the banks, and of the read port as bank 32, under 64 × half + bank: its first cycle and its end,
  in the half's own windows in WINDOW mode (R227, R236) -/
  arrBank  : Tbl (Nat × Nat) := []
  /-- blocks of C of the drain steps in progress (R244) -/
  out      : List BankWrite := []
  /-- what the array, copies and collectives will begin to use in the next cycle: bank, first cycle and end (R172) -/
  soon     : List (Nat × Nat × Nat) := []
  /-- the step in progress of each half, for the accounting (R254) -/
  charges  : Tbl Charge := []
  /-- an accepted change of AMODE, which applies from the next cycle (R255) -/
  modeNext : Option Bool := none
  /-- the active half is H1 (R251) -/
  active   : Bool := false
  swap     : Option Swap := none
  counters : Tbl Counter := []
  cancelQ  : List CancelEntry := []
  acct     : List Acct := []
  acctBase : Nat := 0
  acctSize : Nat := 0
  acctEn   : Bool := false
  acctPtr  : Nat := 0
  acctLost : Nat := 0
  /-- cycles since the cold start that are not IDLE: charged ones and those of a freeze (R254) -/
  busy     : Nat := 0
  freeze   : Option Freeze := none
  /-- corrected and uncorrectable SRAM errors of the scratchpad (R190) -/
  secc     : Nat := 0
  sunc     : Nat := 0
  deriving DecidableEq, Repr

/-! ## Calendars -/

/-- One run of ticks that a plan books on one row (R199, R201). -/
structure RowUse where
  row   : Nat
  first : Nat
  len   : Nat
  hold  : Bool := false
  deriving DecidableEq, Repr

/-- An admitted plan (R204): absolute ticks, the context or instance it is for, and what its task needs. -/
structure Booking where
  core    : Nat
  ctx     : Option Nat
  part    : Nat
  start   : Nat
  rows    : List RowUse
  slip    : Bool
  slack   : Nat
  code    : Nat
  base    : Word
  ready   : Nat
  ratio   : Nat := 0
  planIa  : Nat := 0
  started : Bool := false
  /-- the task instance that a dispatcher reserved a context for (R367): domain, SEQ, instance number -/
  task    : Option (Nat × Nat × Nat) := none
  /-- the resume request that readmits a remainder (R425) -/
  resume  : Option Nat := none
  /-- reserved allotment base and size (R367) -/
  vbase   : Nat := 0
  vcnt    : Nat := 0
  /-- ticks cut off the front of the original plan (R425) -/
  cut     : Nat := 0
  /-- examined since the last release (R218) -/
  examined : Bool := false
  deriving DecidableEq, Repr

/-- A plan as read from memory (R200, R201). -/
structure Plan where
  slack : Nat
  code  : Nat
  policy : Nat
  count : Nat
  ratio : Nat
  total : Nat
  rsvd  : Nat
  entries : List Word
  deriving DecidableEq, Repr

/-- A request in a calendar controller's queue (R205). -/
inductive CalReq where
  /-- BOOK of a context: package context, plan (none where an entry cannot be read), the plan's IA -/
  | book (c : Nat) (plan : Option Plan) (ia : Nat)
  /-- a BOOK whose context has stopped before the answer: package context, the pending result that goes to its save area,
  plan (R414) -/
  | bookSaved (c id : Nat) (plan : Option Plan)
  /-- CALQ of a context: package context, pending result, plan -/
  | calq (c id : Nat) (plan : Option Plan)
  /-- WSWAP of a free context: its tick and its flag (R253) -/
  | wswap (c : Nat) (tick : Nat) (flagEn : Bool) (flag : Nat)
  /-- a dispatcher books the start that it has found for a planned instance (R367): domain, SEQ, instance number, context,
  allotment and start tick -/
  | task (d seq i c base vcnt tick : Nat)
  /-- a release, asked for by a core (R112, R208, R211): the booking, the tick after which it ends, and whether HOLD entries
  stay -/
  | release (core bid tick : Nat) (keepHold : Bool)
  /-- a slip test of a pair, whose context `c` waits (R215) -/
  | slip (c p : Nat)
  deriving DecidableEq, Repr

/-- What belongs to a face: its calendar, its droop detector (R198, R223, R444). -/
structure Face where
  bookings : Tbl Booking := []
  /-- added refresh ticks and blackouts: row and tick owned by CTL (R220, R221, R253) -/
  ctl      : List (Nat × Nat) := []
  /-- refresh bookings have been written for every tick up to this one (R220) -/
  refreshed : Nat := 8191
  requests : List CalReq := []
  slips    : Nat := 0
  slipTicks : Nat := 0
  overruns : Nat := 0
  compMoves : Nat := 0
  dblref   : BitVec 8 := 0
  ratio    : BitVec 8 := 0
  ratioReq : BitVec 8 := 0
  ratioPend : BitVec 8 := 0
  /-- the blackout tick B of each pair with a change in progress (R221) -/
  ratioTick : Tbl Nat := []
  rowq     : BitVec 22 := 0
  /-- array allowance of pair p in 64ths, where it differs from 64 (R222, R224) -/
  tallow   : Tbl Nat := []
  /-- allowance before a thermal cut, by pair (R442, R448) -/
  tsaved   : Tbl Nat := []
  /-- allowance of each pair before the face was throttled (R442) -/
  fsaved   : Tbl Nat := []
  throttled : Bool := false
  /-- by link row: a tick, and the flits that it has carried in it and, by chunks that run on, in the next (R377) -/
  flits    : Tbl (Nat × Nat × Nat) := []
  /-- a release has taken place since the last compaction pass ended (R218) -/
  released : Bool := false
  /-- the array ticks of this span that passed bookings owned: pair index and tick (R222) -/
  armedPast : List (Nat × Nat) := []
  dvalid   : Bool := false
  dcount   : Nat := 0
  dgtc     : Word := 0
  dpc      : Tbl Word := []
  deriving DecidableEq, Repr

/-! ## Copy engines and collectives -/

/-- A write of a chunk that waits in its engine: the chunk, the cycle from which it may be made, whether the chunk stays in the
face's banks, and the block's bytes, payload, coat and poison (R258). -/
structure OutWrite where
  chunk : Nat
  due   : Nat
  near  : Bool
  va    : Nat
  len   : Nat
  mask  : Nat
  data  : Nat
  coat  : Option Coat := none
  bad   : Bool := false
  deriving DecidableEq, Repr

/-- The forms of a command in a copy engine's queue (R257, R383). -/
inductive CopyKind where
  | cpy
  | cpysl
  | cpymc
  | coll
  deriving DecidableEq, Repr

/-- A queued copy command with its group as sampled and its operands as IAs (R262, R263). -/
structure CopyCmd where
  id     : Nat
  kind   : CopyKind
  xop    : Nat := 0
  core   : Nat
  ctx    : Nat
  tag    : Nat
  pc     : Word
  bid    : Option Nat
  part   : Nat
  group  : List Word
  /-- the four words of the window of each operand, none where no window matched (R263) -/
  srcWin : List Word := []
  dstWin : List Word := []
  /-- the shadow half of the issuing pair at issue -/
  half   : Bool := false
  nfr    : Word := 0
  done   : Nat := 0
  started : Bool := false
  cancelled : Bool := false
  stop   : Option Nat := none
  poisoned : Bool := false
  mismatch : Bool := false
  /-- the cycles by which the chunks started end -/
  ends   : List Nat := []
  /-- chunks started -/
  chunks : Nat := 0
  /-- the cycle of its issue (R274) -/
  issued : Nat := 0
  /-- blocks read for a unit that takes more than one chunk, by VA -/
  buf    : Tbl (Nat × Coat) := []
  /-- the stream of an EXPAND as read, the payload blocks used, and that no more of it is read (R269) -/
  stream : List (Nat × Coat) := []
  taken  : Nat := 0
  ended  : Bool := false
  /-- the writes that wait in the engine (R258) -/
  out    : List OutWrite := []
  /-- the source of a multicast as read: payload and coat of each block (R272) -/
  source : List (Nat × Coat) := []
  /-- a collective member that has joined; the command stays queued until the collective completes (R383) -/
  joined : Bool := false
  parked : Bool := false
  /-- a booked chunk that found no start: it waits for its task's trap (R211) -/
  stuck  : Bool := false
  finished : Bool := false
  /-- the task instance that issued it: domain and SEQ (R370) -/
  task   : Option (Nat × Nat) := none
  deriving DecidableEq, Repr

/-- A copy engine (R256, R282). -/
structure Engine where
  queue  : List CopyCmd := []
  bytes  : Nat := 0
  errs   : Nat := 0
  parks  : Nat := 0
  /-- first cycle in which the next chunk may start (R258) -/
  free   : Nat := 0
  /-- staging-size table: sizes that differ from 0 (R183) -/
  staging : Tbl Nat := []
  deriving DecidableEq, Repr

/-- A member's entry of a group descriptor, with the state of its stream (R380, R385, R394, R395). -/
structure Member where
  peer   : Nat := 0
  pair   : Nat := 0
  cbase  : Nat := 0
  lrow   : Nat := 0
  loff   : Nat := 0
  pticks : Nat := 0
  sbuf   : Nat := 0
  rbuf   : Nat := 0
  joined : Bool := false
  /-- the COLL that joined: its core, context, tag, engine and command, LIMIT and booking -/
  core   : Nat := 0
  ctx    : Nat := 0
  tag    : Nat := 0
  eng    : Nat := 0
  cmd    : Nat := 0
  limit  : Word := 0
  bid    : Option Nat := none
  /-- planes sent in full, and flits sent of the plane that is being sent -/
  planes : Nat := 0
  flits  : Nat := 0
  /-- the send tiles of the plane that is being sent -/
  going  : List Nat := []
  /-- first cycle in which the next link step may start -/
  next   : Nat := 0
  stopped : Bool := false
  /-- send tile, scale and poisoned blocks, as read for the first plane (R387) -/
  scales : List (Nat × Byte × List Nat) := []
  /-- send tile and its blocks that contribute zeros, as read for the first plane (R387) -/
  silent : List (Nat × List Nat) := []
  /-- the send tiles of which a cancel has told the sender that no receiver wants more (R394) -/
  heard  : List Nat := []
  /-- the JOB of a peer package by whose message the member joined (R447) -/
  job    : Option Nat := none
  /-- a member of a peer package whose tiles have all ended and been sent, as its message says (R399) -/
  ended  : Bool := false
  deriving DecidableEq, Repr

/-- A receive tile of a collective (R385 to R392): its member and number, the planes landed, the planes that have
arrived, the cycle in which the landing in progress ends, and how the tile has ended. -/
structure RTile where
  m      : Nat
  t      : Nat
  planes : Nat := 0
  came   : List Nat := []
  busy   : Option Nat := none
  /-- cells of 128 bytes, of 32, that the plane in progress has written (R378, R385) -/
  wrote  : Nat := 0
  /-- a cancel waits for the landing in progress -/
  asked  : Bool := false
  cancelled : Bool := false
  failed : Bool := false
  mixed  : Bool := false
  /-- rows that take elements from a poisoned send block -/
  poisoned : List Nat := []
  /-- no later collective has armed its counter -/
  owns   : Bool := true
  deriving DecidableEq, Repr

/-- A collective from its first join to its completion (R384). -/
structure Coll where
  part   : Nat
  op     : Nat
  q      : Nat
  uns    : Bool
  nt     : Nat
  root   : Nat
  hdr    : Word
  members : List Member
  cancel : Bool := false
  absent : Bool := false
  peerlost : Bool := false
  /-- receive tiles of the members of this package that have joined, and those of others that are known cancelled -/
  tiles  : List RTile := []
  /-- planes of send tiles as sent, or delivered from a peer package: member, send tile, plane in order of sending, and the
  128 bytes of its two row patches (R385, R399) -/
  sent   : List (Nat × Nat × Nat × List Byte) := []
  deriving DecidableEq, Repr

/-! ## Domains: slices, translation, flash -/

/-- A cached line (R178, R179, R288). -/
structure Line where
  /-- the 64 bytes as a little-endian number -/
  data  : Nat
  coat  : Coat
  dirty : Bool := false
  owner : Nat
  way   : Nat
  deriving DecidableEq, Repr

/-- An L2 slice (R188). -/
structure Slice where
  w      : Nat := 16
  err    : Bool := false
  wNew   : Option Nat := none
  /-- a grown size is on its way to the tables (R184) -/
  sent   : Bool := false
  hits   : Nat := 0
  misses : Nat := 0
  wbacks : Nat := 0
  secc   : Nat := 0
  sunc   : Nat := 0
  /-- tree pseudo-LRU bits of each set (R181) -/
  plru   : Tbl Nat := []
  /-- retention counters of the domain's eight ranges (R187) -/
  retCnt : Tbl Nat := []
  deriving DecidableEq, Repr

/-- A retention range (R189). -/
structure Ret where
  lo    : Nat := 0
  hi    : Nat := 0
  en    : Bool := false
  ratio : Nat := 0
  ways  : Nat := 0
  /-- INACTIVE, as the last WAYPART change or RET write left it (R186) -/
  inactive : Bool := false
  deriving DecidableEq, Repr

/-- A page move in progress: page index, destination or source frame, the lines copied so far and whether a
write landed (R292, R293). -/
structure Move where
  page   : Nat
  frame  : Nat
  demote : Bool
  copied : List Nat := []
  wrote  : Bool := false
  /-- the demotion was abandoned by a write (R293) -/
  dead   : Bool := false
  deriving DecidableEq, Repr

/-- A write held until its page can take it (R288): the block's IA, the payload bits it writes and their values as
little-endian numbers and, where it writes one, the coat. -/
structure HeldWrite where
  ia   : Nat
  mask : Nat
  data : Nat
  coat : Option Coat := none
  part : Nat
  /-- the context whose store it is, if the slice keeps no line of it (R340) -/
  ctx  : Option Nat := none
  /-- the cycle of the store -/
  issued : Nat := 0
  deriving DecidableEq, Repr

/-- A read that waits for the flash port (R290): a pending result of a context, or a landing slot of a core. -/
inductive Forward where
  /-- one codeword, which takes `n` reads of the channel (R305, R306) -/
  | read (n : Nat)
  /-- what context `c` waits for under `id` has been read -/
  | load (c id : Nat)
  /-- what a landing slot waits for has been read -/
  | landing (core slot : Nat)
  deriving DecidableEq, Repr

/-- The memory side of a domain (R286 to R299). -/
structure Domain where
  ftbase : Nat := 0
  ftlen  : Nat := 0
  promo  : Nat := 0x40
  epochlen : Nat := 1000000
  lowwm  : Nat := 64
  highwm : Nat := 192
  ready  : List Nat := []
  hand   : Nat := 0
  sweeping : Bool := false
  pgBusy : Bool := false
  pgStatus : Nat := 0
  pgarg0 : Nat := 0
  pgarg1 : Word := 0
  l2Op   : Nat := 0
  l2Done : Bool := false
  l2lo   : Nat := 0
  l2hi   : Nat := 0
  promos : Nat := 0
  demos  : Nat := 0
  promskip : Nat := 0
  dropwb : Nat := 0
  fwdreads : Nat := 0
  tcmiss : Nat := 0
  epoch  : Nat := 0
  /-- translation cache: page key to the entry's two words (R287) -/
  tcache : Tbl (Word × Word) := []
  /-- promotions waiting: page index and whether it is a demand promotion (R292) -/
  promoQ : List (Nat × Bool) := []
  /-- pages whose demand promotion has found 64 pending, in order (R292, R298) -/
  promoWait : List Nat := []
  moves  : List Move := []
  heldW  : List HeldWrite := []
  /-- forwarded reads waiting for the flash port (R290) -/
  fwdQ   : List Forward := []
  ret    : Tbl Ret := []
  /-- versions of renamed pages: page index, fresh frame, SEQ of the task (R362) -/
  versions : List (Nat × Nat × Nat) := []
  deriving DecidableEq, Repr

/-- An erase block of a flash stack (R300 to R303). -/
structure Block where
  pe    : Nat := 0
  reads : Nat := 0
  free  : Bool := true
  bad   : Bool := false
  queued : Bool := false
  /-- codewords programmed since the last erase -/
  filled : Nat := 0
  deriving DecidableEq, Repr

/-- A job card (R279) with the progress of its reading. -/
structure Card where
  handle : Nat
  plane  : Nat
  stages : List Nat
  lba    : Nat
  crc    : Nat
  nblk   : Nat
  face   : Nat
  pmask  : Nat
  dstoff : Nat
  pstride : Nat
  coatv  : Nat
  dfmt   : Nat
  sfmt   : Nat
  ss     : Nat
  kseg   : Nat
  ncol   : Nat
  /-- half of each target pair written, as it stood at the start (R315) -/
  halves : Tbl Bool := []
  /-- the whole expert is in this card's extent (R310) -/
  whole  : Bool := false
  /-- STATUS of word 7, written at completion (R278) -/
  status : Nat := 0
  /-- blocks read so far: payload as a little-endian number, and coat -/
  blocks : List (Nat × Coat) := []
  /-- of those, the ones that have left the port's buffer, and the output blocks that have been written (R315) -/
  drained : Nat := 0
  wrote  : Nat := 0
  /-- an LBA of the extent was never written (R301) -/
  unmapped : Bool := false
  /-- LBA of the first codeword that failed (R319) -/
  uncorr : Option Nat := none
  /-- the last codeword has been read: the cycle from which the card may write (R315) -/
  lands  : Option Nat := none
  /-- its handle was dropped while it ran (R318) -/
  dropped : Bool := false
  /-- a partition reset has made its handle IDLE while it ran (R405) -/
  orphan : Bool := false
  deriving DecidableEq, Repr

/-- A handle command on its way to the port (R313, R316, R318). -/
structure HandleCmd where
  /-- 0 WHFETCH, 1 WHDROP, 2 a WHSTAT whose pending result is `id` -/
  kind  : Nat
  id    : Nat := 0
  c     : Nat
  h     : Nat
  part  : Nat
  descIa : Nat := 0
  q     : Nat := 0
  prio  : Bool := false
  dest  : Word := 0
  /-- the task instance that issued it: domain and SEQ (R370) -/
  task  : Option (Nat × Nat) := none
  deriving DecidableEq, Repr

/-- A weight handle (R311) with the descriptor in force and the planes started (R314). -/
structure Handle where
  owner : Nat := 0
  en    : Bool := false
  prio  : Bool := false
  req   : Nat := 0
  landed : Nat := 0
  /-- 0 IDLE, 1 PENDING, 2 PARTIAL, 3 READY, 4 ERROR -/
  st    : Nat := 0
  err   : Nat := 0
  desc  : Nat := 0
  dest  : Word := 0
  fgtc  : Word := 0
  lgtc  : Word := 0
  foot  : Nat := 0
  seq   : Nat := 0
  words : List Word := []
  started : Nat := 0
  deriving DecidableEq, Repr

/-- An activity of the translation layer (R302 to R304): 0 relocation, 1 collection, 2 static wear levelling, 3 patrol;
the block it empties, the LBAs still to copy or the codewords still to read, and the block that takes the copies where
it is not the layer's open block. -/
structure FlashJob where
  kind  : Nat
  block : Nat := 0
  left  : List Nat
  dest  : Option Nat := none
  deriving DecidableEq, Repr

/-- A flash stack, its translation layer and its port (R300 to R315). -/
structure Flash where
  /-- LBA to physical codeword number, for LBAs that have been written (R301) -/
  map    : Tbl Nat := []
  blocks : Tbl Block := []
  openHost : Option Nat := none
  openOwn : Option Nat := none
  relocQ : List Nat := []
  /-- blocks that found that queue full (R303) -/
  relocWait : List Nat := []
  spareUsed : Nat := 0
  grown  : Nat := 0
  reloc  : Nat := 0
  relocRd : Nat := 0
  uncorr : Nat := 0
  retries : Nat := 0
  chist  : Tbl Nat := []
  rdthr  : Nat := 100000
  patrol : Nat := 168
  wldelta : Nat := 500
  injArm : Bool := false
  injKind : Nat := 0
  injBits : Nat := 0
  injLba : Nat := 0
  injPage : Option Nat := none
  lifeEnd : Bool := false
  /-- the lifetime log in the system area of stacks 0 and 4: section, values, GTC (R446) -/
  syslog  : List (Nat × List Nat × Nat) := []
  /-- page last read for the current card (under 0) and by the layer's activity (under 2): its codewords make one page
  read (R303) -/
  lastPage : Tbl Nat := []
  cmds   : List HandleCmd := []
  order  : Nat := 0
  /-- the cards in progress in the order in which they started; the last one may still be read (R314, R315) -/
  cards  : List Card := []
  /-- the last card that has completed, with its STATUS (R279) -/
  lastCard : Option Card := none
  /-- partitions of the last 4,096 card blocks read, newest first: partition and blocks (R314) -/
  window : List (Nat × Nat) := []
  /-- first cycle in which the read channel is free (R306) -/
  chan : Nat := 0
  /-- first cycle in which the stack can take another program (R15, R300) -/
  progFree : Nat := 0
  /-- the layer's own activity in progress, and the codewords read for others since its last (R306) -/
  job  : Option FlashJob := none
  since : Nat := 0
  /-- the cycle of the last patrol (R304) -/
  patrolled : Nat := 0
  deriving DecidableEq, Repr

/-! ## Tasks and partitions -/

/-- A task that holds a slot (R353, R360). -/
structure Task where
  seq   : Nat
  part  : Nat
  queue : Nat
  slot  : Nat
  /-- the TCB as it stands in the slot, 16 words, HW among them -/
  tcb   : List Word
  plan  : Option Plan := none
  /-- VA given to SPAWN (R368) -/
  va    : Word
  /-- VA of the successor or counter that DONEACT named (R353) -/
  actVa : Nat := 0
  /-- SEQs of older tasks it waits for, and whether the edge waits for a commit (R360, R361) -/
  edges : List Nat := []
  /-- ranges as IA intervals: writes?, first byte, one past the last -/
  ranges : List (Bool × Nat × Nat) := []
  /-- pages renamed: page index and fresh frame (R362) -/
  renamed : List (Nat × Nat) := []
  next  : Nat := 0
  /-- instances that yielded and wait to start again (R371) -/
  yielded : List Nat := []
  /-- instances that have ended -/
  ended : Nat := 0
  running : List Nat := []
  blocked : Bool := false
  faulted : Bool := false
  slips : Nat := 0
  complete : Bool := false
  dispatched : Bool := false
  /-- CTXID of the context that ended an instance last, the spawner's until then (R373) -/
  lastCtx : Word := 0
  deriving DecidableEq, Repr

/-- A dispatcher (R364, R375). -/
structure Dispatcher where
  lseed : BitVec 32 := 1
  steps : Nat := 0
  block : Nat := 0
  seq   : Nat := 0
  tasks : List Task := []
  deriving DecidableEq, Repr

/-- A task queue's registers (R354). -/
structure Queue where
  base  : Nat := 0
  lsize : Nat := 0
  dom   : Nat := 0
  en    : Bool := false
  tickets : Nat := 0
  wset  : Nat := 0
  fulls : Nat := 0
  deriving DecidableEq, Repr

/-- The successor of a task that had no instances, which is spawned in the next cycle: its queue, IA and VA, the CTXID
under which it is spawned, and the slot, SEQ and deadline for the record of one that is dropped (R358, R370, R373). -/
structure SpawnReq where
  part  : Nat
  queue : Nat
  ia    : Nat
  va    : Nat
  id    : Word
  slot  : Nat := 0
  seq   : Nat := 0
  deadline : Nat := 0
  deriving DecidableEq, Repr

/-- A partition's control block, status queue and peer table (R99, R374, R398, R404). -/
structure Part where
  pfaces : BitVec 32 := 0
  supctx : Nat := 0
  /-- the partition has a supervisor context (R402) -/
  hasSup : Bool := false
  rbusy  : Bool := false
  fquota : Nat := 0
  wdlimit : Nat := 0
  stoppc : Word := 0
  stopctl : Word := 0
  table  : Nat := 0
  badidx : Nat := 0
  startErr : Nat := 0
  run    : Bool := false
  compactoff : Bool := false
  spill  : Bool := false
  fshare : Nat := 64
  savebase : Nat := 0
  msgbase : Nat := 0
  msgLsize : Nat := 0
  msgEn  : Bool := false
  msgFlag : Nat := 0
  msgFlagEn : Bool := false
  msghead : BitVec 32 := 0
  msgtail : BitVec 32 := 0
  msglost : Nat := 0
  sqbase : Nat := 0
  sqLsize : Nat := 0
  sqEn   : Bool := false
  sqhead : BitVec 32 := 0
  sqtail : BitVec 32 := 0
  sqlost : Nat := 0
  peers  : Tbl Word := []
  deriving DecidableEq, Repr

/-- An RFT or CTXRUN on its way (R422, R423). -/
structure Resume where
  id     : Nat
  /-- package context number of the target; none for RFT, which takes it from the header -/
  target : Option Nat
  sa     : Nat
  part   : Nat
  priv   : Nat
  /-- a CTXSTOP of the target was processed first (R424) -/
  stopped : Bool := false
  /-- the remainder has been readmitted: the context starts at its start tick (R425) -/
  booked  : Bool := false
  deriving DecidableEq, Repr

/-! ## The platform -/

/-- Where the package is in its start (R432 to R438). -/
inductive Boot where
  /-- power has been applied; no step of R432 has run -/
  | off
  /-- step 4 has run; STARTOK is awaited -/
  | starting
  | running
  /-- minimal mode (R434) -/
  | minimal
  /-- the thermal trip has stopped every clock (R442) -/
  | tripped
  deriving DecidableEq, Repr

/-- A repair record of a die (R432, R438): its version, the lanes that it repairs, and its CRC-32C. -/
structure RepairRecord where
  version : Nat
  lanes   : List Byte
  check   : Nat
  deriving DecidableEq, Repr

/-- The platform registers and what firmware keeps (R431 to R446). -/
structure Platform where
  boot     : Boot := .off
  starts   : Nat := 0
  fails    : Nat := 0
  lastfail : Nat := 0
  cause    : Nat := 0
  plimit   : Nat := 3600
  hrej     : Nat := 0
  meas     : Tbl (BitVec 512) := []
  /-- the stored firmware image, and the one transferred and checked (R434) -/
  image    : List Byte := []
  newImage : Option (List Byte) := none
  /-- the last image write was not interrupted (R435) -/
  imageWhole : Bool := true
  timestamp : Word := 0
  /-- event records: kind and GTC (R431, R442) -/
  events   : List (Nat × Nat) := []
  /-- contexts that a PREEMPT command waits for (R431) -/
  preempts : List Nat := []
  /-- the on-die repair record of each die, and its soft-repair registers once loaded (R432, R438) -/
  records  : Tbl RepairRecord := []
  soft     : Tbl (List Byte) := []
  /-- messages that go to firmware (R409, R411), as their eight words -/
  fwmsgs   : List (List Word) := []
  /-- answer of the last host read or mailbox command, and its return code -/
  reply    : List Byte := []
  rc       : Nat := 0
  /-- the cycle by which the last image write is complete (R435) -/
  imageDone : Nat := 0
  deriving DecidableEq, Repr

/-! ## The machine -/

/-- What leaves for software in GTC order (R374, R412): a status record of a partition, or a message to its supervisor, or to
firmware. -/
inductive Post where
  | record (p : Nat) (ws : List Word)
  | message (p : Nat) (toFirmware : Bool) (ws : List Word)
  deriving DecidableEq, Repr

/-- A staging size on its way to the table of a core, or from 512 on of a copy engine (R183, R184). -/
structure SizeSend where
  due   : Nat
  unit  : Nat
  slice : Nat
  size  : Nat
  deriving DecidableEq, Repr

/-- Something the current cycle still has to do: an event, the mark of a freeze, or the issue of a core (R37). -/
inductive Item where
  | event (i : Instr)
  /-- the 32-cycle mark of a frozen pair (R215) -/
  | mark (p : Nat)
  /-- a write to configuration space: privilege, partition, address and value (R7, R450) -/
  | write (priv p ia : Nat) (v : Word)
  /-- RELOCATION of flash stack `n` (R303) -/
  | relocate (n : Nat)
  /-- the oldest successor of a task without instances is spawned (R358) -/
  | successor
  /-- what a temperature asks for: DOUBLE_REFRESH_ENTRY (0) or DOUBLE_REFRESH_EXIT (1) of pair `n`, FACE_THROTTLE (2) or
  FACE_THROTTLE_END (3) of face `n` (R442, R448) -/
  | thermal (kind n : Nat)
  /-- the banks that arrays, copies and collectives take in the next cycle are found, before the cores issue (R172) -/
  | foresee
  | issue (core : Nat)
  /-- the current context of a core has left FREE at a stop point: the next one becomes current (R110) -/
  | pass (core : Nat)
  /-- the calendar controllers process what has been asked of them in this cycle (R205) -/
  | requests
  deriving DecidableEq, Repr

/-- A timed event: the cycle it is due, its source number (R441) and the event. -/
structure Timed where
  due : Nat
  src : Nat
  ev  : Instr
  deriving DecidableEq, Repr

/-- A context that START will start: its cycle, the context and its start-vector entry (R98, R100). -/
structure Launch where
  due   : Nat
  core  : Nat
  words : List Word
  deriving DecidableEq, Repr

/-- How the slot word that was last executed ended. -/
inductive Verdict where
  | committed
  | trapped (k : Cause)
  /-- the bundle must wait; 0 an occupancy or a bank, which does not block; 1 a wait that blocks (R40, R110) -/
  | held (blocks : Bool)
  deriving DecidableEq, Repr

/-- The point of issue: the slot word that is being executed, for which context and at which bundle. -/
structure Issue where
  core    : Nat := 0
  ctx     : Nat := 0
  slot    : Nat := 0
  pc      : Word := 0
  verdict : Verdict := .committed
  /-- the whole bundle has been found free to issue: the slot does not check again (R37) -/
  sure    : Bool := false
  deriving DecidableEq, Repr

/-- The whole package. -/
structure State where
  /-- face cycles since the cold start (R14, R198) -/
  cycle  : Nat := 0
  todo   : List Item := []
  agenda : List Timed := []
  iss    : Issue := {}
  /-- the model's own counter of occasions, to which the free values of Config are applied -/
  fresh  : Nat := 0
  mem    : List Host.Cell := []
  coats  : Tbl Coat := []
  ctxs   : Tbl Ctx := []
  cores  : Tbl Core := []
  pairs  : Tbl Pair := []
  faces  : Tbl Face := []
  engines : Tbl Engine := []
  slices : Tbl Slice := []
  lines  : Tbl Line := []
  doms   : Tbl Domain := []
  /-- FTBASE and FTLEN of region 0x8 (R299) -/
  ft8base : Nat := 0
  ft8len : Nat := 0
  flash  : Tbl Flash := []
  handles : Tbl Handle := []
  disps  : Tbl Dispatcher := []
  queues : Tbl Queue := []
  parts  : Tbl Part := []
  colls  : Tbl Coll := []
  spawns : List SpawnReq := []
  resumes : List Resume := []
  launches : List Launch := []
  sizes  : List SizeSend := []
  /-- what this nanosecond of GTC posts, each with the number of its source, four times a unit's or a context's: it leaves in that
  order as the nanosecond ends (R374, R412, R441) -/
  outbox : List (Nat × Post) := []
  plat   : Platform := {}
  deriving DecidableEq, Repr

/-- Why a run stops. The manual gives every instruction and event of the PX7 an effect, a trap included, so the
one fault is the clock that a thermal trip has stopped. -/
inductive Fault where
  /-- Raised by `step` after THERMTRIP, whose row stops every die's clocks until the next cold start (R442).
  Safe: nothing goes on. -/
  | clocksStopped
  deriving DecidableEq, Repr

/-- Why the model gives an instruction no meaning. -/
inductive Refusal where
  /-- Raised by `exec` for a constructor that has no meaning yet. Safe: nothing can be proved of it. -/
  | notModelled (mnemonic : String)
  deriving DecidableEq, Repr

/-- Power has been applied: every register holds its reset value (or the one the assumption log names), no memory
is listed, and the cold start of R432 is the first thing to happen. -/
def State.reset : State := { todo := [.event .coldStart] }

end Sys2Proof.Machine
end

