-- ==== Sys2Proof/Machine/Units.lean ====
section
/-! DEFINITION. Sparse tables, the units of the package and how they are numbered (R1, R2), and time. -/

namespace Sys2Proof

/-- What a table holds under key `k`; `d` is what an unlisted key holds. -/
def Tbl.look {α : Type} : List (Nat × α) → Nat → α → α
  | [], _, d => d
  | (j, x) :: t, k, d => if j = k then x else Tbl.look t k d

/-- The entry of key `k`, if it is listed. -/
def Tbl.find {α : Type} : List (Nat × α) → Nat → Option α
  | [], _ => none
  | (j, x) :: t, k => if j = k then some x else Tbl.find t k

/-- The table with `v` under key `k`. -/
def Tbl.put {α : Type} : List (Nat × α) → Nat → α → List (Nat × α)
  | [], k, v => [(k, v)]
  | (j, x) :: t, k, v =>
    if k < j then (k, v) :: (j, x) :: t
    else if k = j then (k, v) :: t
    else (j, x) :: Tbl.put t k v

/-- The table without key `k`. -/
def Tbl.del {α : Type} (t : List (Nat × α)) (k : Nat) : List (Nat × α) := t.filter (fun e => e.1 != k)

namespace Machine

/-! ## Numbering (R1, R2) -/

def pairOf (core : Nat) : Nat := core / 2
def faceOf (core : Nat) : Nat := core / 16
def domOf (core : Nat) : Nat := core / 64
def dieOf (core : Nat) : Nat := core / 128
def coreOf (c : Nat) : Nat := c / 4
def ctxOf (c : Nat) : Nat := c % 4

/-! ## Time (R14, R440) -/

/-- The global time counter in ns: 1.8 GHz face cycles at 5/9 ns. -/
def State.gtc (s : State) : Nat := s.cycle * 5 / 9
/-- The tick of the current cycle (R6). -/
def State.tick (s : State) : Nat := s.cycle / 32
/-- The first cycle at or after a GTC. -/
def cycleOfNs (ns : Nat) : Nat := (ns * 9 + 4) / 5
def State.gtcWord (s : State) : Word := BitVec.ofNat 64 s.gtc

/-! ## The units of the state -/

def State.ctx (s : State) (c : Nat) : Ctx := Tbl.look s.ctxs c {}
def State.setCtx (s : State) (c : Nat) (x : Ctx) : State := { s with ctxs := Tbl.put s.ctxs c x }
def State.onCtx (s : State) (c : Nat) (f : Ctx → Ctx) : State := s.setCtx c (f (s.ctx c))

def State.core (s : State) (c : Nat) : Core := Tbl.look s.cores c {}
def State.setCore (s : State) (c : Nat) (x : Core) : State := { s with cores := Tbl.put s.cores c x }
def State.onCore (s : State) (c : Nat) (f : Core → Core) : State := s.setCore c (f (s.core c))

def State.pair (s : State) (p : Nat) : Pair := Tbl.look s.pairs p {}
def State.setPair (s : State) (p : Nat) (x : Pair) : State := { s with pairs := Tbl.put s.pairs p x }
def State.onPair (s : State) (p : Nat) (f : Pair → Pair) : State := s.setPair p (f (s.pair p))

def State.face (s : State) (f : Nat) : Face := Tbl.look s.faces f {}
def State.setFace (s : State) (f : Nat) (x : Face) : State := { s with faces := Tbl.put s.faces f x }
def State.onFace (s : State) (f : Nat) (g : Face → Face) : State := s.setFace f (g (s.face f))

def State.engine (s : State) (e : Nat) : Engine := Tbl.look s.engines e {}
def State.setEngine (s : State) (e : Nat) (x : Engine) : State := { s with engines := Tbl.put s.engines e x }
def State.onEngine (s : State) (e : Nat) (f : Engine → Engine) : State := s.setEngine e (f (s.engine e))

def State.slice (s : State) (n : Nat) : Slice := Tbl.look s.slices n {}
def State.setSlice (s : State) (n : Nat) (x : Slice) : State := { s with slices := Tbl.put s.slices n x }
def State.onSlice (s : State) (n : Nat) (f : Slice → Slice) : State := s.setSlice n (f (s.slice n))

def State.dom (s : State) (d : Nat) : Domain := Tbl.look s.doms d {}
def State.setDom (s : State) (d : Nat) (x : Domain) : State := { s with doms := Tbl.put s.doms d x }
def State.onDom (s : State) (d : Nat) (f : Domain → Domain) : State := s.setDom d (f (s.dom d))

def State.stack (s : State) (n : Nat) : Flash := Tbl.look s.flash n {}
def State.setStack (s : State) (n : Nat) (x : Flash) : State := { s with flash := Tbl.put s.flash n x }
def State.onStack (s : State) (n : Nat) (f : Flash → Flash) : State := s.setStack n (f (s.stack n))

def State.handle (s : State) (h : Nat) : Handle := Tbl.look s.handles h {}
def State.setHandle (s : State) (h : Nat) (x : Handle) : State := { s with handles := Tbl.put s.handles h x }
def State.onHandle (s : State) (h : Nat) (f : Handle → Handle) : State := s.setHandle h (f (s.handle h))

def State.disp (s : State) (d : Nat) : Dispatcher := Tbl.look s.disps d {}
def State.setDisp (s : State) (d : Nat) (x : Dispatcher) : State := { s with disps := Tbl.put s.disps d x }
def State.onDisp (s : State) (d : Nat) (f : Dispatcher → Dispatcher) : State := s.setDisp d (f (s.disp d))

/-- Queue `q` of partition `p` is kept under 16p + q (R354). -/
def State.queue (s : State) (n : Nat) : Queue := Tbl.look s.queues n {}
def State.setQueue (s : State) (n : Nat) (x : Queue) : State := { s with queues := Tbl.put s.queues n x }
def State.onQueue (s : State) (n : Nat) (f : Queue → Queue) : State := s.setQueue n (f (s.queue n))

def State.part (s : State) (p : Nat) : Part := Tbl.look s.parts p {}
def State.setPart (s : State) (p : Nat) (x : Part) : State := { s with parts := Tbl.put s.parts p x }
def State.onPart (s : State) (p : Nat) (f : Part → Part) : State := s.setPart p (f (s.part p))

/-- Staging bytes of a slice whose cache keeps `w` ways (R182). -/
def stageSize (w : Nat) : Nat := (16 - w) * 0x10000

def State.onPlat (s : State) (f : Platform → Platform) : State := { s with plat := f s.plat }

/-- An entry of the lifetime log, in both of its copies: its section in the order of R446 from 0, values, and GTC. -/
def State.logEntry (s : State) (sect : Nat) (values : List Nat) : State :=
  [0, 4].foldl (fun s n => s.onStack n fun f => { f with syslog := f.syslog ++ [(sect, values, s.gtc)] }) s

/-- The lifetime log: its sections in the order of R446. -/
def State.lifetimeLog (s : State) : List (List (Nat × List Nat × Nat)) :=
  (List.range 9).map fun k => (s.stack 0).syslog.filter fun e => e.1 == k

/-- A collective by its number, 2^48 times its partition plus its CID, if it is going on. -/
def State.coll? (s : State) (k : Nat) : Option Coll := Tbl.find s.colls k
def State.setColl (s : State) (k : Nat) (x : Coll) : State := { s with colls := Tbl.put s.colls k x }

/-! ## Partitions (R402) -/

/-- The partition that owns a face: at most one does (R402, R404). -/
def State.ownerOf (s : State) (f : Nat) : Option Nat :=
  (List.range 16).find? fun p => (s.part p).pfaces.getLsbD f

/-- Partition `p` owns face `f`. -/
def State.owns (s : State) (p f : Nat) : Bool := (s.part p).pfaces.getLsbD f

/-- The partition of a core; a core of an unowned face counts as one of partition 0's (R402). -/
def State.partOf (s : State) (core : Nat) : Nat := (s.ownerOf (faceOf core)).getD 0

/-- The faces of a partition, ascending. -/
def State.facesOf (s : State) (p : Nat) : List Nat := (List.range 32).filter (s.owns p)

/-- The package context numbers of the contexts that are listed. -/
def State.ctxNums (s : State) : List Nat := s.ctxs.map Prod.fst

/-! ## Occasions and the agenda -/

/-- The next occasion's number, for a free value of Config; every use takes a new one. -/
def State.bump (s : State) : State := { s with fresh := s.fresh + 1 }

/-- Source numbers of R441. -/
def srcCore (c : Nat) : Nat := c
def srcArray (p : Nat) : Nat := 0x200 + p
def srcCopy (e : Nat) : Nat := 0x300 + e
def srcFlash (d : Nat) : Nat := 0x380 + d
def srcHbm (d : Nat) : Nat := 0x388 + d
def srcCal (f : Nat) : Nat := 0x390 + f
def srcDisp (d : Nat) : Nat := 0x3B0 + d
def srcHost : Nat := 0x3C0
def srcPort : Nat := 0x3C1
def srcMgmt : Nat := 0x3C2
/-- The receive writes of collectives and what ends them: R441 gives them no number; R172 orders them after the copies. -/
def srcFabric : Nat := 0x3C3
def srcSensor : Nat := 0x400

/-- An event that becomes due at cycle `due`; events of one cycle are taken by source number and then in the order
in which they were scheduled (R441). -/
def State.schedule (s : State) (due src : Nat) (ev : Instr) : State :=
  { s with agenda := s.agenda ++ [{ due := due, src := src, ev := ev }] }

/-- The event is dropped from the agenda. -/
def State.unschedule (s : State) (ev : Instr) : State :=
  { s with agenda := s.agenda.filter fun t => t.ev != ev }

end Machine
end Sys2Proof
end

