-- ==== Sys2Proof/Machine/Book.lean ====
section
/-! DEFINITION. The rows of a face's calendar: who owns a tick, the next tick that is not free, and the release of
bookings (R198, R199, R210, R211, R220). -/

namespace Sys2Proof.Machine

/-- Row numbers of R199. -/
def rowCore (core : Nat) : Nat := core % 16
def rowArray (p half : Nat) : Nat := 0x010 + 2 * (p % 8) + half
def rowBank (p b : Nat) : Nat := 0x020 + 32 * (p % 8) + b
def rowWRead (p : Nat) : Nat := 0x120 + 2 * (p % 8)
def rowWWrite (p : Nat) : Nat := 0x121 + 2 * (p % 8)
def rowSlice (n : Nat) : Nat := 0x130 + n % 48
def rowCopy (e : Nat) : Nat := 0x160 + e % 4
def rowLink (i : Nat) : Nat := 0x164 + i

/-- The owner of a tick on a row (R199). -/
inductive Owner where
  | free
  | ctl
  | bid (n : Nat)
  deriving DecidableEq, Repr

def RowUse.covers (u : RowUse) (row t : Nat) : Bool := u.row == row && u.first ≤ t && t < u.first + u.len

/-- The pair whose weight-bank row this is. -/
def wbankRowPair (row : Nat) : Option Nat := if 0x120 ≤ row ∧ row < 0x130 then some ((row - 0x120) / 2) else none

/-- The normal refresh ticks of a weight-bank row that have entered the window (R220). -/
def Face.refreshTick (f : Face) (row t : Nat) : Bool :=
  match wbankRowPair row with
  | some p => t ≤ f.refreshed && t % 64 == 8 * p
  | none => false

/-- The owner of tick `t` on a row (R199). -/
def Face.owner (f : Face) (row t : Nat) : Owner :=
  if f.refreshTick row t || f.ctl.contains (row, t) then .ctl
  else match f.bookings.find? fun b => b.2.rows.any fun u => u.covers row t with
    | some b => .bid b.1
    | none => .free

def Face.isFree (f : Face) (row t : Nat) : Bool := f.owner row t == .free

/-- The least tick at or after `t` at which the row is not FREE. -/
def Face.nextTaken (f : Face) (row t : Nat) : Option Nat :=
  let cands :=
    ((f.bookings.map fun b => b.2.rows).flatten.filterMap fun u =>
      if u.row == row && t < u.first + u.len then some (max t u.first) else none) ++
    (f.ctl.filterMap fun x => if x.1 == row && t ≤ x.2 then some x.2 else none) ++
    (match wbankRowPair row with
      | some p => let r := t + (8 * p + 64 - t % 64) % 64
                  if r ≤ f.refreshed then [r] else []
      | none => [])
  cands.min?

/-- The row is FREE in every cycle from `c` to `e`. -/
def Face.freeCycles (f : Face) (row c e : Nat) : Bool :=
  match f.nextTaken row (c / 32) with
  | none => true
  | some t => decide (e < 32 * t)

/-- The row is owned by booking `b` in every tick from cycle `c` to `e`. -/
def Face.ownedCycles (f : Face) (b row c e : Nat) : Bool :=
  (List.range (e / 32 - c / 32 + 1)).all fun i => f.owner row (c / 32 + i) == .bid b

/-- A row use cut to its ticks up to `t`; a HOLD entry stays whole when `keepHold`. -/
def RowUse.cutAfter (u : RowUse) (t : Nat) (keepHold : Bool) : Option RowUse :=
  if keepHold && u.hold then some u
  else if t < u.first then none
  else some { u with len := min u.len (t + 1 - u.first) }

/-- A release has taken place: every plan is to be examined again (R218). -/
def Face.noteRelease (f : Face) : Face :=
  { f with bookings := f.bookings.map fun (i, y) => (i, { y with examined := false }), released := true }

/-- Bookings of `b` after tick `t` become FREE; the id returns when nothing is left (R199, R208, R211). It is a release where
some tick becomes FREE (R218). -/
def Face.release (f : Face) (b t : Nat) (keepHold : Bool) : Face :=
  match Tbl.find f.bookings b with
  | none => f
  | some x =>
    let rows := x.rows.filterMap fun u => u.cutAfter t keepHold
    if rows = x.rows then f
    else { f with bookings := if rows.isEmpty then Tbl.del f.bookings b else Tbl.put f.bookings b { x with rows := rows } }.noteRelease

/-- That release makes some tick FREE. -/
def Face.frees (f : Face) (b t : Nat) (keepHold : Bool) : Bool :=
  (Tbl.find f.bookings b).any fun x => (x.rows.filterMap fun u => u.cutAfter t keepHold) != x.rows

/-- The source number of a request (R205, R441). -/
def CalReq.src : CalReq → Nat
  | .book c _ _ => srcCore (coreOf c)
  | .bookSaved c _ _ => srcCore (coreOf c)
  | .calq c _ _ => srcCore (coreOf c)
  | .wswap c _ _ _ => srcCore (coreOf c)
  | .task d _ _ _ _ _ _ => srcDisp d
  | .release core _ _ _ => srcCore core
  | .slip c _ => srcCore (coreOf c)

/-- Stable insertion by source number. -/
def insReq (r : CalReq) : List CalReq → List CalReq
  | [] => [r]
  | q :: t => if q.src ≤ r.src then q :: insReq r t else r :: q :: t

/-- A request enters the controller's queue: its queue holds those of one cycle, lower sources first (R205). -/
def Face.ask (f : Face) (r : CalReq) : Face := { f with requests := insReq r f.requests }

/-- A release in a domain makes its blocked tasks eligible again (R366). -/
def State.unblock (s : State) (d : Nat) : State :=
  s.onDisp d fun x => { x with tasks := x.tasks.map fun t => { t with blocked := false } }

/-- The controller is asked to release the bookings of a context after the current tick (R112, R205, R208, R211). -/
def State.releaseBooking (s : State) (c : Nat) (keepHold : Bool) : State :=
  match (s.ctx c).bid with
  | none => s
  | some b => s.onFace (faceOf (coreOf c)) fun f => f.ask (.release (coreOf c) b s.tick keepHold)

/-- The controller of face `f` releases what booking `b` holds after tick `t`; where that frees a tick, blocked tasks of the
domain are eligible again (R211, R218, R366). -/
def State.release (s : State) (f b t : Nat) (keepHold : Bool) : State :=
  if (s.face f).frees b t keepHold then (s.onFace f fun x => x.release b t keepHold).unblock (f / 4) else s

/-- The controller is asked for a slip test of a pair that is frozen for context `c` (R205, R215). -/
def State.askSlip (s : State) (c p : Nat) : State := s.onFace (p / 8) fun f => f.ask (.slip c p)

/-- An instruction-buffer half that a booking held is free again (R113). -/
def State.freeBuffer (s : State) (core bid : Nat) : State :=
  s.onCore core fun k => { k with ibuf := k.ibuf.filter fun h => h.bid != bid }

/-- The first tick that booking `b` owns on `row` at or after `t`, with the run of owned ticks from there. -/
def Face.ownedFrom (f : Face) (b row t : Nat) : Bool :=
  match Tbl.find f.bookings b with
  | none => false
  | some x => x.rows.any fun u => u.row == row && t < u.first + u.len

/-- The booking still has ticks, and is that of context `c` (R199, R257). -/
def State.holdsBid (s : State) (c b : Nat) : Bool :=
  match Tbl.find (s.face (faceOf (coreOf c))).bookings b with
  | some x => x.ctx == some c
  | none => false

end Sys2Proof.Machine
end

