-- ==== Sys2Proof/Machine/Float.lean ====
section
/-! DEFINITION. Floating point: exact values, rounding, the F32 operations and the conversions (R54 to R60, R69, R147,
R148).

Values are exact: a natural magnitude times a power of two, with a sign. Only the rounding functions lose bits (R9). -/

namespace Sys2Proof.Machine

/-- What a floating-point pattern stands for: a NaN, an infinity, or the exact value ±m × 2^e. -/
inductive Fv where
  | nan
  | inf (neg : Bool)
  | fin (neg : Bool) (m : Nat) (e : Int)
  deriving DecidableEq, Repr

/-- A format of R56: exponent and fraction widths; E4M3 has no infinity and one NaN fraction. -/
structure FFmt where
  eb : Nat
  fb : Nat
  ieee : Bool := true
  deriving DecidableEq, Repr

def fmtF32 : FFmt := { eb := 8, fb := 23 }
def fmtBF16 : FFmt := { eb := 8, fb := 7 }
def fmtF16 : FFmt := { eb := 5, fb := 10 }
def fmtE4M3 : FFmt := { eb := 4, fb := 3, ieee := false }
def fmtE5M2 : FFmt := { eb := 5, fb := 2 }

/-- The exponent bias of R56. -/
def FFmt.bias (f : FFmt) : Nat := 2 ^ (f.eb - 1) - 1
/-- The exponent of the smallest normal value. -/
def FFmt.emin (f : FFmt) : Int := 1 - (f.bias : Int)
/-- The exponent of the last place of a subnormal value. -/
def FFmt.qmin (f : FFmt) : Int := f.emin - f.fb

/-- The value of a pattern of the format (R56). -/
def FFmt.decode (f : FFmt) (x : Nat) : Fv :=
  let neg := x / 2 ^ (f.eb + f.fb) % 2 == 1
  let ex := x / 2 ^ f.fb % 2 ^ f.eb
  let fr := x % 2 ^ f.fb
  let top := ex == 2 ^ f.eb - 1
  if f.ieee && top then (if fr == 0 then .inf neg else .nan)
  else if !f.ieee && top && fr == 2 ^ f.fb - 1 then .nan
  else if ex == 0 then .fin neg fr f.qmin
  else .fin neg (2 ^ f.fb + fr) ((ex : Int) - f.bias - f.fb)

/-- m / 2^k rounded to nearest, ties to even. -/
def shrRne (m k : Nat) : Nat :=
  let q := m >>> k
  let r := m - q <<< k
  if 2 ^ k < 2 * r || (2 * r == 2 ^ k && k != 0 && q % 2 == 1) then q + 1 else q

/-- The magnitude m × 2^e rounded to `p` significant bits, no place below 2^qmin (R9). -/
def roundMag (rtz : Bool) (p : Nat) (qmin : Int) (m : Nat) (e : Int) : Nat × Int :=
  let len : Int := if m = 0 then 0 else m.log2 + 1
  let k := max (len - p) (qmin - e)
  if k ≤ 0 then (m, e)
  else if len + 1 < k then (0, e + k)
  else (if rtz then m >>> k.toNat else shrRne m k.toNat, e + k)

/-- The pattern of a rounded magnitude; `big` is given when it exceeds the exponent range (R57). -/
def FFmt.pack (f : FFmt) (neg : Bool) (m : Nat) (e : Int) (big : Nat) : Nat :=
  let sgn := if neg then 2 ^ (f.eb + f.fb) else 0
  if m = 0 then sgn
  else
    let l := m.log2
    let ex : Int := e + l
    let top : Int := if f.ieee then f.bias else f.bias + 1
    if top < ex then sgn + big
    else if ex < f.emin then sgn + m * 2 ^ (e - f.qmin).toNat
    else
      let mant := if l ≤ f.fb then m <<< (f.fb - l) else m >>> (l - f.fb)
      sgn + (ex + f.bias).toNat * 2 ^ f.fb + (mant - 2 ^ f.fb)

/-- The infinity of a format with infinities. -/
def FFmt.infBits (f : FFmt) : Nat := (2 ^ f.eb - 1) * 2 ^ f.fb
/-- The largest finite magnitude (R56). -/
def FFmt.maxBits (f : FFmt) : Nat := if f.ieee then f.infBits - 1 else 2 ^ (f.eb + f.fb) - 2

/-- rne32 of ±m × 2^e (R9); a zero magnitude keeps the sign. -/
def rne32 (neg : Bool) (m : Nat) (e : Int) : Lane :=
  let r := roundMag false 24 (-149) m e
  BitVec.ofNat 32 (fmtF32.pack neg r.1 r.2 fmtF32.infBits)

/-- rtz32 of ±m × 2^e (R9). -/
def rtz32 (neg : Bool) (m : Nat) (e : Int) : Lane :=
  let r := roundMag true 24 (-149) m e
  BitVec.ofNat 32 (fmtF32.pack neg r.1 r.2 fmtF32.maxBits)

/-- rne32 of an integer times a power of two; zero gives +0. -/
def rneInt (x : Int) (e : Int) : Lane := rne32 (decide (x < 0)) x.natAbs e
/-- rtz32 of an integer. -/
def rtzInt (x : Int) : Lane := rtz32 (decide (x < 0)) x.natAbs 0

/-- The value of an F32 lane (R54). -/
def fv (x : Lane) : Fv := fmtF32.decode x.toNat

def isNan (x : Lane) : Bool := x.toNat / 2 ^ 23 % 256 == 255 && x.toNat % 2 ^ 23 != 0
/-- Bit 22 set, all other bits kept (R59). -/
def quiet (x : Lane) : Lane := x ||| 0x00400000

/-- The HASH of an origin NaN: hash12(PC) of R58. -/
def hash12 (pc : Word) : BitVec 12 := pc.extractLsb' 5 12 ^^^ pc.extractLsb' 17 12 ^^^ pc.extractLsb' 29 12

/-- The origin NaN of R58. -/
def originNaN (pc : Word) (lane : Nat) : Lane :=
  0x7FC00000 ||| ((hash12 pc).zeroExtend 32 <<< 10) ||| BitVec.ofNat 32 (lane % 1024)

/-- The signed mantissa of a finite value at the exponent `e0`, which is at most its own. -/
def atExp (neg : Bool) (m : Nat) (e e0 : Int) : Int :=
  let x : Int := ((m <<< (e - e0).toNat : Nat) : Int)
  if neg then -x else x

/-- rne32 of the exact sum of two finite values; an exact zero is −0 only when both terms are negative zeros. -/
def addFin (n1 : Bool) (m1 : Nat) (e1 : Int) (n2 : Bool) (m2 : Nat) (e2 : Int) : Lane :=
  let e0 := min e1 e2
  let s := atExp n1 m1 e1 e0 + atExp n2 m2 e2 e0
  if s = 0 then rne32 (n1 && n2 && m1 == 0 && m2 == 0) 0 0 else rneInt s e0

/-- The first NaN among the operands, quietened (R59), or the result of `f`. -/
def withNan (ops : List Lane) (f : Lane) : Lane :=
  match ops.find? isNan with
  | some x => quiet x
  | none => f

/-- rne32(a + b), an origin NaN for ∞ − ∞ (R57 to R59). -/
def fadd (org a b : Lane) : Lane :=
  withNan [a, b] <| match fv a, fv b with
  | .inf n1, .inf n2 => if n1 == n2 then a else org
  | .inf _, _ => a
  | _, .inf _ => b
  | .fin n1 m1 e1, .fin n2 m2 e2 => addFin n1 m1 e1 n2 m2 e2
  | _, _ => org

/-- The sign inverted. -/
def fneg (x : Lane) : Lane := x ^^^ 0x80000000

/-- rne32(a − b): the NaN order is a then b, and a NaN b keeps its own sign (R59). -/
def fsub (org a b : Lane) : Lane := withNan [a, b] (fadd org a (fneg b))

/-- rne32(a × b + c), one rounding (R58, R59, R145). -/
def ffma (org a b c : Lane) : Lane :=
  withNan [a, b, c] <|
  let inf32 (n : Bool) : Lane := if n then 0xFF800000 else 0x7F800000
  let withInf (n : Bool) : Lane :=
    match fv c with
    | .inf n2 => if n == n2 then c else org
    | _ => inf32 n
  match fv a, fv b with
  | .inf n1, .inf n2 => withInf (n1 ^^ n2)
  | .inf n1, .fin n2 m2 _ => if m2 == 0 then org else withInf (n1 ^^ n2)
  | .fin n1 m1 _, .inf n2 => if m1 == 0 then org else withInf (n1 ^^ n2)
  | .fin n1 m1 e1, .fin n2 m2 e2 =>
    match fv c with
    | .inf _ => c
    | .fin n3 m3 e3 => addFin (n1 ^^ n2) (m1 * m2) (e1 + e2) n3 m3 e3
    | .nan => org
  | _, _ => org

/-- rne32(a × b), an origin NaN for 0 × ∞. -/
def fmul (org a b : Lane) : Lane :=
  withNan [a, b] <| match fv a, fv b with
  | .fin n1 m1 e1, .fin n2 m2 e2 => rne32 (n1 ^^ n2) (m1 * m2) (e1 + e2)
  | .inf n1, .inf n2 => if n1 == n2 then 0x7F800000 else 0xFF800000
  | .inf n1, .fin n2 m2 _ => if m2 == 0 then org else if n1 == n2 then 0x7F800000 else 0xFF800000
  | .fin n1 m1 _, .inf n2 => if m1 == 0 then org else if n1 == n2 then 0x7F800000 else 0xFF800000
  | _, _ => org

/-- A key that orders F32 patterns other than NaNs, −0 below +0 (R59). -/
def fkey (x : Lane) : Int :=
  if x.msb then -1 - ((x.toNat - 2 ^ 31 : Nat) : Int) else x.toNat

/-- A key that orders F32 values other than NaNs, −0 equal to +0 (R129, R152). -/
def fnum (x : Lane) : Int :=
  if x.msb then -((x.toNat - 2 ^ 31 : Nat) : Int) else x.toNat

/-- The greater, −0 below +0 (R59). -/
def fmaxOp (a b : Lane) : Lane := withNan [a, b] (if fkey a < fkey b then b else a)
/-- The lesser, −0 below +0 (R59). -/
def fminOp (a b : Lane) : Lane := withNan [a, b] (if fkey b < fkey a then b else a)

/-- The four F32 comparisons: EQ, NE, LT, LE; a NaN gives false but for NE (R132, R152). -/
def fcmp (cc : Nat) (a b : Lane) : Bool :=
  if isNan a || isNan b then cc == 1
  else match cc with
    | 0 => fnum a == fnum b
    | 1 => fnum a != fnum b
    | 2 => decide (fnum a < fnum b)
    | _ => decide (fnum a ≤ fnum b)

/-! ## Conversions (R69) -/

/-- sat(x, lo, hi) of R9. -/
def sat (x lo hi : Int) : Int := if x < lo then lo else if hi < x then hi else x

/-- ±m × 2^e rounded to an integer, to nearest even or toward zero (R69). -/
def toInt (rtz : Bool) (neg : Bool) (m : Nat) (e : Int) : Int :=
  let n : Nat :=
    if 0 ≤ e then m <<< e.toNat
    else if (m.log2 : Int) + 2 < -e then 0
    else if rtz then m >>> (-e).toNat else shrRne m (-e).toNat
  if neg then -(n : Int) else n

/-- F32 to an integer range (R69): NaN gives 0, infinities saturate. -/
def f32ToInt (rtz : Bool) (lo hi : Int) (x : Lane) : Int :=
  match fv x with
  | .nan => 0
  | .inf n => if n then lo else hi
  | .fin n m e => sat (toInt rtz n m e) lo hi

/-- The pattern of an element of a narrow float format, widened to F32 (R69). -/
def widen (f : FFmt) (x : Nat) : Lane :=
  match f.decode x with
  | .nan =>
    let neg := x / 2 ^ (f.eb + f.fb) % 2
    if f.eb + f.fb < 8 then BitVec.ofNat 32 (0x7FC00000 + neg * 2 ^ 31)
    else quiet (BitVec.ofNat 32 (neg * 2 ^ 31 + 0x7F800000 + x % 2 ^ f.fb * 2 ^ (23 - f.fb)))
  | .inf n => if n then 0xFF800000 else 0x7F800000
  | .fin n m e => rne32 n m e

/-- The saturating and overflowing rule of a narrow float format: E4M3 and E5M2 saturate, BF16 and F16 overflow. -/
def FFmt.overBits (f : FFmt) : Nat := if f.eb + f.fb < 8 then f.maxBits else f.infBits

/-- ±m × 2^e rounded to a narrow format (R69). -/
def FFmt.round (f : FFmt) (neg : Bool) (m : Nat) (e : Int) : Nat :=
  let r := roundMag false (f.fb + 1) f.qmin m e
  let x := f.pack false r.1 r.2 f.overBits
  let x := if f.eb + f.fb < 8 && f.maxBits < x then f.maxBits else x
  x + (if neg then 2 ^ (f.eb + f.fb) else 0)

/-- A NaN lane stored to a narrow format (R69). -/
def FFmt.nanBits (f : FFmt) (x : Lane) : Nat :=
  if f.eb + f.fb < 8 then (if f.ieee then 0x7E else 0x7F)
  else
    let neg := x.toNat / 2 ^ 31
    let fr := x.toNat % 2 ^ 23 / 2 ^ (23 - f.fb)
    neg * 2 ^ (f.eb + f.fb) + f.infBits + (fr ||| 2 ^ (f.fb - 1))

/-- F32 to a narrow format after scaling by 2^s, exact before rounding (R69, R71). -/
def narrow (f : FFmt) (x : Lane) (s : Int := 0) : Nat :=
  match fv x with
  | .nan => f.nanBits x
  | .inf n => f.overBits + (if n then 2 ^ (f.eb + f.fb) else 0)
  | .fin n m e => f.round n m (e + s)

/-- An F32 lane rounded to a narrow format and widened back (R160). -/
def roundTrip (f : FFmt) (x : Lane) : Lane := widen f (narrow f x)

/-! ## Reciprocals and powers of two (R147, R148) -/

/-- floor(sqrt n) by Newton's method from above; `fuel` steps at most. -/
def isqrtGo (n : Nat) : Nat → Nat → Nat
  | 0, x => x
  | k + 1, x =>
    let y := (x + n / x) / 2
    if x ≤ y then x else isqrtGo n k y

/-- floor(sqrt n). -/
def isqrt (n : Nat) : Nat := if n = 0 then 0 else isqrtGo n 400 (2 ^ (n.log2 / 2 + 1))

/-- VRCP of one lane (R148). -/
def frcp (x : Lane) : Lane :=
  withNan [x] <| match fv x with
  | .inf n => if n then 0x80000000 else 0
  | .fin n m e =>
    if m = 0 then (if n then 0xFF800000 else 0x7F800000)
    else
      let k := m.log2 + 30
      let q := 2 ^ k / m
      rne32 n (2 * q + (if q * m = 2 ^ k then 0 else 1)) (-e - k - 1)
  | .nan => x

/-- VRSQ of one lane (R148). -/
def frsq (org x : Lane) : Lane :=
  withNan [x] <| match fv x with
  | .inf n => if n then org else 0
  | .fin n m e =>
    if m = 0 then (if n then 0xFF800000 else 0x7F800000)
    else if n then org
    else
      let odd := e % 2 == 1
      let m' := if odd then 2 * m else m
      let e' := if odd then e - 1 else e
      let k := m'.log2 + 32
      let q := isqrt (2 ^ (2 * k) / m')
      rne32 false (2 * q + (if q * q * m' = 2 ^ (2 * k) then 0 else 1)) (-(e' / 2) - k - 1)
  | .nan => x

/-- The product of 2^(2^−i) over the set bits of a 50-bit fraction, in fixed point with 128 fraction bits: `root` is
2^(2^−i) for the next bit. -/
def exp2Frac (f : Nat) : Nat → Nat → Nat → Nat
  | 0, _, acc => acc
  | i + 1, root, acc =>
    exp2Frac f i (isqrt (root <<< 128)) (if f / 2 ^ i % 2 == 1 then (acc * root) >>> 128 else acc)

/-- rne32(2^t) for a finite t = ±m × 2^e (R147). Correct rounding rests on the distance of 2^t from a rounding
boundary being more than the 2^−110 that the fixed point may err by; see the assumption log. -/
def exp2Fin (neg : Bool) (m : Nat) (e : Int) : Lane :=
  if m = 0 then 0x3F800000
  else
    let top : Int := e + m.log2
    if 8 ≤ top then (if neg then 0 else 0x7F800000)
    else if top < -27 then 0x3F800000
    else
      let t : Int := atExp neg m e (-50)
      let n := t / 2 ^ 50
      let f := (t % 2 ^ 50).toNat
      if f = 0 then rne32 false 1 n
      else rne32 false (2 * exp2Frac f 50 (isqrt (2 <<< 256)) (1 <<< 128) + 1) (n - 129)

/-- VEXP2 of one lane (R147): a, b and ESC. -/
def fexp2 (org a b esc : Lane) : Lane :=
  withNan [a, b, esc] <|
  -- d := a - b, exact
  let d : Option Fv := match fv a, fv b with
    | .inf n1, .inf n2 => if n1 == n2 then none else some (.inf n1)
    | .inf n1, _ => some (.inf n1)
    | _, .inf n2 => some (.inf (!n2))
    | .fin n1 m1 e1, .fin n2 m2 e2 =>
      let e0 := min e1 e2
      let x := atExp n1 m1 e1 e0 - atExp n2 m2 e2 e0
      some (.fin (decide (x < 0)) x.natAbs e0)
    | _, _ => none
  let ofT (t : Lane) : Lane := match fv t with
    | .inf n => if n then 0 else 0x7F800000
    | .fin n m e => exp2Fin n m e
    | .nan => org
  match d, fv esc with
  | some (.fin n1 m1 e1), .fin n2 m2 e2 => ofT (rne32 (n1 ^^ n2) (m1 * m2) (e1 + e2))
  | some (.inf n1), .fin n2 m2 _ => if m2 == 0 then org else ofT (if n1 == n2 then 0x7F800000 else 0xFF800000)
  | some (.fin n1 m1 _), .inf n2 => if m1 == 0 then org else ofT (if n1 == n2 then 0x7F800000 else 0xFF800000)
  | some (.inf n1), .inf n2 => ofT (if n1 == n2 then 0x7F800000 else 0xFF800000)
  | _, _ => org

end Sys2Proof.Machine
end

