-- ==== Sys2Proof/Machine/Formats.lean ====
section
/-! DEFINITION. Memory formats, coats, scales and bit planes (R60 to R75). -/

namespace Sys2Proof.Machine

/-! ## Bytes -/

/-- A little-endian number (R6). -/
def leNat : List Byte → Nat
  | [] => 0
  | b :: bs => b.toNat + 256 * leNat bs

/-- `n` bytes of a number, little-endian. -/
def leBytes : Nat → Nat → List Byte
  | 0, _ => []
  | n + 1, x => BitVec.ofNat 8 x :: leBytes n (x / 256)

/-- Bits lo up of a number, n of them. -/
def bitsOf (x lo n : Nat) : Nat := x / 2 ^ lo % 2 ^ n

/-- The low `n` bits of a number read as two's complement (R9). -/
def sext (n : Nat) (x : Nat) : Int :=
  let y := x % 2 ^ n
  if 2 ^ n ≤ 2 * y then (y : Int) - 2 ^ n else y

/-! ## The narrow format register (R67, R68) -/

def nfrWidth (n : Word) : Nat := n.toNat % 16
def nfrSigned (n : Word) : Bool := n.getLsbD 4
def nfrSubOn (n : Word) : Bool := n.getLsbD 5
def nfrSub (n : Word) : Nat := n.toNat / 256 % 256

/-- The value of SUB, two's complement when SGN = 1 (R67). -/
def nfrSubVal (n : Word) : Int := if nfrSigned n then sext 8 (nfrSub n) else nfrSub n

/-- The code −2^(w−1) is reserved (R68). -/
def nfrReserves (n : Word) : Bool := nfrSigned n && nfrSubOn n

/-- The value of a NARROW code; a reserved code gives SUB (R68). -/
def narrowVal (n : Word) (code : Nat) : Int :=
  let w := nfrWidth n
  if nfrReserves n && code == 2 ^ (w - 1) then nfrSubVal n
  else if nfrSigned n then sext w code else code

/-- The range that a store to NARROW may write (R71). -/
def narrowRange (n : Word) : Int × Int :=
  let w := nfrWidth n
  if nfrSigned n then (-(2 ^ (w - 1) : Int) + (if nfrSubOn n then 1 else 0), 2 ^ (w - 1) - 1) else (0, 2 ^ w - 1)

/-! ## Formats (R61) -/

/-- Bits of one element under a fmt value other than COAT and PLANE; a coat CODE from 0x01 to 0x0B is the same
number, and CODE 0x0C is NARROW. -/
def elemBits (n : Word) (f : Nat) : Nat :=
  match f with
  | 0x1 => 32
  | 0x2 => 16
  | 0x3 => 16
  | 0x4 => 8
  | 0x5 => 8
  | 0x6 => 32
  | 0x7 => 16
  | 0x8 => 8
  | 0x9 => 8
  | 0xA => 4
  | 0xB => 4
  | 0xD => nfrWidth n
  | _ => 32

/-- The fmt value of a coat CODE: NARROW is 0x0C in a coat and 0xD in a fmt field (R61, R64). -/
def codeFmt (code : Nat) : Nat := if code == 0x0C then 0xD else code

/-- The coat CODE of a store's fmt (R70): PACK8 writes 0x08 and NARROW 0x0C. -/
def fmtCode (f : Nat) : Nat := if f == 0xE then 0x08 else if f == 0xD then 0x0C else f

/-- Row bytes of a fmt (R61). -/
def rowBytes (n : Word) (f : Nat) : Nat := 8 * elemBits n f

/-- The float format of a fmt value from 1 to 5. -/
def floatFmt (f : Nat) : FFmt :=
  match f with
  | 0x1 => fmtF32
  | 0x2 => fmtBF16
  | 0x3 => fmtF16
  | 0x4 => fmtE4M3
  | _ => fmtE5M2

/-- The lanes of this fmt are F32 (R61). -/
def fmtIsFloat (f : Nat) : Bool := f ≤ 0x5

/-- The integer that an integer code stands for (R60, R69). -/
def intVal (n : Word) (f code : Nat) : Int :=
  match f with
  | 0x6 => sext 32 code
  | 0x7 => sext 16 code
  | 0x8 => sext 8 code
  | 0x9 => code
  | 0xA => sext 4 code
  | 0xB => code
  | 0xD => narrowVal n code
  | _ => sext 32 code

/-- The lane of one element under an explicit fmt (R65 step 3, R69). -/
def elemLane (n : Word) (f code : Nat) : Lane :=
  if f == 0x1 || f == 0xE then BitVec.ofNat 32 code
  else if fmtIsFloat f then widen (floatFmt f) code
  else BitVec.ofInt 32 (intVal n f code)

/-- rne32(x × 2^k) of an F32 lane; a NaN is quietened and an infinity stays. -/
def scaleLane (x : Lane) (k : Int) : Lane :=
  match fv x with
  | .nan => quiet x
  | .inf _ => x
  | .fin s m e => rne32 s m (e + k)

/-- The F32 lane of one element under COAT: rne32(element × 2^E) (R65 step 4). -/
def coatLane (n : Word) (code elem : Nat) (e : Int) : Lane :=
  let f := codeFmt code
  if fmtIsFloat f then
    match (floatFmt f).decode elem with
    | .fin s m e' => rne32 s m (e' + e)
    | .inf s => if s then 0xFF800000 else 0x7F800000
    | .nan => quiet (widen (floatFmt f) elem)
  else rneInt (intVal n f elem) e

/-! ## Coats (R63 to R66) -/

def coatE (c : Coat) : Int := sext 8 (c.toNat / 256)
def coatCode (c : Coat) : Nat := c.toNat % 256
def mkCoat (e : Int) (code : Nat) : Coat := BitVec.ofNat 16 ((e % 256).toNat * 256 + code % 256)

/-- The CODEs that R64 assigns, POISON apart. -/
def codeAssigned (c : Nat) : Bool := c ≤ 0x0C || (0x10 ≤ c && c ≤ 0x2F) || (0x40 ≤ c && c ≤ 0x42)

/-- The block is poisoned whatever its E (R65 step 1). -/
def coatPoison (c : Coat) : Bool := !codeAssigned (coatCode c)
/-- The block is a zero block (R65 step 2). -/
def coatZero (c : Coat) : Bool := !coatPoison c && coatE c == -128

/-- One 64-byte block: its payload as a little-endian number, and its coat. -/
structure BlockVal where
  data : Nat
  coat : Coat
  deriving DecidableEq, Repr

/-- A lane of a poisoned block (R66): F32, I32 or PACK8 by the fmt. -/
def poisonLane (n : Word) (pc : Word) (f lane : Nat) : Lane :=
  if fmtIsFloat f then originNaN pc lane
  else if f == 0xE then 0
  else if nfrSubOn n then BitVec.ofInt 32 (nfrSubVal n) else 0

/-- `k` lanes of a block under an explicit fmt, from bit `lo` of its payload; `lane` is the index of the first
(R65 steps 1 to 3). -/
def explicitLanes (n : Word) (pc : Word) (f : Nat) (b : BlockVal) (lo lane : Nat) : Nat → List Lane
  | 0 => []
  | k + 1 =>
    (if coatPoison b.coat then poisonLane n pc f lane
     else if coatZero b.coat then 0
     else elemLane n f (bitsOf b.data lo (elemBits n f)))
      :: explicitLanes n pc f b (lo + elemBits n f) (lane + 1) k

/-- `k` lanes of a block under COAT, whose row has the CODE `code` (R65 step 4). DESIGN CHOICE (log 141): a later block with
E = -128 and an assigned CODE other than the row's gives +0, R65's step 2, and is not poisoned by step 4. -/
def coatedLanes (n : Word) (pc : Word) (code : Nat) (b : BlockVal) (lo lane : Nat) : Nat → List Lane
  | 0 => []
  | k + 1 =>
    let w := elemBits n (codeFmt code)
    (if coatPoison b.coat then originNaN pc lane
     else if coatZero b.coat then 0
     else if coatCode b.coat != code then originNaN pc lane
     else coatLane n code (bitsOf b.data lo w) (coatE b.coat))
      :: coatedLanes n pc code b (lo + w) (lane + 1) k

/-- The row length that the first block's coat gives under COAT (R65 steps 4 to 6). -/
def coatRowBytes (n : Word) (c : Coat) : Nat :=
  if 1 ≤ coatCode c && coatCode c ≤ 0x0C then rowBytes n (codeFmt (coatCode c)) else 64

/-- The 64 lanes of one row from its blocks, under an explicit fmt; `off` is the row's offset in its first block. -/
def explicitRow (n : Word) (pc : Word) (f : Nat) (bs : List BlockVal) (off lane : Nat) : List Lane :=
  let per := if rowBytes n f < 64 then 64 else 512 / elemBits n f
  (bs.zipIdx.map fun (b, i) => explicitLanes n pc f b (8 * off) (lane + per * i) per).flatten

/-- The 64 lanes of one row under COAT (R65 steps 4 and 5). -/
def coatRow (n : Word) (pc : Word) (bs : List BlockVal) (off lane : Nat) : List Lane :=
  match bs with
  | [] => []
  | b :: _ =>
    let code := coatCode b.coat
    if 1 ≤ code && code ≤ 0x0C then
      let bits := elemBits n (codeFmt code)
      let per := if 8 * bits < 64 then 64 else 512 / bits
      (bs.zipIdx.map fun (b, i) => coatedLanes n pc code b (8 * off) (lane + per * i) per).flatten
    else if coatZero b.coat then List.replicate 64 0
    else (List.range 64).map fun c => originNaN pc (lane + c)

/-! ## Planes (R73 to R75) -/

/-- Fields of PQ (R75). -/
def pqQ (pq : Word) : Nat := pq.toNat % 16
def pqCen (pq : Word) : Bool := pq.getLsbD 4
def pqUns (pq : Word) : Bool := pq.getLsbD 5
def pqStride (pq : Word) : Nat := bitsOf pq.toNat 16 32


/-- The Q-plane reading of R74: the floor reading of a code's top planes, plus half a step when centred and Q < 8. -/
def planeReading (uns cen : Bool) (q code : Nat) : Int :=
  let s : Int := 2 ^ (8 - q)
  let v : Int := if uns then code else sext 8 code
  let fl := s * (v / s)
  if cen && q < 8 then fl + s / 2 else fl

/-- Element (r, c) of a row-patch block (R73). -/
def patchBit (data r c : Nat) : Nat := bitsOf data (((r % 8) * 8 + c / 8) * 8 + c % 8) 1

/-- The expected CODE of plane `j` in row-patch layout (R75). -/
def patchCode (uns : Bool) (j : Nat) : Nat := (if uns then 0x20 else 0x10) + (7 - j)

/-- One lane of a PLANE load from the blocks of planes 7 down (R65, R75). A block with another CODE is poisoned. DEDUCED
(log 121): a block of scale E = −128 whose CODE is assigned but not the expected plane's, such as the reset coat 0x8000, is
poisoned as well, by R75, though R65 steps 2 and 3 in order read it as zeros. -/
def planeLane (n : Word) (uns cen : Bool) (bs : List BlockVal) (r c : Nat) : Lane :=
  let bad := bs.zipIdx.any fun (b, i) => coatPoison b.coat || coatCode b.coat != patchCode uns (7 - i)
  if bad then (if nfrSubOn n then BitVec.ofInt 32 (nfrSubVal n) else 0)
  else if bs.all fun b => coatZero b.coat then 0
  else
    let code := bs.zipIdx.foldl
      (fun acc (b, i) => acc + (if coatZero b.coat then 0 else patchBit b.data r c) * 2 ^ (7 - i)) 0
    BitVec.ofInt 32 (planeReading uns cen bs.length code)

/-! ## Scales (R70, R71) -/

/-- What a scaled store writes: a float format, or an integer range with a code width. -/
inductive Target where
  | flt (f : FFmt)
  | int (lo hi : Int) (bits : Nat)
  deriving DecidableEq, Repr

/-- The target of a scaled store fmt (R71); `uns` serves PLANE. -/
def storeTarget (n : Word) (uns : Bool) (f : Nat) : Target :=
  match f with
  | 0x4 => .flt fmtE4M3
  | 0x5 => .flt fmtE5M2
  | 0x7 => .int (-32768) 32767 16
  | 0x8 => .int (-128) 127 8
  | 0x9 => .int 0 255 8
  | 0xA => .int (-8) 7 4
  | 0xB => .int 0 15 4
  | 0xD => .int (narrowRange n).1 (narrowRange n).2 (nfrWidth n)
  | _ => if uns then .int 0 255 8 else .int (-128) 127 8

/-- The value of a stored lane: F32, or an integer. -/
def laneVal (flt : Bool) (x : Lane) : Fv :=
  if flt then fv x else .fin x.msb x.toInt.natAbs 0

def Fv.isZero : Fv → Bool
  | .fin _ m _ => m == 0
  | _ => false

/-- fits(rnd(x × 2^−E)) of R71, for finite lanes, non-negative ones for an unsigned target. -/
def fitsAt (t : Target) (e : Int) : Fv → Bool
  | .fin neg m x =>
    match t with
    | .flt f =>
      let r := roundMag false (f.fb + 1) (x - e) m (x - e)
      match f.decode f.maxBits with
      | .fin _ mm me => r.1 == 0 || decide (atExp false r.1 r.2 (min r.2 me) ≤ atExp false mm me (min r.2 me))
      | _ => true
    | .int lo hi _ =>
      if neg && decide (lo = 0 ∧ 0 < hi) then true
      else
        let y := toInt false neg m (x - e)
        decide (lo ≤ y) && decide (y ≤ hi)
  | _ => true

/-- coat_scale of R71. -/
def coatScale (t : Target) (vals : List Fv) : Int :=
  if vals.all Fv.isZero then -128
  else
    let lo : Int := match t with
      | .flt _ => -127
      | .int _ _ _ => 0
    match (List.range (127 - lo + 1).toNat).find? fun (i : Nat) => vals.all (fitsAt t (lo + (i : Int))) with
    | some i => lo + (i : Int)
    | none => 127

/-- The stored code of one lane at scale E (R71): the conversion of x × 2^(−E). -/
def storeCode (t : Target) (e : Int) (flt : Bool) (x : Lane) : Nat :=
  match t with
  | .flt f => if flt then narrow f x (-e) else f.round x.msb x.toInt.natAbs (-e)
  | .int lo hi bits =>
    let y : Int := match laneVal flt x with
      | .nan => 0
      | .inf n => if n then lo else hi
      | .fin n m k => sat (toInt false n m (k - e)) lo hi
    (y % (2 ^ bits : Int)).toNat

/-- The codes and the E that a store of these lanes into one block writes, by fmt (R70, R71). -/
def storeBlock (n : Word) (uns : Bool) (f : Nat) (lanes : List Lane) : Int × List Nat :=
  match f with
  | 0x1 => (0, lanes.map BitVec.toNat)
  | 0x2 => (0, lanes.map (narrow fmtBF16 ·))
  | 0x3 => (0, lanes.map (narrow fmtF16 ·))
  | 0x6 => (0, lanes.map BitVec.toNat)
  | 0xE => (0, lanes.map BitVec.toNat)
  | _ =>
    let t := storeTarget n uns f
    let flt := fmtIsFloat f
    let e := coatScale t (lanes.map (laneVal flt))
    (e, lanes.map (storeCode t e flt))

/-- Codes of `bits` bits each laid side by side from bit 0 (R60). -/
def packCodes (bits : Nat) : List Nat → Nat
  | [] => 0
  | x :: xs => x % 2 ^ bits + 2 ^ bits * packCodes bits xs

end Sys2Proof.Machine
end

