-- ==== Sys2Proof/Machine/Memory.lean ====
section
/-! DEFINITION. Memory: the places where bytes lie, frame tables, flash codewords, slices, and reads and writes of
64-byte blocks by IA (R169, R178 to R187, R251, R286 to R295, R300 to R305).

Every block of every memory of the package has a place number; the bytes and coats of all places are in one list each.
A byte that is not listed reads as 0 and a coat that is not listed as 0x8000 (R429). -/

namespace Sys2Proof.Machine

/-! ## Cells -/

/-- The byte at a place: 0 where nothing is listed (R429). -/
def memGet (m : List Host.Cell) (a : Nat) : Byte := Tbl.look m a 0

/-- The byte at a place is set; the list stays canonical. -/
def memPut (m : List Host.Cell) (a : Nat) (v : Byte) : List Host.Cell :=
  if v = 0 then Tbl.del m a else Tbl.put m a v

/-- Bytes from a place up. -/
def memPutBytes (m : List Host.Cell) (a : Nat) : List Byte → List Host.Cell
  | [] => m
  | b :: bs => memPutBytes (memPut m a b) (a + 1) bs

def memGetBytes (m : List Host.Cell) (a n : Nat) : List Byte := (List.range n).map fun i => memGet m (a + i)

/-- The memory list is in its one canonical form: keys rising, no byte that an unlisted place reads as. -/
def Memory.wf : List Host.Cell → Bool
  | [] => true
  | [c] => c.2 != 0
  | c :: d :: t => c.2 != 0 && decide (c.1 < d.1) && Memory.wf (d :: t)

/-- The coat that an unlisted block has (R429). -/
def coatReset : Coat := 0x8000

def coatGet (t : Tbl Coat) (p : Nat) : Coat := Tbl.look t (p / 64) coatReset
def coatPut (t : Tbl Coat) (p : Nat) (c : Coat) : Tbl Coat :=
  if c = coatReset then Tbl.del t (p / 64) else Tbl.put t (p / 64) c

/-! ## Places -/

/-- Byte `off` of HBM stack `d` (R13: 64 GiB). -/
def hbmPlace (d off : Nat) : Nat := d * 2 ^ 36 + off
/-- Byte `off` of the scratchpad of pair `p` (R169). -/
def scratchPlace (p off : Nat) : Nat := 2 ^ 44 + p * 2 ^ 21 + off
/-- Staging byte `off` of slice `n` (R182). -/
def stagingPlace (n off : Nat) : Nat := 2 ^ 45 + n * 2 ^ 20 + off
/-- Byte `off` of a half of the weight bank of pair `p` (R251). -/
def wbankPlace (p : Nat) (h1 : Bool) (off : Nat) : Nat := 2 ^ 46 + (2 * p + h1.toNat) * 2 ^ 24 + off
/-- Byte `off` of physical codeword `cw` of flash stack `n` (R300). -/
def flashPlace (n cw off : Nat) : Nat := 2 ^ 48 + n * 2 ^ 40 + cw * 4096 + off

/-- The block at a place that is a multiple of 64. -/
def State.blockAt (s : State) (p : Nat) : BlockVal :=
  { data := leNat (memGetBytes s.mem p 64), coat := coatGet s.coats p }

/-- A write of part of a block: the payload bits written, their values, and a coat where it writes one. -/
structure BWrite where
  mask : Nat
  data : Nat
  coat : Option Coat := none
  deriving DecidableEq, Repr

/-- The payload bits of `n` bytes from byte `off` of a block. -/
def byteMask (off n : Nat) : Nat := (2 ^ (8 * n) - 1) * 2 ^ (8 * off)

/-- A write of `n` bytes at byte `off` of a block, the coat left as it is (R197). -/
def BWrite.bytes (off n v : Nat) : BWrite :=
  { mask := byteMask off n, data := v % 2 ^ (8 * n) * 2 ^ (8 * off) }

/-- A write of a whole block. -/
def BWrite.whole (b : BlockVal) : BWrite := { mask := 2 ^ 512 - 1, data := b.data, coat := some b.coat }

/-- A write of the coat only (R196). -/
def BWrite.coatOnly (c : Coat) : BWrite := { mask := 0, data := 0, coat := some c }

def BWrite.apply (w : BWrite) (b : BlockVal) : BlockVal :=
  { data := (b.data - (b.data &&& w.mask)) ||| (w.data &&& w.mask), coat := w.coat.getD b.coat }

/-- The block at a place is replaced. -/
def State.putBlock (s : State) (p : Nat) (b : BlockVal) : State :=
  { s with mem := memPutBytes s.mem p (leBytes 64 b.data), coats := coatPut s.coats p b.coat }

/-- A write is made at a place. -/
def State.writeAt (s : State) (p : Nat) (w : BWrite) : State := s.putBlock p (w.apply (s.blockAt p))

/-! ## Bit fields -/

/-- The number with bits lo up, n of them, replaced. -/
def setBits (x lo n v : Nat) : Nat := x - bitsOf x lo n * 2 ^ lo + v % 2 ^ n * 2 ^ lo

/-! ## Flash codewords (R300 to R305) -/

/-- The bin of the corrected-bit histogram (R307). -/
def chistBin (bits : Nat) : Nat :=
  if bits = 0 then 0 else if bits ≤ 4 then 1 else if bits ≤ 8 then 2 else if bits ≤ 16 then 3
  else if bits ≤ 32 then 4 else if bits ≤ 64 then 5 else if bits ≤ 96 then 6 else 7

/-- A saturating 32-bit counter one higher. -/
def sat32 (x : Nat) : Nat := min (x + 1) 0xFFFFFFFF

/-- A block is queued for relocation, once; one that finds the queue of 64 full waits (R303). -/
def Flash.queueReloc (f : Flash) (b : Nat) : Flash :=
  let blk := Tbl.look f.blocks b {}
  if blk.queued then f
  else
    let f := { f with blocks := Tbl.put f.blocks b { blk with queued := true } }
    if 64 ≤ f.relocQ.length then { f with relocWait := f.relocWait ++ [b] } else { f with relocQ := f.relocQ ++ [b] }

/-- A block leaves the relocation queue, and one that waits takes its place (R303). -/
def Flash.leaveReloc (f : Flash) (b : Nat) : Flash :=
  let l := (f.relocQ ++ f.relocWait).filter fun x => x != b
  { f with relocQ := l.take 64, relocWait := l.drop 64 }

/-- The retries that reading a codeword takes, 8 when every read fails (R305); the injection of R307 applies to its
page. -/
def codewordTries (f : Flash) (cw fresh : Nat) : Nat :=
  if f.injArm && f.injPage == some (cw / 4) && f.injKind == 2 then 8
  else match (List.range 8).find? fun i => !Config.codewordFails (fresh * 8 + i) with
    | some i => i
    | none => 8

/-- The bits that a decoded codeword corrected, with those that KIND 1 injects (R305, R307). -/
def codewordFixed (f : Flash) (cw fresh : Nat) : Nat :=
  Config.codewordBits fresh % 97 +
    (if f.injArm && f.injPage == some (cw / 4) && f.injKind == 1 then f.injBits else 0)

/-- One read of a codeword of stack `n` for a card (0), a forwarded read (1), a copy of the layer (2) or a patrol (3):
whether it decodes, the retries it took, the bits it corrected, and the counts it leaves (R303, R305). The codewords of
a page that a card or the layer reads one after another make one page read; patrol reads do not count. -/
def State.readCodeword (s : State) (n cw by' : Nat) : (Bool × Nat × Nat) × State :=
  let f := s.stack n
  let tries := codewordTries f cw s.fresh
  let bits := codewordFixed f cw s.fresh
  let okd := decide (tries < 8)
  let f := { f with
    retries := min (f.retries + min tries 7) 0xFFFFFFFF
    uncorr := if okd then f.uncorr else sat32 f.uncorr
    chist := if okd then Tbl.put f.chist (chistBin bits) (sat32 (Tbl.look f.chist (chistBin bits) 0)) else f.chist }
  let page := cw / 4
  let blk := cw / 4096
  let f :=
    if by' = 3 ∨ (by' ≠ 1 ∧ Tbl.find f.lastPage by' = some page) then f
    else
      let b := Tbl.look f.blocks blk {}
      let f := { f with
        lastPage := if by' = 1 then f.lastPage else Tbl.put f.lastPage by' page
        blocks := Tbl.put f.blocks blk { b with reads := b.reads + 1 } }
      if f.rdthr ≤ b.reads + 1 then f.queueReloc blk else f
  ((okd, tries, bits), (s.setStack n f).bump)

/-- A codeword is read for a forwarded read, in whose order the read channel serves it: whether it decodes (R290, R306). -/
def State.forwardRead (s : State) (n cw : Nat) : Bool × State :=
  let r := s.readCodeword n cw 1
  (r.1.1, r.2.onDom n fun y => { y with fwdQ := y.fwdQ ++ [.read (1 + min r.1.2.1 7)] })

/-- A block of a logical block of stack `n`: coat 0xFF when the LBA was never written or the codeword fails
(R301, R305). -/
def State.readLba (s : State) (n lba blk : Nat) : BlockVal × State :=
  match Tbl.find (s.stack n).map lba with
  | none => ({ data := 0, coat := 0x00FF }, s)
  | some cw =>
    let r := s.forwardRead n cw
    let b := s.blockAt (flashPlace n cw (64 * blk))
    (if r.1 then b else { b with coat := 0x00FF }, r.2)

/-! ## Frame tables (R286, R287) -/

/-- A frame-table entry: its two words. -/
structure Pte where
  w0 : Nat
  w1 : Nat
  deriving DecidableEq, Repr

def Pte.stRaw (e : Pte) : Nat := bitsOf e.w0 61 3
def Pte.a (e : Pte) : Bool := bitsOf e.w0 60 1 == 1
def Pte.d (e : Pte) : Bool := bitsOf e.w0 59 1 == 1
def Pte.pin (e : Pte) : Bool := bitsOf e.w0 58 1 == 1
def Pte.anon (e : Pte) : Bool := bitsOf e.w0 57 1 == 1
def Pte.owner (e : Pte) : Nat := bitsOf e.w0 53 4
def Pte.rmask (e : Pte) : Nat := bitsOf e.w0 45 8
def Pte.prim (e : Pte) : Nat := bitsOf e.w0 42 3
def Pte.mdir (e : Pte) : Bool := bitsOf e.w0 41 1 == 1
def Pte.epoch (e : Pte) : Nat := bitsOf e.w0 36 5
def Pte.count (e : Pte) : Nat := bitsOf e.w0 20 16
def Pte.frame (e : Pte) : Nat := bitsOf e.w0 0 20
def Pte.lba (e : Pte) : Nat := bitsOf e.w1 0 40
def Pte.set (e : Pte) (lo n v : Nat) : Pte := { e with w0 := setBits e.w0 lo n v }
def Pte.setSt (e : Pte) (v : Nat) : Pte := e.set 61 3 v
def Pte.setA (e : Pte) (v : Bool) : Pte := e.set 60 1 v.toNat
def Pte.setD (e : Pte) (v : Bool) : Pte := e.set 59 1 v.toNat
def Pte.setFrame (e : Pte) (v : Nat) : Pte := e.set 0 20 v
def Pte.setAnon (e : Pte) (v : Bool) : Pte := e.set 57 1 v.toNat

/-- STATE as R286 reads it: 5 to 7 are INVALID, REPLICATED belongs to region 0x8 and to it alone. -/
def Pte.st (e : Pte) (r : Nat) : Nat :=
  if 4 < e.stRaw then 0
  else if r = 8 then (if e.stRaw = 3 then 3 else 0)
  else if e.stRaw = 3 then 0 else e.stRaw

/-- Region of an IA, and index of its page in the region's table (R285, R286). -/
def iaRegion (ia : Nat) : Nat := ia / 2 ^ 48
def iaPage (ia : Nat) : Nat := ia / 65536 % 2 ^ 32

/-- FTBASE and FTLEN of the table of region `r` (R286, R299). -/
def State.ftBase (s : State) (r : Nat) : Nat := if r = 8 then s.ft8base else (s.dom r).ftbase
def State.ftLen (s : State) (r : Nat) : Nat := if r = 8 then s.ft8len else (s.dom r).ftlen

/-- Place of an entry: FTBASE names a stack and an offset in it, untranslated (PRESUMED: the manual does not say how
the table itself is reached). -/
def State.ptePlace (s : State) (r idx : Nat) : Nat :=
  hbmPlace (s.ftBase r / 2 ^ 48 % 8) ((s.ftBase r + 16 * idx) % 2 ^ 36)

/-- The entry in memory. -/
def State.pteMem (s : State) (r idx : Nat) : Pte :=
  { w0 := leNat (memGetBytes s.mem (s.ptePlace r idx) 8), w1 := leNat (memGetBytes s.mem (s.ptePlace r idx + 8) 8) }

def pteKey (r idx : Nat) : Nat := r * 2 ^ 32 + idx

/-- The entry as domain `d` sees it: from its translation cache, or from the table with a counted miss (R287). -/
def State.pte (s : State) (d r idx : Nat) : Option Pte × State :=
  if s.ftLen r ≤ idx then (none, s)
  else match Tbl.find (s.dom d).tcache (pteKey r idx) with
    | some w => (some { w0 := w.1.toNat, w1 := w.2.toNat }, s)
    | none =>
      let e := s.pteMem r idx
      (some e, s.onDom d fun x =>
        { x with tcmiss := (x.tcmiss + 1) % 2 ^ 48
                 tcache := Tbl.put (if x.tcache.length < 65536 then x.tcache else x.tcache.drop 1) (pteKey r idx)
                   (BitVec.ofNat 64 e.w0, BitVec.ofNat 64 e.w1) })

/-- The entry as its table and every cache that holds it have it, without a count. -/
def State.peekPte (s : State) (d r idx : Nat) : Option Pte := (s.pte d r idx).1

/-- The entry is written in its table and in every cache that holds it (R287). -/
def State.setPte (s : State) (r idx : Nat) (e : Pte) : State :=
  let s := { s with mem := memPutBytes s.mem (s.ptePlace r idx) (leBytes 8 e.w0 ++ leBytes 8 e.w1) }
  { s with doms := s.doms.map fun (d, x) =>
      (d, if (Tbl.find x.tcache (pteKey r idx)).isSome then
            { x with tcache := Tbl.put x.tcache (pteKey r idx) (BitVec.ofNat 64 e.w0, BitVec.ofNat 64 e.w1) }
          else x) }

/-- A served request sets A and counts (R288, R291). -/
def Pte.touch (e : Pte) (epoch : Nat) : Pte :=
  let e := e.setA true
  if e.epoch == epoch % 32 then e.set 20 16 (min (e.count + 1) 0xFFFF)
  else (e.set 20 16 1).set 36 5 (epoch % 32)

/-! ## Requests -/

/-- Who asks: the requester's domain and partition, the policy, whether the
primary of a replicated page is asked, and the versions of pages that the requester's task writes (R295, R362). -/
structure Req where
  dom     : Nat
  part    : Nat
  /-- the context that asks, whose MARK waits for the write (R340) -/
  ctx     : Option Nat := none
  alloc   : Bool := true
  primary : Bool := false
  vers    : List (Nat × Nat) := []
  /-- an access of a copy engine, which is translated even where it hits a line (R288) -/
  copy    : Bool := false
  deriving DecidableEq, Repr

/-- What a request for a block gives: the block, or a memory-side fault (R289). -/
inductive MemRes where
  | ok (b : BlockVal)
  | fail (code : Nat)
  deriving DecidableEq, Repr

def codeXLATE : Nat := 0x08
def codeACCESS : Nat := 0x09
def codeUNMAPPED : Nat := 0x0A

/-- A promotion is queued while fewer than 64 are pending; one already pending is raised to demand (R292). A demand
promotion that finds no room waits, and is queued when one leaves. -/
def Domain.askPromotion (x : Domain) (page : Nat) (demand : Bool) : Domain :=
  if x.promoQ.any fun q => q.1 == page then
    if demand then { x with promoQ := x.promoQ.map fun q => if q.1 == page then (page, true) else q } else x
  else if 64 ≤ x.promoQ.length then
    if demand && !x.promoWait.contains page then { x with promoWait := x.promoWait ++ [page] } else x
  else { x with promoQ := x.promoQ ++ [(page, demand)] }

/-- The move in progress of a page (R292, R293). -/
def Domain.moveOf (x : Domain) (page : Nat) : Option Move := x.moves.find? fun m => m.page == page && !m.dead

def Domain.onMove (x : Domain) (page : Nat) (f : Move → Move) : Domain :=
  { x with moves := x.moves.map fun m => if m.page == page && !m.dead then f m else m }

/-- A block of a page in flash as the writes held for it have left it: they are performed, in order, though they have
not landed (R288, R342). -/
def Domain.overHeld (x : Domain) (ia : Nat) (b : BlockVal) : BlockVal :=
  (x.heldW.filter fun h => h.ia / 64 == ia / 64).foldl (fun b h =>
    BWrite.apply { mask := h.mask, data := h.data, coat := h.coat } b) b

/-- The request reads a page that is in flash (R290). -/
def State.inFlash (s : State) (d ia : Nat) : Bool :=
  match s.peekPte d (iaRegion ia) (iaPage ia) with
  | some e => e.st (iaRegion ia) == 2
  | none => false

/-- The request names a page that is MOVING (R286). -/
def State.isMoving (s : State) (d ia : Nat) : Bool :=
  match s.peekPte d (iaRegion ia) (iaPage ia) with
  | some e => e.st (iaRegion ia) == 4
  | none => false

/-- A read behind the slices, at domain `d` (R288). -/
def State.memRead (s : State) (q : Req) (d ia : Nat) : MemRes × State :=
  let r := iaRegion ia
  let idx := iaPage ia
  match s.pte d r idx with
  | (none, s) => (.fail codeUNMAPPED, s)
  | (some e, s) =>
    let st := e.st r
    let off := ia % 65536
    let fromFrame := s.blockAt (hbmPlace d (e.frame * 65536 + off))
    let lba := e.lba + off / 4096
    let e' := e.touch (s.dom d).epoch
    if st = 0 then (.fail codeUNMAPPED, s)
    else if e.owner ≠ q.part then (.fail codeACCESS, s)
    else if st = 1 ∨ st = 3 then (.ok fromFrame, s.setPte r idx e')
    else if st = 2 then
      let s := s.setPte r idx e'
      let (b, s) := s.readLba d lba (off % 4096 / 64)
      let s := s.onDom d fun x => { x with fwdreads := (x.fwdreads + 1) % 2 ^ 48 }
      let x := s.dom d
      (.ok (x.overHeld ia b), if x.promo ≠ 0 ∧ e'.count = x.promo then s.setDom d (x.askPromotion idx false) else s)
    else
      let s := s.setPte r idx e'
      match (s.dom d).moveOf idx with
      | none => (.ok fromFrame, s)
      | some m =>
        if m.demote || m.copied.contains (off / 64) then (.ok fromFrame, s)
        else
          let (b, s) := s.readLba d lba (off % 4096 / 64)
          (.ok b, s)

/-- A read of a copy engine that hits a line is translated all the same: a memory-side fault, or A set and the request counted
(R288, R291, R292). -/
def State.hitRead (s : State) (q : Req) (d ia : Nat) : Option Nat × State :=
  let r := iaRegion ia
  let idx := iaPage ia
  match s.pte d r idx with
  | (none, s) => (some codeUNMAPPED, s)
  | (some e, s) =>
    let e' := e.touch (s.dom d).epoch
    if e.st r = 0 then (some codeUNMAPPED, s)
    else if e.owner ≠ q.part then (some codeACCESS, s)
    else
      let s := s.setPte r idx e'
      (none, if e.st r = 2 ∧ (s.dom d).promo ≠ 0 ∧ e'.count = (s.dom d).promo then s.onDom d fun x => x.askPromotion idx false
             else s)

/-- A write or write-back behind the slices, at domain `d`: none, or the memory-side fault (R288, R292, R293). A
write to a page in flash starts a demand promotion and is held. -/
def State.memWrite (s : State) (q : Req) (d ia : Nat) (w : BWrite) : Option Nat × State :=
  let r := iaRegion ia
  let idx := iaPage ia
  match s.pte d r idx with
  | (none, s) => (some codeUNMAPPED, s)
  | (some e, s) =>
    let st := e.st r
    let off := ia % 65536
    let place := hbmPlace d (e.frame * 65536 + off)
    let e' := e.touch (s.dom d).epoch
    if st = 0 then (some codeUNMAPPED, s)
    else if e.owner ≠ q.part then (some codeACCESS, s)
    else if st = 1 ∨ st = 3 then (none, (s.setPte r idx (e'.setD true)).writeAt place w)
    else if st = 2 then
      (none, s.onDom d fun x =>
        { (x.askPromotion idx true) with
          heldW := x.heldW ++ [{ ia := ia, mask := w.mask, data := w.data, coat := w.coat, part := q.part, issued := s.cycle, ctx := q.ctx.filter fun _ => !q.alloc }] })
    else
      match (s.dom d).moveOf idx with
      | none => (none, (s.setPte r idx (e'.setD true)).writeAt place w)
      | some m =>
        if m.demote then
          (none, ((s.setPte r idx ((e'.setSt 1).setD true)).writeAt place w).onDom d fun x =>
            x.onMove idx fun m => { m with dead := true })
        else
          -- a partial write into a line not yet copied merges with the flash copy first
          let base := if m.copied.contains (off / 64) then (s.blockAt place, s)
                      else s.readLba d (e.lba + off / 4096) (off % 4096 / 64)
          (none, (((base.2.setPte r idx e').putBlock place (w.apply base.1)).onDom d fun x =>
            x.onMove idx fun m => { m with copied := m.copied ++ [off / 64], wrote := true }))

/-! ## Slices (R178 to R187) -/

/-- The home slice of a line within domain `d` (R178, R295). -/
def homeSlice (d ia : Nat) : Nat :=
  192 * d + ((bitsOf ia 6 16 ^^^ bitsOf ia 22 16 ^^^ bitsOf ia 38 10) % 192)

/-- The number under which a line is kept: replicas of region 0x8 are kept apart by domain. -/
def lineKey (d ia : Nat) : Nat := if iaRegion ia = 8 then (d + 1) * 2 ^ 52 + ia / 64 else ia / 64

/-- IA of a line number. -/
def lineIa (key : Nat) : Nat := key % 2 ^ 52 * 64
/-- Domain that homes a line number. -/
def lineDom (key : Nat) : Nat := if 2 ^ 52 ≤ key then key / 2 ^ 52 - 1 else iaRegion (lineIa key)

/-- The replica that a requester of domain `d` reads: its own, that of its die, or the lowest (R295). -/
def replicaFor (e : Pte) (d : Nat) : Nat :=
  if e.rmask.testBit d then d
  else if e.rmask.testBit (d ^^^ 1) then d ^^^ 1
  else ((List.range 8).find? fun i => e.rmask.testBit i).getD 0

/-- The domain that serves a request: its region's, or the replica's or primary's (R178, R295). -/
def State.homeDom (s : State) (q : Req) (ia : Nat) : Nat :=
  if iaRegion ia ≠ 8 then iaRegion ia
  else match s.peekPte q.dom 8 (iaPage ia) with
    | some e => if e.st 8 = 3 then (if q.primary then e.prim else replicaFor e q.dom) else q.dom
    | none => q.dom

/-- The ways that hold lines: those of a growing staging region have been given up (R184). -/
def Slice.ways (x : Slice) : Nat := min x.w (x.wNew.getD x.w)

/-- The least W among a domain's slices (R186). -/
def State.wMin (s : State) (d : Nat) : Nat :=
  s.slices.foldl (fun m (n, x) => if n / 192 = d then min m x.ways else m) 16

/-- First way of each of the eight ranges: an enabled range that is not INACTIVE takes its ways in range order
(R186). The list holds the range, its first way and its way count. DESIGN CHOICE (log 107): an INACTIVE range takes no
ways, so that later ranges move down into its place. -/
def State.retWays (s : State) (d : Nat) : List (Nat × Nat × Nat) :=
  ((List.range 8).foldl (fun (acc : Nat × List (Nat × Nat × Nat)) n =>
    let r := Tbl.look (s.dom d).ret n {}
    if r.en && r.lo ≤ r.hi && r.ways != 0 then
      if acc.1 + r.ways ≤ s.wMin d - 1 then (acc.1 + r.ways, acc.2 ++ [(n, acc.1, r.ways)]) else acc
    else acc) (0, [])).2

/-- INACTIVE of R186, for a range of domain `d`. -/
def State.retInactive (s : State) (d n : Nat) : Bool :=
  let r := Tbl.look (s.dom d).ret n {}
  if r.hi < r.lo || r.ways == 0 then true
  else r.en && !((s.retWays d).any fun x => x.1 == n)

/-- INACTIVE of all eight ranges of a domain is recomputed (R186). -/
def State.renewRet (s : State) (d : Nat) : State :=
  (List.range 8).foldl (fun t n =>
    t.onDom d fun x => { x with ret := Tbl.put x.ret n { Tbl.look x.ret n {} with inactive := s.retInactive d n } }) s

/-- The way that the tree of 15 bits points to among the eligible ways (R181). -/
def plruPick (tree : Nat) (eligible : List Nat) : Nat :=
  let side (lo n : Nat) : Bool := eligible.any fun w => lo ≤ w && w < lo + n
  let node (i lo half : Nat) : Bool := -- go to the upper half?
    if tree.testBit i then side (lo + half) half || !side lo half else !side lo half
  let b3 := node 1 0 8
  let lo3 := if b3 then 8 else 0
  let i2 := 2 + b3.toNat
  let b2 := node i2 lo3 4
  let lo2 := lo3 + (if b2 then 4 else 0)
  let i1 := 2 * i2 + b2.toNat
  let b1 := node i1 lo2 2
  let lo1 := lo2 + (if b1 then 2 else 0)
  let i0 := 2 * i1 + b1.toNat
  lo1 + (if node i0 lo1 1 then 1 else 0)

/-- The tree after a use of way `w`: each node on its path points away from it (R181). -/
def plruTouch (tree w : Nat) : Nat :=
  let i3 := 1
  let b3 := w / 8 % 2
  let i2 := 2 + b3
  let b2 := w / 4 % 2
  let i1 := 2 * i2 + b2
  let b1 := w / 2 % 2
  let i0 := 2 * i1 + b1
  let put (t i b : Nat) : Nat := setBits t i 1 (1 - b)
  put (put (put (put tree i3 b3) i2 b2) i1 b1) i0 (w % 2)

/-- The set of a line in its slice: 1,024 sets of 16 ways (R13); the index is a free value. -/
def setOf (key : Nat) : Nat := Config.sliceSet key % 1024

/-- A line is used: counted and touched in its tree. -/
def State.touchLine (s : State) (key way : Nat) (hit : Bool) : State :=
  s.onSlice (homeSlice (lineDom key) (lineIa key)) fun x =>
    { x with plru := Tbl.put x.plru (setOf key) (plruTouch (Tbl.look x.plru (setOf key) 0) way)
             hits := if hit then (x.hits + 1) % 2 ^ 48 else x.hits }

def State.countMiss (s : State) (key : Nat) : State :=
  s.onSlice (homeSlice (lineDom key) (lineIa key)) fun x => { x with misses := (x.misses + 1) % 2 ^ 48 }

/-- A dirty line is written back: counted; one that memory refuses is discarded and counted in DROPWB (R288). -/
def State.writeBack (s : State) (key : Nat) (ln : Line) : State :=
  let d := lineDom key
  let (r, s) := s.memWrite { dom := d, part := ln.owner, alloc := false } d (lineIa key)
    (BWrite.whole { data := ln.data, coat := ln.coat })
  let s := s.onSlice (homeSlice d (lineIa key)) fun x => { x with wbacks := (x.wbacks + 1) % 2 ^ 48 }
  match r with
  | none => s
  | some _ => s.onDom d fun x => { x with dropwb := sat32 x.dropwb }

/-- The retention class of a fill: the reserved ways it may use if it is retained, and the counter (R187). -/
def State.fillWays (s : State) (d n ia : Nat) : List Nat × State :=
  let act := s.retWays d
  let g := ia / 65536 % 2 ^ 36
  let ordinary := (List.range (s.slice n).ways).filter fun w => !(act.any fun x => x.2.1 ≤ w && w < x.2.1 + x.2.2)
  match act.find? fun x => (Tbl.look (s.dom d).ret x.1 {}).lo ≤ g && g ≤ (Tbl.look (s.dom d).ret x.1 {}).hi with
  | none => (ordinary, s)
  | some x =>
    let cnt := Tbl.look (s.slice n).retCnt x.1 0
    if cnt = (Tbl.look (s.dom d).ret x.1 {}).ratio then
      ((List.range x.2.2).map fun i => x.2.1 + i, s.onSlice n fun y => { y with retCnt := Tbl.put y.retCnt x.1 0 })
    else (ordinary, s.onSlice n fun y => { y with retCnt := Tbl.put y.retCnt x.1 (cnt + 1) })

/-- A line is filled into its slice: an invalid eligible way, lowest first, or the one the tree gives, whose line is
written back if dirty (R181). With no eligible way nothing is allocated and a dirty line goes to memory. -/
def State.fill (s : State) (key : Nat) (ln : Line) : State :=
  let d := lineDom key
  let n := homeSlice d (lineIa key)
  let (ways, s) := s.fillWays d n (lineIa key)
  if ways.isEmpty then (if ln.dirty then s.writeBack key ln else s)
  else
    let here := s.lines.filter fun x => homeSlice (lineDom x.1) (lineIa x.1) == n && setOf x.1 == setOf key
    let way := match ways.find? fun w => !(here.any fun x => x.2.way == w) with
      | some w => w
      | none => plruPick (Tbl.look (s.slice n).plru (setOf key) 0) ways
    let s := match here.find? fun x => x.2.way == way with
      | some (k, v) =>
        let s := { s with lines := Tbl.del s.lines k }
        if v.dirty then s.writeBack k v else s
      | none => s
    ({ s with lines := Tbl.put s.lines key { ln with way := way } }).touchLine key way false

/-- The number under which a block of a version is watched: the frame of the version, in its stack (R331, R362). -/
def versionKey (d f ia : Nat) : Nat := 2 ^ 58 + (d * 2 ^ 20 + f) * 1024 + ia % 65536 / 64

/-- Every monitor armed on this line's place is triggered (R332). -/
def State.trigger (s : State) (key : Nat) : State :=
  { s with ctxs := s.ctxs.map fun (c, x) =>
      (c, if x.monitor = .armed key then { x with monitor := .triggered key } else x) }

/-- The version frame of a page that the requester's task writes (R362). -/
def Req.frameOf (q : Req) (ia : Nat) : Option Nat := (q.vers.find? fun x => x.1 == ia / 65536).map Prod.snd

/-- A read of a block of regions 0x0 to 0x8 at its home slice (R179, R288). -/
def State.lineRead (s : State) (q : Req) (ia : Nat) : MemRes × State :=
  match q.frameOf ia with
  | some f => (.ok (s.blockAt (hbmPlace (iaRegion ia) (f * 65536 + ia % 65536))), s)
  | none =>
    let d := s.homeDom q ia
    let key := lineKey d ia
    match Tbl.find s.lines key with
    | some ln =>
      if ln.owner ≠ q.part then (.fail codeACCESS, s.countMiss key)
      else match (if q.copy then s.hitRead q d ia else (none, s)) with
        | (some c, s) => (.fail c, s)
        | (none, s) => (.ok { data := ln.data, coat := ln.coat }, s.touchLine key ln.way true)
    | none =>
      match s.memRead q d ia with
      | (.ok b, s) =>
        let s := s.countMiss key
        (.ok b, if q.alloc then s.fill key { data := b.data, coat := b.coat, owner := q.part, way := 0 } else s)
      | (.fail c, s) => (.fail c, s.countMiss key)

/-- The primary's home slice serves a write of region 0x8: a hit is counted, and a miss allocates under ALLOC (R179,
R295). -/
def State.primaryLine (s : State) (q : Req) (e : Pte) (ia : Nat) : State :=
  let key := lineKey e.prim ia
  match Tbl.find s.lines key with
  | some ln => s.touchLine key ln.way true
  | none =>
    let s := s.countMiss key
    if q.alloc && e.rmask.testBit e.prim then
      let b := s.blockAt (hbmPlace e.prim (e.frame * 65536 + ia % 65536))
      s.fill key { data := b.data, coat := b.coat, owner := q.part, way := 0 }
    else s

/-- A replica's slice holds the line for another partition (R288). -/
def State.otherOwner (s : State) (q : Req) (e : Pte) (ia : Nat) : Bool :=
  (List.range 8).any fun d => e.rmask.testBit d && ((Tbl.find s.lines (lineKey d ia)).any fun ln => ln.owner != q.part)

/-- A write of a block of region 0x8: every replica's line and frame (R295). A hit of a line that another partition owns is
an ACCESS miss (R288). -/
def State.replicaWrite (s : State) (q : Req) (ia : Nat) (w : BWrite) : Option Nat × State :=
  match s.pte q.dom 8 (iaPage ia) with
  | (none, s) => (some codeUNMAPPED, s)
  | (some e, s) =>
    if e.st 8 ≠ 3 then (some codeUNMAPPED, s)
    else if e.owner ≠ q.part then (some codeACCESS, s)
    else if s.otherOwner q e ia then (some codeACCESS, s.countMiss (lineKey e.prim ia))
    else
      (none, (List.range 8).foldl (fun s d =>
        if e.rmask.testBit d then
          let key := lineKey d ia
          let place := hbmPlace d (e.frame * 65536 + ia % 65536)
          let b := match Tbl.find s.lines key with
            | some ln => w.apply { data := ln.data, coat := ln.coat }
            | none => w.apply (s.blockAt place)
          let s := s.putBlock place b
          let s := match Tbl.find s.lines key with
            | some ln => { s with lines := Tbl.put s.lines key { ln with data := b.data, coat := b.coat } }
            | none => s
          s.trigger key
        else s) ((s.setPte 8 (iaPage ia) ((e.touch (s.dom e.prim).epoch).setD true)).primaryLine q e ia))

/-- A write of a block of regions 0x0 to 0x8 at its home slice (R179, R288). -/
def State.lineWrite (s : State) (q : Req) (ia : Nat) (w : BWrite) : Option Nat × State :=
  match q.frameOf ia with
  | some f => (none, (s.writeAt (hbmPlace (iaRegion ia) (f * 65536 + ia % 65536)) w).trigger (versionKey (iaRegion ia) f ia))
  | none =>
    if iaRegion ia = 8 then s.replicaWrite q ia w
    else
      let d := iaRegion ia
      let key := lineKey d ia
      match Tbl.find s.lines key with
      | some ln =>
        if ln.owner ≠ q.part then (some codeACCESS, s.countMiss key)
        else
          -- a copy engine's write goes through translation to memory too (R288)
          match (if q.copy then s.memWrite q d ia w else (none, s)) with
          | (some c, s) => (some c, s)
          | (none, s) =>
            let b := w.apply { data := ln.data, coat := ln.coat }
            let ln' := { ln with data := b.data, coat := b.coat, dirty := ln.dirty || !q.copy }
            (none, (({ s with lines := Tbl.put s.lines key ln' }).touchLine key ln.way true).trigger key)
      | none =>
        let s := s.countMiss key
        if q.alloc then
          match s.memRead q d ia with
          | (.ok b, t) =>
            let b := w.apply b
            -- a page in flash or MOVING takes the write as well, and the line is clean (R288, R292)
            let (r, t, dirty) :=
              if s.inFlash d ia then ((t.memWrite q d ia w).1, (t.memWrite q d ia w).2, false)
              else if s.isMoving d ia then ((s.memWrite q d ia w).1, (s.memWrite q d ia w).2, false)
              else (none, t, true)
            match r with
            | some c => (some c, t)
            | none => (none, (t.fill key { data := b.data, coat := b.coat, dirty := dirty, owner := q.part, way := 0 }).trigger key)
          | (.fail c, s) => (some c, s)
        else
          let (r, s) := s.memWrite q d ia w
          (r, if r.isNone then s.trigger key else s)

/-! ## Blocks by IA (R285) -/

/-- Staging slice and offset of an IA of region 0x9 (R182). -/
def stagingOf (ia : Nat) : Nat × Nat := (bitsOf ia 20 11, bitsOf ia 0 20)

/-- The place of a block of regions 0x9 to 0xB (R169, R182, R251). -/
def devicePlace (ia : Nat) : Nat :=
  let off := ia / 64 * 64
  match iaRegion ia with
  | 0x9 => stagingPlace (bitsOf ia 20 11) (bitsOf off 0 20)
  | 0xA => scratchPlace (bitsOf ia 21 8) (bitsOf off 0 21)
  | _ => wbankPlace (bitsOf ia 25 8) (bitsOf ia 24 1 == 1) (bitsOf off 0 24)

/-- A read of the block that holds an IA. -/
def State.iaRead (s : State) (q : Req) (ia : Nat) : MemRes × State :=
  if iaRegion ia ≤ 8 then s.lineRead q (ia / 64 * 64)
  else if iaRegion ia ≤ 0xB then (.ok (s.blockAt (devicePlace ia)), s)
  else (.fail codeACCESS, s)

/-- A write in the block that holds an IA; a weight-bank half that is active refuses it (R251). -/
def State.iaWrite (s : State) (q : Req) (ia : Nat) (w : BWrite) : Option Nat × State :=
  if iaRegion ia ≤ 8 then s.lineWrite q (ia / 64 * 64) w
  else if iaRegion ia = 0xB && (s.pair (bitsOf ia 25 8)).active == (bitsOf ia 24 1 == 1) then (some codeACCESS, s)
  else if iaRegion ia ≤ 0xB then (none, s.writeAt (devicePlace ia) w)
  else (some codeACCESS, s)

/-- The request of an engine of the package for partition `p`: it does not allocate, and the flash port answers it. -/
def engineReq (d p : Nat) : Req := { dom := d, part := p, alloc := false }

/-- `n` blocks from a block-aligned IA up, or the first fault. -/
def State.readBlocks (s : State) (q : Req) : Nat → Nat → Except Nat (List BlockVal) × State
  | _, 0 => (.ok [], s)
  | ia, n + 1 =>
    match s.iaRead q ia with
    | (.ok b, s) =>
      match s.readBlocks q (ia + 64) n with
      | (.ok bs, s) => (.ok (b :: bs), s)
      | (.error c, s) => (.error c, s)
    | (.fail c, s) => (.error c, s)

/-- `n` bytes from any IA up. -/
def State.readBytes (s : State) (q : Req) (ia n : Nat) : Except Nat (List Byte) × State :=
  let first := ia / 64 * 64
  match s.readBlocks q first ((ia + n + 63) / 64 - ia / 64) with
  | (.ok bs, s) => (.ok (((bs.map fun b => leBytes 64 b.data).flatten.drop (ia - first)).take n), s)
  | (.error c, s) => (.error c, s)

/-- Block writes in their order, up to the first fault. -/
def State.iaWrites (s : State) (q : Req) : List (Nat × BWrite) → Option Nat × State
  | [] => (none, s)
  | (ia, w) :: l =>
    match s.iaWrite q ia w with
    | (some c, s) => (some c, s)
    | (none, s) => s.iaWrites q l

/-- The block writes that put bytes from any IA up. -/
def byteWrites (ia : Nat) (bs : List Byte) (coat : Option Coat) : List (Nat × BWrite) :=
  let off := ia % 64
  (List.range ((off + bs.length + 63) / 64)).map fun i =>
    let chunk := if i = 0 then bs.take (64 - off) else (bs.drop (64 * i - off)).take 64
    let lo := if i = 0 then off else 0
    (ia / 64 * 64 + 64 * i, { mask := byteMask lo chunk.length, data := leNat chunk * 2 ^ (8 * lo), coat := coat })

/-- Bytes are written from any IA up; `coat` is given to every block touched, if any. The first fault ends it. -/
def State.writeBytes (s : State) (q : Req) (ia : Nat) (bs : List Byte) (coat : Option Coat := none) :
    Option Nat × State :=
  s.iaWrites q (byteWrites ia bs coat)

/-- 64-bit words of a list of bytes. -/
def wordsOf : Nat → List Byte → List Word
  | 0, _ => []
  | n + 1, bs => BitVec.ofNat 64 (leNat (bs.take 8)) :: wordsOf n (bs.drop 8)

def bytesOfWords (ws : List Word) : List Byte := (ws.map fun w => leBytes 8 w.toNat).flatten

/-- A word of a list, 0 past its end. -/
def wordAt (ws : List Word) (i : Nat) : Word := ws.getD i 0

end Sys2Proof.Machine
end

