-- ==== Sys2Proof/Machine/Flags.lean ====
section
/-! DEFINITION. Core flags, tags, and the condition codes that set predicates (R44, R53, R121, R129, R322 to R326). -/

namespace Sys2Proof.Machine

/-- The six condition codes of CMP and CMPI (R44, R129). -/
def condCode (cc : Nat) (a b : Word) : Bool :=
  match cc with
  | 0 => a == b
  | 1 => a != b
  | 2 => a.slt b
  | 3 => b.sle a
  | 4 => a.ult b
  | _ => b.ule a

/-- The four functions of PLOG (R130). -/
def predLogic (fn : Nat) (a b : Bool) : Bool :=
  match fn with
  | 0 => a && b
  | 1 => a || b
  | 2 => a ^^ b
  | _ => a && !b

/-- A load or store that a context issued before cycle `t` has not been performed: a store held for a promotion with no line to
stand in (R288), a result of MEM that has not returned (R39), or a timed load whose rows have not arrived (R216). -/
def State.earlierOut (s : State) (c t : Nat) : Bool :=
  (s.doms.any fun d => d.2.heldW.any fun h => h.ctx == some c && decide (h.issued < t)) ||
  ((s.ctx c).pending.any fun p => p.saveIa.isNone && (p.slot == 4 || p.dest == .arrival) && decide (p.issued < t)) ||
  (s.core (coreOf c)).landing.any fun l => l.2.st == .waiting && l.2.owner == ctxOf c && decide (l.2.issued < t)

/-- A flag operation that takes effect in cycle `cyc` at the earliest: bundles see it from the next cycle on (R53, R324). Those
of one context on one core keep their order (R326). -/
def State.flagOp (s : State) (core flag : Nat) (set : Bool) (cyc : Nat) (origin : Option Nat := none) : State :=
  s.onCore core fun k =>
    let last := k.flagOps.foldl (fun m o => if origin.isSome && o.origin == origin then max m o.due else m) 0
    { k with flagOps := k.flagOps ++ [{ due := max (cyc + 1) (last + 1), flag := flag, set := set, origin := origin, issued := s.cycle }] }

/-- An engine sets a flag in the current cycle (R233, R253, R326). -/
def State.engineFlag (s : State) (core flag : Nat) : State := s.flagOp core flag true s.cycle

/-- The flag operations of a core that have arrived: clears first, then sets, so that a set wins (R326). -/
def applyFlagOps (flags : BitVec 16) (ops : List FlagOp) : BitVec 16 :=
  let mask (set : Bool) : BitVec 16 :=
    ops.foldl (fun m o => if o.set == set then m ||| BitVec.ofNat 16 (2 ^ o.flag) else m) 0
  (flags &&& ~~~(mask false)) ||| mask true

/-- A flag operation arrives: it is due, and every load and store that its context issued before it has been performed (R324,
R325). -/
def State.flagArrives (s : State) (o : FlagOp) : Bool :=
  decide (o.due ≤ s.cycle) && !(o.origin.any fun c => s.earlierOut c o.issued)

/-- The flag operations of every core that arrive. -/
def State.landFlags (s : State) : State :=
  { s with cores := s.cores.map fun (n, k) =>
      (n, if k.flagOps.isEmpty then k
          else { k with flags := applyFlagOps k.flags (k.flagOps.filter s.flagArrives)
                        flagOps := k.flagOps.filter fun o => !s.flagArrives o }) }

end Sys2Proof.Machine
end

