-- ==== Sys2Proof/Machine/Operands.lean ====
section
/-! DEFINITION. Operands: registers, immediates with their prefixes, vector names, special registers, address windows,
and what a bundle's checks and interlocks ask of the registers an instruction names (R24 to R45, R106, R115, R283). -/

namespace Sys2Proof.Machine

/-! ## The context at the point of issue -/

/-- Package context number of the context whose slot is being executed. -/
def State.cs (s : State) : Nat := 4 * s.iss.core + s.iss.ctx
def State.cx (s : State) : Ctx := s.ctx s.cs
/-- The core, pair, face, domain and partition at the point of issue. -/
def State.ico (s : State) : Core := s.core s.iss.core
def State.ipair (s : State) : Nat := pairOf s.iss.core
def State.iface (s : State) : Nat := faceOf s.iss.core
def State.idom (s : State) : Nat := domOf s.iss.core
def State.ipart (s : State) : Nat := s.partOf s.iss.core
def State.onCx (s : State) (f : Ctx → Ctx) : State := s.onCtx s.cs f

/-! ## Registers -/

/-- A scalar register; s0 reads 0 (R102). -/
def Ctx.sreg (x : Ctx) (n : BitVec 5) : Word := if n = 0 then 0 else x.s[n.toNat]
/-- A predicate; p0 reads true (R102). -/
def Ctx.preg (x : Ctx) (n : BitVec 4) : Bool := n == 0 || x.p.getLsbD n.toNat

/-- A scalar register is written; s0 discards it (R25). -/
def Ctx.setS (x : Ctx) (n : Nat) (v : Word) : Ctx :=
  if h : 0 < n ∧ n < 32 then { x with s := x.s.set n v h.2 } else x
/-- A predicate is written; p0 discards it (R25). -/
def Ctx.setP (x : Ctx) (n : Nat) (v : Bool) : Ctx :=
  if n = 0 then x
  else { x with p := if v then x.p ||| BitVec.ofNat 16 (2 ^ n) else x.p &&& ~~~(BitVec.ofNat 16 (2 ^ n)) }

/-- The physical register of a vector name (R106). -/
def Ctx.phys (x : Ctx) (n : Nat) : Nat :=
  let rs := x.vcount - x.rot
  if n < rs then x.base + n else x.base + rs + (n - rs + x.rrb) % x.rot

def Core.tile (k : Core) (phys : Nat) : Tile := Tbl.look k.vreg phys []
/-- A lane of a tile; a tile that is not listed is zero (R140). -/
def lane (t : Tile) (i : Nat) : Lane := t.getD i 0
def State.vreg (s : State) (n : BitVec 6) : Tile := s.ico.tile (s.cx.phys n.toNat)

/-- A tile built lane by lane (R138). -/
def tileOf (f : Nat → Lane) : Tile := (List.range 1024).map f
/-- One lane of a tile replaced (R162). -/
def setLane (t : Tile) (i : Nat) (v : Lane) : Tile := tileOf fun j => if j = i then v else lane t j

/-! ## Special registers (R115 to R122) -/

def ctxId (c : Nat) : Word :=
  let core := coreOf c
  BitVec.ofNat 64 (dieOf core * 2 ^ 27 + domOf core * 2 ^ 24 + faceOf core * 2 ^ 19 + pairOf core * 2 ^ 11 + core * 4
    + ctxOf c)

def Ctx.stat (x : Ctx) : Word :=
  BitVec.ofNat 64 (x.priv * 4 + (x.run == .booked).toNat * 2 + x.chk.toNat)
def Ctx.vallot (x : Ctx) : Word := BitVec.ofNat 64 (x.base * 65536 + x.rot * 256 + x.vcount)

/-- The value of a special register of context `c` (R115). -/
def State.srRead (s : State) (c num : Nat) : Word :=
  let x := s.ctx c
  match num with
  | 0x000 => ctxId c
  | 0x001 => x.stat
  | 0x002 => x.vallot
  | 0x003 => BitVec.ofNat 64 x.rrb
  | 0x004 => x.lc
  | 0x005 => x.ec
  | 0x006 => x.esc.zeroExtend 64
  | 0x007 => x.pq
  | 0x008 => x.taskid
  | 0x009 => x.inst
  | 0x00A => x.tags
  | 0x00B => (s.core (coreOf c)).flags.zeroExtend 64
  | 0x020 => s.gtcWord
  | 0x021 => BitVec.ofNat 64 s.tick
  | 0x022 => if x.run = .booked then BitVec.ofNat 64 x.slack else 0
  | 0x030 => x.tcause
  | 0x031 => x.tpc
  | 0x032 => x.taddr
  | 0x033 => BitVec.ofNat 64 x.tslot
  | 0x041 => x.nfrMx.zeroExtend 64
  | 0x042 => x.nfrXc.zeroExtend 64
  | 0x050 => x.landpend.zeroExtend 64
  | _ => Tbl.look x.aw (num - 0x100) 0

/-- An RO register, whose MTSR is ignored (R115). -/
def srReadOnly (num : Nat) : Bool :=
  [0x000, 0x002, 0x008, 0x009, 0x020, 0x021, 0x022, 0x030, 0x031, 0x032, 0x033, 0x041, 0x042, 0x050].contains num

/-- The bits of a window word that R284 gives; the rest read as zero. -/
def awMask (j : Nat) : Word :=
  match j % 4 with
  | 0 => 0xFFFFFFFFFFFF0000
  | 1 => 0xFFFFFFFFFFFF0000
  | 2 => 0x000FFFFFFFFF0000
  | _ => 0x00000000000000FF

/-- The fields of PQ that R75 gives. -/
def pqMask : Word := 0x0000FFFFFFFF003F

/-- The fields of TCAUSE (R120) and of NFR.MX and NFR.XC (R67). -/
def tcauseMask : Word := 0xFF3F
def nfrMask : Word := 0xFF3F

/-- A special register takes a written value, by its access code (R108, R115 to R121). -/
def State.srWrite (s : State) (c num : Nat) (v : Word) : State :=
  match num with
  | 0x001 => s.onCtx c fun x => { x with chk := v.getLsbD 0 }
  | 0x003 => s.onCtx c fun x => { x with rrb := if x.rot = 0 then 0 else v.toNat % x.rot }
  | 0x004 => s.onCtx c fun x => { x with lc := v }
  | 0x005 => s.onCtx c fun x => { x with ec := v }
  | 0x006 => s.onCtx c fun x => { x with esc := v.truncate 32 }
  | 0x007 => s.onCtx c fun x => { x with pq := v &&& pqMask }
  | 0x00A => s.onCtx c fun x => { x with tags := x.tags &&& ~~~v }
  | 0x00B => s.onCore (coreOf c) fun k => { k with flags := k.flags &&& ~~~(v.truncate 16) }
  | _ =>
    if 0x100 ≤ num ∧ num ≤ 0x11F then
      s.onCtx c fun x => { x with aw := Tbl.put x.aw (num - 0x100) (v &&& awMask (num - 0x100)) }
    else s

/-! ## Results in flight (R38) -/

/-- One late trap ranks before or with another: it fell in an earlier cycle, or its load was issued no later (R191). -/
def LateTrap.before (t u : LateTrap) : Bool := t.fell < u.fell || (t.fell == u.fell && t.issued ≤ u.issued)

/-- A trap of the context at its next bundle, which falls in this cycle; a context that has halted takes none. -/
def State.owe (s : State) (c : Nat) (t : LateTrap) : State :=
  s.onCtx c fun x =>
    if x.run = .halted ∨ x.run = .stopping then x
    else
      let u := { t with fell := s.cycle }
      { x with late := x.late.filter (fun v => v.before u) ++ u :: x.late.filter fun v => !v.before u }

/-- A result reaches its register. -/
def State.land (s : State) (c : Nat) (w : Write) : State :=
  match w with
  | .scalar n v => s.onCtx c fun x => x.setS n v
  | .pred n v => s.onCtx c fun x => x.setP n v
  | .owe t => s.owe c t
  | .tile p t => s.onCore (coreOf c) fun k => { k with vreg := Tbl.put k.vreg p t }
  | .lane p i v => s.onCore (coreOf c) fun k => { k with vreg := Tbl.put k.vreg p (setLane (k.tile p) i v) }
  | .sreg n v => s.srWrite c n v
  | .setTags v => s.onCtx c fun x => { x with tags := x.tags ||| v }
  | .setFlags v => s.onCore (coreOf c) fun k => { k with flags := k.flags ||| v }
  | .loopShift live => s.onCtx c fun x =>
      -- p15 := p14; …; p9 := p8; p8 := live
      { x with p := (x.p &&& 0x00FF) ||| ((x.p &&& 0x7F00) <<< 1) ||| (if live then 0x0100 else 0) }

/-- The writes that take a result back (R413). -/
def State.oldOf (s : State) (c : Nat) (w : Write) : List Write :=
  let x := s.ctx c
  match w with
  | .scalar n _ => [.scalar n (x.sreg (BitVec.ofNat 5 n))]
  | .pred n _ => [.pred n (x.preg (BitVec.ofNat 4 n))]
  | .tile p _ => [.tile p ((s.core (coreOf c)).tile p)]
  | .lane p i _ => [.lane p i (lane ((s.core (coreOf c)).tile p) i)]
  | .sreg n v =>
    -- of a W1C register, the bits that the write clears
    if n = 0x00A then [.setTags (x.tags &&& v)]
    else if n = 0x00B then [.setFlags ((s.core (coreOf c)).flags &&& v.truncate 16)]
    else [.sreg n (s.srRead c n)]
  | .setTags _ => []
  | .setFlags _ => []
  | .owe _ => []
  | .loopShift _ => (List.range 8).map fun j => .pred (8 + j) (x.preg (BitVec.ofNat 4 (8 + j)))

/-- A result that is due reaches its register; what it takes to take it back is kept for this cycle. -/
def State.landDue (s : State) (c : Nat) (i : InFlight) : State :=
  let old := s.oldOf c i.w
  (s.land c i.w).onCtx c fun x => if old.isEmpty then x else { x with undo := (i, old) :: x.undo }

/-- A LOOP's predicate shift, which comes before the other results of its cycle (R137). -/
def Write.isShift : Write → Bool
  | .loopShift _ => true
  | _ => false

/-- The results written in this cycle are in flight again (R413); a LOOP's shift stands after its registers (R420). -/
def State.undoLanded (s : State) (c : Nat) : State :=
  let u := (s.ctx c).undo
  let s := u.foldl (fun s e => e.2.foldl (fun s w => s.land c w) s) s
  let l := (u.map Prod.fst).reverse
  s.onCtx c fun x =>
    { x with undo := [], inflight := (l.filter fun i => !i.w.isShift) ++ l.filter (fun i => i.w.isShift) ++ x.inflight }

/-- A result issued now is due in `lat` cycles. -/
def State.result (s : State) (lat : Nat) (w : Write) : State :=
  s.onCx fun x => { x with inflight := x.inflight ++ [{ due := s.cycle + lat, slot := s.iss.slot, w := w, issued := s.cycle }] }

def State.resultS (s : State) (lat : Nat) (d : BitVec 5) (v : Word) : State := s.result lat (.scalar d.toNat v)
def State.resultP (s : State) (lat : Nat) (d : BitVec 4) (v : Bool) : State := s.result lat (.pred d.toNat v)
/-- A whole tile, at the physical register its name has now (R107). -/
def State.resultV (s : State) (lat : Nat) (d : BitVec 6) (t : Tile) : State :=
  s.result lat (.tile (s.cx.phys d.toNat) t)

/-! ## Immediates (R27, R33) -/

/-- An immediate under the pending prefix of its slot: sext(payload : imm). -/
def State.imm {w : Nat} (s : State) (i : BitVec w) : Int :=
  match Tbl.find s.cx.prefixes s.iss.slot with
  | some p => (p ++ i).toInt
  | none => i.toInt

def State.immW {w : Nat} (s : State) (i : BitVec w) : Word := BitVec.ofInt 64 (s.imm i)

/-- The V-X immediate of R33: zero-extended without a prefix. -/
def State.immVx (s : State) (i : BitVec 8) : Nat :=
  match Tbl.find s.cx.prefixes s.iss.slot with
  | some p => (p ++ i).toNat
  | none => i.toNat

/-- Bits [31:10] of a V-X immediate are zero (R33). -/
def vxOk (imm : Nat) : Bool := imm < 1024
/-- The linear lane index that a V-X immediate names (R33). -/
def vxLane (imm : Nat) : Nat := imm / 16 % 16 * 64 + (imm % 16 * 4 + imm / 256 % 4)

/-! ## Scalar groups (R22) -/

/-- sg+i of a scalar group. -/
def Ctx.grp (x : Ctx) (g : BitVec 5) (i : Nat) : Word := x.sreg (g + BitVec.ofNat 5 i)
def Ctx.group (x : Ctx) (g : BitVec 5) : List Word := (List.range 8).map (x.grp g)

/-! ## What an instruction asks of the registers -/

/-- The registers that an instruction reads and writes, and the latency of its fixed-latency results. -/
structure Uses where
  rs  : List (BitVec 5) := []
  ws  : List (BitVec 5) := []
  rp  : List (BitVec 4) := []
  wp  : List (BitVec 4) := []
  rv  : List (BitVec 6) := []
  wv  : List (BitVec 6) := []
  /-- special registers read and written -/
  rr  : List Nat := []
  wr  : List Nat := []
  lat : Nat := 1
  /-- the results have a variable latency (R39) -/
  var : Bool := false
  /-- the vector write does not wait for a pending one (VPUT, R162) -/
  lone : Bool := false
  deriving DecidableEq, Repr

/-- A pending variable-latency write of a register that the instruction reads or writes (R39). -/
def Uses.interlocked (u : Uses) (x : Ctx) : Bool :=
  (x.pending.filter fun p => p.saveIa.isNone && !p.arrived).any fun p =>
    match p.dest with
    | .scalar n => (u.rs ++ u.ws).any fun r => r.toNat == n && n != 0
    | .tile q => (u.rv ++ (if u.lone then [] else u.wv)).any fun r => x.phys r.toNat == q
    | .arrival => false
    | .nothing => false

/-- A result in flight that writes a register this list of names covers. -/
def writesOne (x : Ctx) (s : List (BitVec 5)) (p : List (BitVec 4)) (v : List (BitVec 6)) (r : List Nat) (w : Write) :
    Bool :=
  match w with
  | .scalar n _ => s.any fun a => a.toNat == n && n != 0
  | .pred n _ => p.any fun a => a.toNat == n && n != 0
  | .tile q _ => v.any fun a => x.phys a.toNat == q
  | .lane q _ _ => v.any fun a => x.phys a.toNat == q
  | .sreg n _ => r.contains n
  | .setTags _ => false
  | .owe _ => false
  | .setFlags _ => false
  | .loopShift _ => p.any fun a => 8 ≤ a.toNat

/-- The special registers that an instruction reads: a rotating vector name reads RRB too (R106). -/
def Uses.srRead (u : Uses) (x : Ctx) : List Nat :=
  if x.rot ≠ 0 ∧ (u.rv ++ u.wv).any fun n => x.vcount - x.rot ≤ n.toNat then 0x003 :: u.rr else u.rr

/-- R42: a read before a pending fixed-latency write is due, or a write that would land before an older one. -/
def Uses.short (u : Uses) (x : Ctx) (now : Nat) : Bool :=
  x.inflight.any fun i =>
    (now < i.due && writesOne x u.rs u.rp u.rv (u.srRead x) i.w) ||
    (!u.var && now + u.lat < i.due && writesOne x u.ws u.wp u.wv u.wr i.w)

/-! ## Address windows (R283 to R285) -/

/-- What an access asks of a window. -/
inductive Use where
  | fetch
  | read
  | write
  | both
  deriving DecidableEq, Repr

/-- A window as its four words give it (R284). -/
structure Window where
  vabase : Nat
  valast : Nat
  iabase : Nat
  en     : Bool
  kind   : Nat
  alloc  : Bool
  x      : Bool
  w      : Bool
  r      : Bool
  deriving DecidableEq, Repr

def windowOf (w0 w1 w2 w3 : Word) : Window :=
  { vabase := w0.toNat / 65536, valast := w1.toNat / 65536, iabase := w2.toNat / 65536 % 2 ^ 36
    en := w3.getLsbD 7, kind := w3.toNat / 16 % 8, alloc := !w3.getLsbD 3
    x := w3.getLsbD 2, w := w3.getLsbD 1, r := w3.getLsbD 0 }

def Ctx.window (x : Ctx) (w : Nat) : Window :=
  windowOf (Tbl.look x.aw (4 * w) 0) (Tbl.look x.aw (4 * w + 1) 0) (Tbl.look x.aw (4 * w + 2) 0)
    (Tbl.look x.aw (4 * w + 3) 0)

/-- The window takes part and holds the address (R283). -/
def Window.matches (w : Window) (va : Nat) : Bool :=
  w.en && w.kind ≤ 5 && w.vabase ≤ va / 65536 && va / 65536 ≤ w.valast

def Window.permits (w : Window) (u : Use) : Bool :=
  match u with
  | .fetch => w.x
  | .read => w.r
  | .write => w.w
  | .both => w.r && w.w

def Window.toIa (w : Window) (va : Nat) : Nat := w.iabase * 65536 + (va - w.vabase * 65536)

/-- The lowest matching window, of a list of eight (R283). -/
def findWindow (ws : List Window) (va : Nat) : Option Window := ws.find? fun w => w.matches va

def Ctx.windows (x : Ctx) : List Window := (List.range 8).map x.window

/-- Eight windows from the 32 words of a window set (R98). -/
def windowSet (ws : List Word) : List Window :=
  (List.range 8).map fun w =>
    windowOf (wordAt ws (4 * w)) (wordAt ws (4 * w + 1)) (wordAt ws (4 * w + 2)) (wordAt ws (4 * w + 3))

/-- The region that an IA lies in may be used through a window of this kind by a core (R285): none, or the trap. -/
def regionFault (ia kind : Nat) : Option Nat :=
  let r := iaRegion ia
  if 0xC ≤ r && r ≤ 0xE then some codeXLATE
  else
    let need := if r ≤ 8 then [0] else if r = 9 then [3] else if r = 0xA then [1, 4] else if r = 0xB then [2] else [5]
    if need.contains kind then none else some codeACCESS

/-- A translated access: the window, and the IA of its first byte. -/
structure Trans where
  win : Window
  ia  : Nat
  deriving DecidableEq, Repr

/-- The IA of a byte is in its region's form (R169, R182, R251). -/
def iaForm (ia : Nat) : Bool :=
  match iaRegion ia with
  | 0x9 => bitsOf ia 31 17 == 0 && bitsOf ia 20 11 < 1536
  | 0xA => bitsOf ia 29 19 == 0
  | 0xB => bitsOf ia 33 15 == 0
  | _ => true

/-- translate of R283 for `n` bytes that must lie in one window (R192): the translation, or the trap code and
TADDR. `lo` is the lowest byte touched and `base` decides the window. -/
def translate (ws : List Window) (base lo n : Nat) (u : Use) : Except (Nat × Nat) Trans :=
  match findWindow ws base with
  | none => .error (codeXLATE, base)
  | some w =>
    let hi := lo + n - 1
    if 2 ^ 52 ≤ w.toIa base then .error (codeXLATE, base)
    else if lo / 65536 < w.vabase then .error (codeXLATE, lo)
    else if w.valast < hi / 65536 then .error (codeXLATE, max lo ((w.valast + 1) * 65536))
    else if 2 ^ 52 ≤ w.toIa hi then .error (codeXLATE, max lo (2 ^ 52 - w.iabase * 65536 + w.vabase * 65536))
    else if !w.permits u then .error (codeACCESS, base)
    else .ok { win := w, ia := w.toIa base }

/-- The task of a context, if it runs one: domain and slot (R119, R353). -/
def State.taskOf (s : State) (x : Ctx) : Option (Nat × Task) :=
  if x.taskid = 0 then none
  else s.disps.findSome? fun d => (d.2.tasks.find? fun t => t.slot == x.taskid.toNat).map fun t => (d.1, t)

/-- The versions of pages that a context's accesses reach (R362). -/
def State.versionsOf (s : State) (x : Ctx) : List (Nat × Nat) :=
  match s.taskOf x with
  | none => []
  | some (d, t) => t.renamed.map fun v => (d * 2 ^ 32 + v.1, v.2)

/-- The request that a core access of context `c` makes. -/
def State.coreReq (s : State) (c : Nat) (alloc : Bool) : Req :=
  { dom := domOf (coreOf c), part := s.partOf (coreOf c), ctx := some c, alloc := alloc, vers := s.versionsOf (s.ctx c) }

end Sys2Proof.Machine
end

