-- ==== Sys2Proof/Machine/Plan.lean ====
section
/-! DEFINITION. Plans and their admission: reading a plan, its rows on a core, the tests of R204, and booking
(R200 to R204, R221, R222). -/

namespace Sys2Proof.Machine

/-- A plan from its header and entry words (R200). -/
def planOf (ws : List Word) : Plan :=
  let w0 := (wordAt ws 0).toNat
  let w1 := (wordAt ws 1).toNat
  { slack := bitsOf w0 32 32, code := bitsOf w0 16 16, policy := bitsOf w0 8 8, count := bitsOf w0 0 8
    ratio := bitsOf w1 32 16, total := bitsOf w1 0 32, rsvd := bitsOf w1 48 16, entries := ws.drop 2 }

/-- The plan at an IA, read from memory (R200). -/
def State.readPlan (s : State) (q : Req) (ia : Nat) : Option Plan × State :=
  match s.readBytes q ia 16 with
  | (.error _, s) => (none, s)
  | (.ok h, s) =>
    match s.readBytes q (ia + 16) (8 * (leNat (h.take 1))) with
    | (.ok e, s) => (some (planOf (wordsOf (2 + leNat (h.take 1)) (h ++ e))), s)
    | (.error _, s) => (none, s)

/-- Fields of a plan entry (R201). -/
def entOff (e : Word) : Nat := bitsOf e.toNat 16 16
def entLen (e : Word) : Nat := bitsOf e.toNat 32 16
def entHold (e : Word) : Bool := e.getLsbD 48
def entClass (e : Word) : Nat := bitsOf e.toNat 13 3
def entIndex (e : Word) : Nat := bitsOf e.toNat 0 13

/-- An entry's INDEX lies in its class's range, and an ABS entry names no reserved row (R202, R203). -/
def entIndexOk (e : Word) : Bool :=
  let i := entIndex e
  match entClass e with
  | 0 => i == 0
  | 1 => i ≤ 1
  | 2 => i ≤ 31
  | 3 => i ≤ 1
  | 4 => i ≤ 47
  | 5 => i ≤ 3
  | 6 => i ≤ 7
  | _ => i < 0x16C

/-- The plan is not BADPLAN (R203). -/
def Plan.good (p : Plan) : Bool :=
  1 ≤ p.count && p.count ≤ 32 && 1 ≤ p.code && p.code ≤ 2048 && p.policy ≤ 1 && p.ratio ≤ 1 &&
  1 ≤ p.total && p.total ≤ 8191 && p.rsvd == 0 && p.entries.length == p.count &&
  (p.entries.all fun e => bitsOf e.toNat 49 15 == 0 && entIndexOk e && entLen e != 0 &&
    entOff e + entLen e ≤ p.total) &&
  p.entries.any fun e => entClass e == 0 && entOff e == 0

/-- The rows that an entry names on a candidate core (R202); `lease` is the array mode of its pair. -/
def entRows (e : Word) (core : Nat) (lease : Bool) : List Nat :=
  let p := pairOf core
  let i := entIndex e
  match entClass e with
  | 0 => [rowCore core]
  | 1 => if lease then [rowArray p 0] else if i = 0 then [rowArray p (core % 2)] else [rowArray p 0, rowArray p 1]
  | 2 => [rowBank p i]
  | 3 => [0x120 + 2 * (p % 8) + i]
  | 4 => [0x130 + i]
  | 5 => [0x160 + i]
  | 6 => [0x164 + i]
  | _ => [i % 512]

/-- The row uses of a plan on a core that starts at tick `t` (R204). -/
def Plan.uses (p : Plan) (core t : Nat) (lease : Bool) : List RowUse :=
  (p.entries.map fun e => (entRows e core lease).map fun r =>
    { row := r, first := t + entOff e, len := entLen e, hold := entHold e }).flatten

/-- The pair whose array row this is. -/
def arrayRowPair (row : Nat) : Option Nat := if 0x010 ≤ row ∧ row < 0x020 then some ((row - 0x010) / 2) else none

/-- Some array row of pair index `p` is booked in tick `t`, or was in one that has passed (R222). -/
def Face.armedAt (f : Face) (p t : Nat) : Bool :=
  f.armedPast.contains (p, t) ||
    f.bookings.any fun b => b.2.rows.any fun u => arrayRowPair u.row == some p && u.first ≤ t && t < u.first + u.len

/-- The array ticks of the span of tick `t` that a booking owns. -/
def Booking.armedIn (b : Booking) (t : Nat) : List (Nat × Nat) :=
  b.rows.flatMap fun u => match arrayRowPair u.row with
    | none => []
    | some p => (((List.range 64).map (64 * (t / 64) + ·)).filter fun i => u.first ≤ i && i < u.first + u.len).map fun i => (p, i)

def Face.allow (f : Face) (p : Nat) : Nat := Tbl.look f.tallow p 64

/-- armed + new ≤ TALLOW in every span in which the uses book array rows of pair index `p` (R222). -/
def Face.allowed (f : Face) (us : List RowUse) (p : Nat) : Bool :=
  let mine (t : Nat) : Bool := us.any fun u => arrayRowPair u.row == some p && u.first ≤ t && t < u.first + u.len
  let spans := ((us.filter fun u => arrayRowPair u.row == some p).map fun u =>
    (List.range ((u.first + u.len - 1) / 64 - u.first / 64 + 1)).map fun i => u.first / 64 + i).flatten
  spans.all fun j =>
    ((List.range 64).filter fun i => mine (64 * j + i) || f.armedAt p (64 * j + i)).length ≤ f.allow p

/-- The weight-bank uses suit the ratio that each pair has in their ticks: the old one before tick B + 2 of a change, the new
one from then on (R204, R221). -/
def Face.ratioOk (f : Face) (us : List RowUse) (ratio : Nat) : Bool :=
  us.all fun u => match wbankRowPair u.row with
    | none => true
    | some p =>
      let old := (f.ratio.getLsbD p).toNat
      match Tbl.find f.ratioTick p with
      | some b => if ratio = old then u.first + u.len ≤ b + 2 else b + 2 ≤ u.first
      | none => ratio == old

/-- From the request for a change onward, no plan that books a weight-bank row of the pair is admitted at the old ratio
(R221). -/
def Face.ratioAdmits (f : Face) (us : List RowUse) (ratio : Nat) : Bool :=
  us.all fun u => match wbankRowPair u.row with
    | none => true
    | some p =>
      ratio != (f.ratio.getLsbD p).toNat ||
        ((Tbl.find f.ratioTick p).isNone && f.ratioReq.getLsbD p == f.ratio.getLsbD p)

/-- Every tick that the uses need is FREE (R204). -/
def Face.ticksFree (f : Face) (us : List RowUse) : Bool :=
  us.all fun u => match f.nextTaken u.row u.first with
    | none => true
    | some t => u.first + u.len ≤ t

/-- fits of R204 but for the ratio test. -/
def Face.fitsButRatio (f : Face) (us : List RowUse) : Bool :=
  f.ticksFree us && (List.range 8).all fun p => f.allowed us p

/-- fits of R204. -/
def Face.fits (f : Face) (us : List RowUse) (ratio : Nat) : Bool := f.fitsButRatio us && f.ratioOk us ratio

/-- A plan fits and may be admitted (R204, R221). -/
def Face.admits (f : Face) (us : List RowUse) (ratio : Nat) : Bool := f.fits us ratio && f.ratioAdmits us ratio

/-- The least booking id that is not taken (R199). -/
def Face.freeBid (f : Face) : Option Nat := (List.range 64).find? fun b => (Tbl.find f.bookings b).isNone

/-- The ticks of preload that admission leaves (R204). -/
def Plan.lead (p : Plan) : Nat := 2 + (p.code + 127) / 128

/-- The half of the core's instruction buffer for the next admitted task is free: no admitted task that has not started
holds it (R113). -/
def State.halfFree (s : State) (core : Nat) : Bool :=
  (s.core core).ibuf.length < 2 && (s.core core).ibuf.all fun h =>
    match Tbl.find (s.face (faceOf core)).bookings h.bid with
    | some b => b.started
    | none => true

/-- The pair of a core is in LEASE mode (R227). -/
def State.lease (s : State) (core : Nat) : Bool := (s.pair (pairOf core)).lease

/-- The start ticks that admission searches (R204). -/
def State.startTicks (s : State) (p : Plan) : List Nat :=
  let lo := s.tick + p.lead
  (List.range (s.tick + 8193 - p.total - lo)).map fun i => lo + i

/-- The earliest start tick and core, of one face's candidates in ascending order (R204). -/
def State.findStart (s : State) (p : Plan) (f : Nat) (cands : List Nat) : Option (Nat × Nat) :=
  (s.startTicks p).findSome? fun t =>
    (cands.find? fun c => s.halfFree c && (s.face f).admits (p.uses c t (s.lease c)) p.ratio).map fun c => (t, c)

/-- Some start tick passes every test but the ratio test (R206). -/
def State.ratioOnly (s : State) (p : Plan) (f core : Nat) : Bool :=
  (s.startTicks p).any fun t => (s.face f).fitsButRatio (p.uses core t (s.lease core))

/-- book of R204: the booking id into every tick, and a buffer half, which `State.preload` fills. -/
def State.bookPlan (s : State) (f bid : Nat) (b : Booking) : State :=
  (s.onFace f fun x => { x with bookings := Tbl.put x.bookings bid b }).onCore b.core fun k =>
    { k with ibuf := k.ibuf ++ [{ bid := bid, base := b.base, size := b.code }] }

end Sys2Proof.Machine
end

