-- ==== Sys2Proof/Machine/Ops.lean ====
section
/-! DEFINITION. The operations that families share: status records and messages, stopping a context with its save
area, taking a trap, restoring a save area, and the frame in which every slot instruction is executed
(R22 to R45, R373, R374, R403 to R426). -/

namespace Sys2Proof.Machine

/-- `n` words of which only those listed differ from 0. -/
def wordBlock (n : Nat) (t : List (Nat × Nat)) : List Word := (List.range n).map fun i => BitVec.ofNat 64 (Tbl.look t i 0)

/-! ## Rings (R373, R374, R412) -/

/-- The entries of a ring that software has not read. -/
def ringUsed (head tail : BitVec 32) : Nat := (tail - head).toNat

/-- What a unit posts waits for the end of this nanosecond of GTC: `key` is four times its source number, or the package number of
a context (R374, R412, R441). -/
def State.post (s : State) (key : Nat) (m : Post) : State := { s with outbox := s.outbox ++ [(key, m)] }

/-- One status record of a partition, from a source by its number (R374). -/
def State.statusRecord (s : State) (src p : Nat) (ws : List Word) : State := s.post (4 * src) (.record p ws)

/-- A message of a context to the supervisor of a partition, or to firmware (R409, R412). -/
def State.message (s : State) (c p : Nat) (toFirmware : Bool) (ws : List Word) : State := s.post c (.message p toFirmware ws)

/-- A status record is written, or lost (R374). -/
def State.writeRecord (s : State) (p : Nat) (ws : List Word) : State :=
  let q := s.part p
  if q.sqEn && ringUsed q.sqhead q.sqtail < 2 ^ q.sqLsize then
    let ia := q.sqbase + 64 * (q.sqtail.toNat % 2 ^ q.sqLsize)
    ((s.writeBytes (engineReq (ia / 2 ^ 48 % 8) p) ia (bytesOfWords ws)).2).onPart p fun q =>
      { q with sqtail := q.sqtail + 1 }
  else s.onPart p fun q => { q with sqlost := sat32 q.sqlost }

/-- The eight words of a status record (R373). -/
def recordWords (part queue sub kind : Nat) (gtc slot seq ctxid tpc taddr deadline : Word) : List Word :=
  [BitVec.ofNat 64 (part * 2 ^ 20 + queue * 2 ^ 16 + sub * 2 ^ 8 + kind), gtc, slot, seq, ctxid, tpc, taddr, deadline]

/-- A PREEMPT command for a context completes (R431). -/
def State.preemptDone (s : State) (c : Nat) : State :=
  if s.plat.preempts.contains c then
    s.onPlat fun y => { y with preempts := y.preempts.filter fun k => k != c, rc := 0, reply := [] }
  else s

/-- A message is written to the ring, or lost (R412); firmware gets the trap messages of a partition that its supervisor has left
(R411). -/
def State.writeMessage (s : State) (p : Nat) (toFirmware : Bool) (ws : List Word) : State :=
  let q := s.part p
  if toFirmware || (!q.hasSup && (wordAt ws 0).toNat % 256 == 1) then s.onPlat fun y => { y with fwmsgs := y.fwmsgs ++ [ws] }
  else if q.msgEn && ringUsed q.msghead q.msgtail < 2 ^ q.msgLsize then
    let ia := q.msgbase + 64 * (q.msgtail.toNat % 2 ^ q.msgLsize)
    let s := ((s.writeBytes (engineReq (ia / 2 ^ 48 % 8) p) ia (bytesOfWords ws)).2).onPart p fun q =>
      { q with msgtail := q.msgtail + 1 }
    if q.msgFlagEn && q.hasSup then s.engineFlag (coreOf q.supctx) q.msgFlag else s
  else s.onPart p fun q => { q with msglost := sat32 q.msglost }

/-- What was posted leaves; a PREEMPT whose context is HALTED and whose message has been written completes (R431). -/
def State.sendPost (s : State) (key : Nat) : Post → State
  | .record p ws => s.writeRecord p ws
  | .message p fw ws =>
    let s := s.writeMessage p fw ws
    if (wordAt ws 0).toNat % 256 = 3 ∨ (s.ctx key).run = .halted then s.preemptDone key else s

/-- The GTC by which a post is ordered: a message's is that of its event (R374, R412). -/
def Post.time (now : Nat) : Post → Nat
  | .record _ _ => now
  | .message _ _ ws => (wordAt ws 5).toNat

/-- Stable insertion by time, then key. -/
def insPost (now : Nat) (e : Nat × Post) : List (Nat × Post) → List (Nat × Post)
  | [] => [e]
  | f :: t =>
    if f.2.time now < e.2.time now || (f.2.time now == e.2.time now && f.1 ≤ e.1) then f :: insPost now e t else e :: f :: t

/-- A post may leave: no context of the partition is still stopping whose message comes before this one (R412). -/
def State.mayLeave (s : State) (e : Nat × Post) : Bool :=
  match e.2 with
  | .record _ _ => true
  | .message p _ ws =>
    !(s.ctxs.any fun y => s.partOf (coreOf y.1) == p && y.2.stopping.any fun z => z.msgs.any fun m =>
      (wordAt m.2 5).toNat < (wordAt ws 5).toNat || (wordAt m.2 5 == wordAt ws 5 && y.1 < e.1))

/-- The nanosecond ends: what was posted leaves, in the order of GTC, lower sources and contexts first; a message waits for those
of stops that came before it and have not ended (R374, R412, R441). -/
def State.flushOut (s : State) : State :=
  ((s.outbox.filter s.mayLeave).foldl (fun l e => insPost s.gtc e l) []).foldl (fun s e => s.sendPost e.1 e.2)
    { s with outbox := s.outbox.filter fun e => !s.mayLeave e }

/-! ## Trap causes (R406) -/

def kILLOP (word : Bool := false) : Cause := { code := 0x01, stage := 3, word := word }
def kPREFIX : Cause := { code := 0x02, stage := 2, word := true }
def kSHORT : Cause := { code := 0x03, stage := 4 }
def kVREG : Cause := { code := 0x04, stage := 3, word := true }
def kPRIV (word : Bool := false) : Cause := { code := 0x05, stage := 3, word := word }
def kFault (code addr : Nat) : Cause := { code := code, addr := BitVec.ofNat 64 addr, stage := 5 }
def kXLATE (va : Nat) : Cause := kFault 0x08 va
def kACCESS (va : Nat) : Cause := kFault 0x09 va
def kALIGN (va : Nat) : Cause := kFault 0x0D va
def kOVERRUN (sub addr : Nat) : Cause :=
  { code := 0x10, sub := sub, addr := BitVec.ofNat 64 addr, stage := if sub = 0 then 4 else 5 }

/-- The causes of an instruction that also raises ACCESS for its own operand: STAGING ranks after every ACCESS (R43). -/
def stagingLast (ks : List Cause) : List Cause := ks.filter (fun k => k.code != 0x0C) ++ ks.filter fun k => k.code == 0x0C

/-- The first cause to report: the least stage, STALL_SHORT before OVERRUN, and the order of the list (R43). -/
def firstCause (ks : List Cause) : Option Cause :=
  let key (k : Cause) : Nat := 100 * k.stage + (if k.stage = 4 then k.code else 0)
  ks.foldl (fun m k => match m with
    | none => some k
    | some j => if key k < key j then some k else some j) none

/-! ## Held macro-ops (R230, R248, R249) -/

/-- Queue `q` of a pair: 0 even free, 1 even booked, 2 odd free, 3 odd booked (R230, R255). -/
def Pair.queue (p : Pair) (q : Nat) : List MxOp := Tbl.look p.queues q []
def Pair.setQ (p : Pair) (q : Nat) (l : List MxOp) : Pair := { p with queues := Tbl.put p.queues q l }
def mxQueue (core : Nat) (booked : Bool) : Nat := 2 * (core % 2) + booked.toNat

/-- Steps of a macro-op that have started. -/
def MxOp.done (o : MxOp) : Nat := if o.op = 5 ∨ o.op = 6 then o.rows / 16 else o.seg

/-- A macro-op that a stop does not hold: its last step is in progress, or it is a drain that must not be interrupted
and has started (R245, R249). -/
def MxOp.going (o : MxOp) : Bool := o.done != 0 && (o.solid || (o.busy.isSome && o.steps ≤ o.done))

/-- The head of a queue that a stop does not hold: it goes on, or is an MZERO that has started. -/
def MxOp.goes (o : MxOp) : Bool := o.going || (o.op == 4 && o.done != 0)

/-- The macro-op is context `c`'s. -/
def MxOp.isOf (o : MxOp) (c : Nat) : Bool := o.core == coreOf c && o.ctx == ctxOf c

/-- The entries of a queue that a stop of context `c` holds; an MZERO that has started, which has one step, runs to its end
(R249). -/
def heldOf (c : Nat) (l : List MxOp) : List MxOp :=
  match l with
  | [] => []
  | h :: t => (if h.isOf c && !h.goes then [h] else []) ++ t.filter fun o => o.isOf c

/-- The entries of a queue that stay when context `c` stops. A macro-op whose step is in progress keeps its entry until the
step ends (R249, R255). -/
def stayOf (now c : Nat) (l : List MxOp) : List MxOp :=
  match l with
  | [] => []
  | h :: t =>
    (if h.isOf c && !h.goes then (if h.busy.any fun e => now < e then [{ h with steps := h.done, flagEn := false }] else [])
     else [h]) ++ t.filter fun o => !o.isOf c

/-- The last step of a macro-op has ended. -/
def MxOp.over (o : MxOp) (now : Nat) : Bool := o.steps ≤ o.done && o.busy.any fun e => e ≤ now

/-- The macro-ops of a context that a stop holds, the one in progress first. -/
def State.mxOf (s : State) (c : Nat) : List MxOp :=
  let p := s.pair (pairOf (coreOf c))
  heldOf c (p.queue (mxQueue (coreOf c) true)) ++ heldOf c (p.queue (mxQueue (coreOf c) false))

/-- The macro-ops of a context that a stop holds leave the queues (R249). -/
def State.mxDrop (s : State) (c : Nat) : State :=
  s.onPair (pairOf (coreOf c)) fun p =>
    { p with queues := p.queues.map fun (q, l) => (q, stayOf s.cycle c l) }

/-- Held macro-ops with those that a stop adds: the one with progress comes first. -/
def joinHeld (old new : List MxOp) : List MxOp :=
  if (old.head?.any fun o => o.done != 0) && !(new.head?.any fun o => o.done != 0) then old ++ new else new ++ old

/-- The progress record of a context (R248). -/
def progressWord (o : Option MxOp) (held : Bool) : Nat :=
  match o with
  | none => 0
  | some o => 2 ^ 48 + o.op * 2 ^ 44 + o.acc * 2 ^ 43 + held.toNat * 2 ^ 42 + o.rows * 2 ^ 32 + o.seg

/-! ## The save area (R417 to R421) -/

/-- IA of the save area of a context (R417). -/
def State.saveArea (s : State) (c : Nat) : Nat :=
  let p := s.partOf (coreOf c)
  let rank := ((s.facesOf p).filter fun f => f < faceOf (coreOf c)).length
  (s.part p).savebase + (64 * rank + 4 * (coreOf c % 16) + ctxOf c) * 0xA2000

/-- A dump entry before tiles are numbered: due cycle, kind, REG, SR or LANE field, VALUE, tile (R420). -/
structure Dump where
  due  : Nat
  w0   : Nat
  w1   : Nat
  tile : Option Tile := none
  /-- the pending result that this entry awaits -/
  pend : Option Nat := none
  deriving DecidableEq, Repr

/-- Stable insertion by due cycle: results of one due cycle keep the order of their issue, and of one bundle that of
their slots, so that the last one is the one that R38 keeps (DEDUCED, log 103). -/
def insDump (d : Dump) : List Dump → List Dump
  | [] => [d]
  | e :: t => if e.due ≤ d.due then e :: insDump d t else d :: e :: t

/-- The POISON trap of a load in flight, for which R420 has no entry: a stop drops it (DESIGN CHOICE, log 110). -/
def Write.isTrap : Write → Bool
  | .owe _ => true
  | _ => false

/-- The dump entry of a result in flight (R420). -/
def dumpInFlight (x : Ctx) (now : Nat) (i : InFlight) : Dump :=
  let rem := (i.due - now) * 2 ^ 16
  match i.w with
  | .scalar n v => { due := i.due, w0 := 1 + n * 2 ^ 8 + rem, w1 := v.toNat }
  | .pred n v => { due := i.due, w0 := 2 + n * 2 ^ 8 + rem, w1 := v.toNat }
  | .tile p t => { due := i.due, w0 := 3 + (p - x.base) * 2 ^ 8 + rem, w1 := 0, tile := some t }
  | .lane p j v => { due := i.due, w0 := 4 + (p - x.base) * 2 ^ 8 + rem + j * 2 ^ 32, w1 := v.toNat }
  | .sreg n v => { due := i.due, w0 := 5 + rem + n * 2 ^ 44, w1 := v.toNat }
  | .setTags _ => { due := i.due, w0 := 5 + rem + 0x00A * 2 ^ 44, w1 := 0 }
  | .setFlags _ => { due := i.due, w0 := 5 + rem + 0x00B * 2 ^ 44, w1 := 0 }
  | .owe _ => { due := i.due, w0 := rem, w1 := 0 }
  | .loopShift b => { due := i.due, w0 := 9 + rem, w1 := b.toNat }

/-- The dump entries of a variable-latency result (R414, R420): a load is a request, the rest await their result.
A CTLD request is told from a VLD request by its sign bit (DESIGN CHOICE: R420 gives no bit for it). -/
def dumpPending (x : Ctx) (now : Nat) (p : Pending) : List Dump :=
  let far := now + 1000000
  match p.dest with
  | .nothing => []
  | .arrival => [{ due := far, w0 := 8, w1 := p.va.toNat, pend := some p.id }]
  | .scalar n =>
    if p.reissue then
      [{ due := far, w0 := 6 + n * 2 ^ 8 + (p.width % 4) * 2 ^ 48 + p.signed.toNat * 2 ^ 50, w1 := p.va.toNat }]
    else [{ due := far, w0 := 7 + n * 2 ^ 8 + 2 ^ 42, w1 := 0, pend := some p.id }]
  | .tile q =>
    [{ due := far, w0 := 6 + (q - x.base) * 2 ^ 8 + p.fmt % 16 * 2 ^ 44 + p.coats.toNat * 2 ^ 50 + 2 ^ 51,
       w1 := p.va.toNat },
     { due := far, w0 := p.stride.toNat % 2 ^ 32 + p.nfr.toNat % 2 ^ 16 * 2 ^ 32, w1 := p.pq.toNat }]

/-- Every dump entry of a context at a stop in the current cycle, in order (R420). -/
def dumpAll (x : Ctx) (now : Nat) : List Dump :=
  ((x.inflight.filter fun i => !i.w.isTrap).map (dumpInFlight x now)).foldl (fun l d => insDump d l) [] ++ ((x.pending.filter fun p => p.saveIa.isNone).map (dumpPending x now)).flatten

/-- Tiles get their numbers in the order of their entries. -/
def numberTiles : Nat → List Dump → List Dump
  | _, [] => []
  | k, d :: t => match d.tile with
    | none => d :: numberTiles k t
    | some _ => { d with w0 := d.w0 + k * 2 ^ 24 } :: numberTiles (k + 1) t

/-- The image of a tile in memory (R139). -/
def tileBytes (t : Tile) : List Byte := ((List.range 1024).map fun i => leBytes 4 (lane t i).toNat).flatten

/-- The pending narrow-format write of one register as 0x298 records it (R419). DESIGN CHOICE (log 102): where two
writes of one register are pending, the word has room for one, and the older is recorded. -/
def nfrPending (x : Ctx) (xc : Bool) : Nat :=
  match x.nfrPend.find? fun e => e.1 == xc with
  | some (_, v, n) => v.toNat + n * 2 ^ 16
  | none => (if xc then x.nfrXc else x.nfrMx).toNat

/-- The words of a FULL save area from offset 0 to 0x18FF (R419 to R421). -/
def State.saveWords (s : State) (c kind : Nat) (pc : Word) (dump : List Dump) (held : List MxOp) : List Word :=
  let x := s.ctx c
  let k := s.core (coreOf c)
  let left (t : Nat) : Nat := min (t - s.cycle) 255
  let ntile := (dump.filter fun d => d.tile.isSome).length
  let bk := if x.run ≠ .booked then none else (x.bid.bind fun b => Tbl.find (s.face (faceOf (coreOf c))).bookings b)
  let tagbusy := (k.tags.filter fun t => t.2.busy && t.2.ctx == ctxOf c).foldl (fun m t => m + 2 ^ t.1) 0
  let header : List (Nat × Nat) :=
    [(0, 2 ^ 32 + 1), (1, (ctxId c).toNat), (2, kind), (3, s.gtc), (4, pc.toNat), (5, 0),
     (6, left (x.ready) + left k.vaFree * 2 ^ 8 + left k.vbFree * 2 ^ 16 + left k.xcFree * 2 ^ 24
         + left k.saDiv * 2 ^ 32 + left k.sbDiv * 2 ^ 40),
     (7, dump.length + ntile * 2 ^ 8), (8, tagbusy)]
  -- an outstanding BARRIVE replaces the record, and writes it here when its response arrives (R329, R414)
  let arrival := x.arrival.filter fun _ => !(x.pending.any fun p => p.dest == .arrival && p.saveIa.isNone)
  let pfx (i : Nat) : Nat := match Tbl.find x.prefixes i with
    | some p => 2 ^ 24 + p.toNat
    | none => 0
  let special : List (Nat × Nat) :=
    [(0, x.p.toNat ||| 1), (1, x.stat.toNat), (2, x.vallot.toNat), (3, x.rrb), (4, x.lc.toNat), (5, x.ec.toNat),
     (6, x.esc.toNat), (7, x.pq.toNat), (8, x.taskid.toNat), (9, x.inst.toNat), (10, x.tags.toNat),
     (11, if x.run = .booked then x.slack else 0), (12, x.tcause.toNat), (13, x.tpc.toNat), (14, x.taddr.toNat),
     (15, x.tslot), (16, x.nfrMx.toNat), (17, x.nfrXc.toNat), (18, x.landpend.toNat),
     (19, nfrPending x false + nfrPending x true * 2 ^ 32),
     (20, pfx 0 + pfx 1 * 2 ^ 32), (21, pfx 2 + pfx 3 * 2 ^ 32), (22, pfx 4 + pfx 5 * 2 ^ 32), (23, pfx 6),
     (24, (arrival.map fun a => a.1.toNat).getD 0),
     (25, (arrival.map fun a => a.2 % 2 ^ 32 + 2 ^ 32).getD 0), (26, x.paid)]
  let opWords (o : MxOp) : List Word :=
    [o.word.zeroExtend 64, o.pc, o.nfr] ++ (List.range 8).map (wordAt o.group) ++ [0]
  let array : List Word :=
    [BitVec.ofNat 64 (progressWord held.head? true), (held.head?.map MxOp.pc).getD 0, BitVec.ofNat 64 held.length,
     0, 0, 0, 0, 0] ++ (held.take 9).flatMap opWords
  let cal : List (Nat × Nat) := match bk with
    | none => []
    | some b =>
      [(0, b.planIa), (1, b.cut + (s.tick - b.start) + s.cycle % 32 * 2 ^ 16), (2, x.slack), (3, b.slip.toNat),
       (4, b.base.toNat)]
  let landing (i : Nat) : List Word :=
    let l := Tbl.look k.landing i {}
    if l.st = .empty ∨ l.owner ≠ ctxOf c then List.replicate 8 0
    else [if l.st = .waiting then 1 else 2, l.va, l.stride, BitVec.ofNat 64 (l.fmt % 16), l.nfr, l.pq, 0, 0]
  wordBlock 32 header ++ ((0 : Word) :: (x.s.toList.drop 1)) ++ wordBlock 32 special ++
    ((List.range 32).map fun j => Tbl.look x.aw j 0) ++
    (array ++ List.replicate (128 - array.length) 0) ++ wordBlock 32 cal ++
    (dump.flatMap fun d => [BitVec.ofNat 64 d.w0, BitVec.ofNat 64 d.w1]) ++
    List.replicate (256 - 2 * dump.length) 0 ++ (List.range 32).flatMap landing

/-- The save area of a stop (R413, R417, R419), as IAs and bytes: header and registers, tiles, landing slots, dumped tiles. -/
def State.saveImage (s : State) (c kind : Nat) (pc : Word) (dump : List Dump) (held : List MxOp) : List (Nat × List Byte) :=
  let x := s.ctx c
  let k := s.core (coreOf c)
  let sa := s.saveArea c
  (sa, bytesOfWords (s.saveWords c kind pc dump held)) ::
    ((List.range x.vcount).map fun i => (sa + 0x2000 + 0x1000 * i, tileBytes (k.tile (x.base + i)))) ++
    ((List.range 32).filterMap fun i =>
      let l := Tbl.look k.landing i {}
      if l.st = .landed ∧ l.owner = ctxOf c then some (sa + 0x42000 + 0x1000 * i, tileBytes l.lanes) else none) ++
    (dump.filterMap Dump.tile).zipIdx.map fun (t, i) => (sa + 0x62000 + 0x1000 * i, tileBytes t)

/-- A context's save area is written. -/
def State.writeArea (s : State) (c : Nat) (l : List (Nat × List Byte)) : State :=
  l.foldl (fun s w => (s.writeBytes (engineReq (domOf (coreOf c)) (s.partOf (coreOf c))) w.1 w.2).2) s

/-! ## Stops (R413 to R421) -/

/-- NOFIT of R206. -/
def stNOFIT : Word := 0xFFFFFFFFFFFFFFFF

/-- What a stop does to the waits of a context before it is dumped: a SNOOZE ends with 2, a BOOK that has been answered
with NOFIT (R333, R414), and whatever the bundle waits for is withdrawn. -/
def endWaits (x : Ctx) : Ctx :=
  let y := match x.sleep.snooze with
    | some (d, _) => x.setS d 2
    | none => x
  let y := match x.sleep.book with
    | some (d, _) => y.setS d stNOFIT
    | none => y
  { y with sleep := .awake }

/-- A BOOK that its controller has not answered is a pending result of the stopped context: it is performed once, and its
answer goes to the save area (R414). -/
def State.keepBook (s : State) (c : Nat) : State :=
  match (s.ctx c).sleep.book with
  | some (d, 0) =>
    ((s.onCtx c fun x =>
        { x with sleep := { x.sleep with book := none }
                 pending := x.pending ++ [{ id := s.fresh, slot := 7, dest := .scalar d, reissue := false }] }).onFace (faceOf (coreOf c))
      fun f => { f with requests := f.requests.map fun q => match q with
        | .book k p _ => if k = c then .bookSaved c s.fresh p else q
        | q => q }).bump
  | _ => s

/-- The landing slots of a context become EMPTY (R177). -/
def Core.dropLandings (k : Core) (ctx : Nat) : Core :=
  { k with landing := k.landing.map fun (i, l) => (i, if l.owner = ctx ∧ l.st ≠ .empty then {} else l) }

/-- The fields that a context loses when it becomes HALTED: its allotment, results in flight, waits, monitor, landing
marks and prefixes (R103, R140, R414). -/
def Ctx.halted (x : Ctx) : Ctx :=
  { x with run := .halted, base := 0, vcount := 0, rot := 0, inflight := [], sleep := .awake, monitor := .disarmed
           prefixes := [], nfrPend := [], landpend := 0, bid := none, late := [], fetchMiss := none, fetched := [], heldAt := none
           unbook := false, stopReq := none, stopping := none, held := [], arrival := none }

/-- Where a dump entry's VALUE lies. -/
def dumpIa (sa i : Nat) : Nat := sa + 0x908 + 16 * i

/-- The results that are performed once go on, and will be written into the save area (R414). -/
def savedPending (x : Ctx) (sa : Nat) (dump : List Dump) : List Pending :=
  x.pending.filterMap fun p =>
    if p.saveIa.isSome then some p
    else match dump.findIdx? fun d => d.pend == some p.id with
    | some i => some { p with
        arrived := false
        saveIa := some (if p.dest = .arrival then sa + 0x2C0 else dumpIa sa i)
        barrier := match p.dest with
          | .scalar n => x.sreg (BitVec.ofNat 5 n)
          | _ => p.barrier }
    | none => none

/-- The task of a context is marked, if it runs one. -/
def State.onTask (s : State) (x : Ctx) (f : Task → Task) : State :=
  match s.taskOf x with
  | none => s
  | some (d, t) => s.onDisp d fun y => { y with tasks := y.tasks.map fun u => if u.seq = t.seq then f u else u }

/-- What the engines still hold of a context goes on as free work (R211, R257, R395, R415). -/
def State.freeWork (s : State) (c : Nat) : State :=
  let s := s.onPair (pairOf (coreOf c)) fun x =>
    { x with queues := x.queues.map fun (q, l) => (q, l.map fun o => if o.isOf c then { o with bid := none, stuck := false } else o) }
  let s := (List.range 4).foldl (fun s i =>
    let e := 4 * faceOf (coreOf c) + i
    if (s.engine e).queue.any fun x => 4 * x.core + x.ctx == c && x.bid.isSome then
      s.onEngine e fun y =>
        { y with queue := y.queue.map fun x => if 4 * x.core + x.ctx = c then { x with bid := none, stuck := false } else x }
    else s) s
  { s with colls := s.colls.map fun (k, y) =>
      (k, { y with members := y.members.map fun m => if 4 * m.core + m.ctx = c then { m with bid := none } else m }) }

/-- The end of the steps in progress of the macro-ops that a stop holds (R249). -/
def stepsEnd (held : List MxOp) : Nat := held.foldl (fun m o => max m (o.busy.getD 0)) 0

/-- The edge of a stop (R409, R413 to R417): what the context holds is dumped into the image of its save area, its bookings
are released, and what the engines hold of it leaves or goes on as free work. The context keeps its allotment and its
landing slots until the stop is complete. -/
def State.stopEdge (s : State) (c kind : Nat) (pc : Word) (msg : Bool × List Word) : State :=
  let s := ((s.undoLanded c).keepBook c).onCtx c endWaits
  let x := s.ctx c
  let dump := numberTiles 0 (dumpAll x s.cycle)
  let mx := s.mxOf c
  let held := joinHeld x.held mx
  let z : Stopping := { due := stepsEnd mx, area := s.saveImage c kind pc dump held, msgs := [msg] }
  let sa := s.saveArea c
  let s := (s.mxDrop c).freeWork c
  let s := s.releaseBooking c false
  let s := match x.bid with
    | some b => s.freeBuffer (coreOf c) b
    | none => s
  -- a result that has returned while the pair was frozen goes into the area too
  let s := (x.pending.filter Pending.arrived).foldl (fun s p => s.schedule (s.cycle + 1) (srcCore (coreOf c)) (.loadResult c p.id)) s
  s.onCtx c fun x =>
    { x.halted with
      run := .stopping, base := x.base, vcount := x.vcount, rot := x.rot, stopping := some z
      pending := savedPending x sa dump, pc := pc }

/-- The macro-op in progress of a stopping context has reached its stopping point (R249, R416). -/
def State.stopOver (s : State) (c : Nat) : Bool :=
  match (s.ctx c).stopping with
  | none => false
  | some z => z.due ≤ s.cycle && !((s.pair (pairOf (coreOf c))).queues.any fun q => q.2.any fun o => o.isOf c && !o.over s.cycle)

/-- The stop is complete: the save area is written, the allotment and the landing slots are released, the context is HALTED,
and its message follows (R412, R416). -/
def State.finishStop (s : State) (c : Nat) : State :=
  match (s.ctx c).stopping with
  | none => s
  | some z =>
    let s := (s.writeArea c z.area).onCore (coreOf c) fun k => k.dropLandings (ctxOf c)
    let s := (s.onCtx c Ctx.halted).unblock (domOf (coreOf c))
    z.msgs.foldl (fun s m => s.message c (s.partOf (coreOf c)) m.1 m.2) s

/-- The eight words of the message of a stop or trap (R412). -/
def State.stopWords (s : State) (c kind : Nat) (booked stopreq : Bool) (tpc : Word) : List Word :=
  let x := s.ctx c
  let isTrap := kind == 1
  let w0 := kind + (if isTrap then (x.tcause.toNat % 64) * 2 ^ 8 + (x.tcause.toNat / 256 % 256) * 2 ^ 16 + x.tslot * 2 ^ 24
                    else 0) + stopreq.toNat * 2 ^ 27 + booked.toNat * 2 ^ 28
  [BitVec.ofNat 64 w0, ctxId c, tpc, if isTrap then x.taddr else 0, BitVec.ofNat 64 (s.saveArea c), s.gtcWord,
   x.taskid, 0]

/-- The context is the supervisor of its partition (R402). -/
def State.isSup (s : State) (c : Nat) : Bool :=
  let q := s.part (s.partOf (coreOf c))
  q.hasSup && q.supctx == c

/-- A stop of one context with its message (R413, R417): 1 TRAP, 2 STOPPED, 3 PREEMPTED, 4 STOPAT. -/
def State.stop (s : State) (c kind : Nat) (pc : Word) (stopreq : Bool) : State :=
  let booked := (s.ctx c).run == .booked
  let s := s.stopEdge c kind pc (s.isSup c && kind == 1, s.stopWords c kind booked stopreq pc)
  if s.stopOver c then s.finishStop c else s

/-! ## Taking a trap (R43, R409) -/

/-- Context `c` takes a trap at the bundle at `pc`: the trap registers, the stop, and what R211 and R372 add. -/
def State.trapCtx (s : State) (c : Nat) (k : Cause) (slot : Nat) (pc : Word) : State :=
  let stopreq := (s.ctx c).stopReq.isSome
  let s := s.onCtx c fun x =>
    { x with tcause := BitVec.ofNat 64 (k.sub * 256 + k.code), tpc := pc, taddr := k.addr, tslot := slot }
  let x := s.ctx c
  let s := if k.code = 0x10 then s.onFace (faceOf (coreOf c)) fun f => { f with overruns := sat32 f.overruns } else s
  let s := match s.taskOf x with
    | none => s
    | some (_, t) =>
      (s.onTask x fun t => { t with faulted := true }).statusRecord (srcCore (coreOf c)) t.part
        (recordWords t.part t.queue k.code 3 s.gtcWord (BitVec.ofNat 64 t.slot) (BitVec.ofNat 64 t.seq) (ctxId c) pc k.addr
          (wordAt t.tcb 2 &&& 0xFFFFFFFFFFFF))
  s.stop c 1 pc stopreq

/-- The trap of the slot at the point of issue. -/
def State.takeTrap (s : State) (k : Cause) : State :=
  let s' := s.trapCtx s.cs k s.iss.slot s.iss.pc
  { s' with iss := { s'.iss with verdict := .trapped k } }

/-! ## Words that cannot issue yet -/

/-- The bundle must wait; `blocks` tells a wait that blocks the context (R110). -/
def State.hold (s : State) (blocks : Bool) : State := { s with iss := { s.iss with verdict := .held blocks } }

/-- The slot commits: its prefix is consumed (R26, R27). -/
def State.commit (s : State) : State :=
  { (s.onCx fun x => { x with prefixes := Tbl.del x.prefixes s.iss.slot }) with
    iss := { s.iss with verdict := .committed } }

/-- The instructions that accept a prefix (R27, R44, R46 to R48). -/
def Instr.takesPrefix : Instr → Bool
  | .addi _ _ _ => true
  | .andi _ _ _ => true
  | .ori _ _ _ => true
  | .xori _ _ _ => true
  | .cmpi _ _ _ _ => true
  | .li _ _ => true
  | .br _ _ => true
  | .call _ _ => true
  | .loop _ _ => true
  | .loopseti _ _ => true
  | .vaddiI _ _ _ _ => true
  | .vget _ _ _ _ => true
  | .vput _ _ _ _ => true
  | .sld _ _ _ _ _ _ => true
  | .sst _ _ _ _ _ => true
  | _ => false

/-- The immediate, under its prefix, is outside the limit that the instruction gives (R22, R33, R135). -/
def Instr.badImm (i : Instr) (s : State) : Bool :=
  match i with
  | .loopseti _ l => s.imm l < 0
  | .vget _ _ _ j => !vxOk (s.immVx j)
  | .vput _ _ _ j => !vxOk (s.immVx j)
  | _ => false

/-- The instructions that translate a VA of an operand: they read the context's eight windows. DEDUCED (log 15): R42 checks
every read of a register, and which windows an access reads follows from its address, so all are read. -/
def Instr.translates : Instr → Bool
  | .vld _ _ _ _ _ => true
  | .vst _ _ _ _ _ => true
  | .vldt _ _ _ _ _ => true
  | .sld _ _ _ _ _ _ => true
  | .sst _ _ _ _ _ => true
  | .slda _ _ _ _ _ => true
  | .sstr _ _ _ _ _ => true
  | .ctld _ _ _ _ _ => true
  | .ctst _ _ _ _ _ => true
  | .watch _ _ => true
  | .cas _ _ _ _ _ => true
  | .amoadd _ _ _ _ _ => true
  | .amoand _ _ _ _ _ => true
  | .amoor _ _ _ _ _ => true
  | .amoxor _ _ _ _ _ => true
  | .amomin _ _ _ _ _ => true
  | .amomax _ _ _ _ _ => true
  | .amominu _ _ _ _ _ => true
  | .amomaxu _ _ _ _ _ => true
  | .amoswap _ _ _ _ _ => true
  | .amofadd _ _ _ _ _ => true
  | .amofmin _ _ _ _ _ => true
  | .amofmax _ _ _ _ _ => true
  | .mma _ _ _ _ _ _ => true
  | .mref _ _ _ _ _ => true
  | .mlut _ _ _ _ _ => true
  | .mldacc _ _ _ _ _ => true
  | .mdrain _ _ _ _ _ => true
  | .mresume _ => true
  | .cpy _ _ _ _ => true
  | .cpysl _ _ _ _ => true
  | .cpymc _ _ _ => true
  | .coll _ _ _ _ => true
  | .whfetch _ _ _ => true
  | .barrive _ _ _ => true
  | .barwait _ _ _ _ => true
  | .book _ _ _ => true
  | .calq _ _ _ => true
  | .spawn _ _ _ _ => true
  | .spawnW _ _ _ _ => true
  | .rft _ _ => true
  | .ctxrun _ _ _ => true
  | _ => false

/-- What the check of R42 finds an instruction to use: its registers, and the windows where it translates. -/
def Uses.ofInstr (u : Uses) (i : Instr) : Uses :=
  if Instr.translates i then { u with rr := u.rr ++ (List.range 32).map (0x100 + ·) } else u

/-- The causes that follow from the word alone, with the prefix it finds (R22, R24, R28, R45, R52). -/
def wordCauses (i : Instr) (u : Uses) (priv : Bool) (s : State) : List Cause :=
  (if (Tbl.find s.cx.prefixes s.iss.slot).isSome && !(Instr.takesPrefix i) then [kPREFIX] else []) ++
  (if i.wf && !(Instr.badImm i s) then [] else [kILLOP true]) ++
  (if (u.rv ++ u.wv).any fun n => s.cx.vcount ≤ n.toNat then [kVREG] else []) ++
  (if priv then [kPRIV true] else [])

/-- The cause that a slot reports for its word `k`: an ILLOP that follows from the values of its operands ranks before VREG and
PRIV of the same slot (R43), where the operands can be read and the slot executes. -/
def valueFirst (pred : Option (BitVec 4)) (u : Uses) (wait : State → Option (Bool × State)) (causes : State → List Cause)
    (s : State) (k : Cause) : Cause :=
  if k.stage == 3 && k.code != 1 && pred.all (fun p => s.cx.preg p) && !u.interlocked s.cx && (wait s).isNone then
    match (causes s).find? fun j => j.stage == 3 && j.code == 1 with
    | some j => { j with behind := k.code }
    | none => k
  else k

/-- A cause of the word alone, which a bundle that waits takes at once (R43). -/
def Cause.ofWord (k : Cause) : Option Cause :=
  if k.word then some k else if k.behind = 0 then none else some { code := k.behind, stage := 3, word := true }

/-- The frame of every slot instruction (R22 to R43). `pred` is the word's predicate; `u` what it asks of the
registers; `priv` whether its privilege is missing; `wait` the waits that hold it, and whether they block; `causes` the
causes found in the cycle in which it could issue; `body` what it does when it commits. -/
def slotOp (i : Instr) (pred : Option (BitVec 4)) (u : Uses) (priv : Bool) (wait : State → Option (Bool × State))
    (causes : State → List Cause) (body : State → State) (s : State) : Host.Outcome State Fault Refusal :=
  if s.iss.sure then .next (if pred.all fun p => s.cx.preg p then (body s).commit else s.commit)
  else match firstCause (wordCauses i u priv s) with
  | some k => .next (s.takeTrap (valueFirst pred u wait causes s k))
  | none =>
    if !(pred.all fun p => s.cx.preg p) then
      .next (if s.cx.chk && ({ rp := pred.toList } : Uses).short s.cx s.cycle then s.takeTrap kSHORT else s.commit)
    else if u.interlocked s.cx then .next (s.hold true)
    else match wait s with
      | some (blocks, s') => .next (s'.hold blocks)
      | none =>
        match firstCause ((if s.cx.chk && (({ u with rp := pred.toList ++ u.rp } : Uses).ofInstr i).short s.cx s.cycle then [kSHORT] else []) ++ causes s) with
        | some k => .next (s.takeTrap k)
        | none => .next (body s).commit

/-- No wait of its own. -/
def noWait (_ : State) : Option (Bool × State) := none
/-- No cause of its own. -/
def noCause (_ : State) : List Cause := []

/-- A wait with a condition and no effect. -/
def waitIf (blocks : Bool) (p : State → Bool) (s : State) : Option (Bool × State) := if p s then some (blocks, s) else none

/-- An occupancy of `n` cycles that a free context starts now would reach into a booked tick of its issue row
(R111). -/
def State.reaches (s : State) (n : Nat) : Bool :=
  s.cx.run == .free && !((s.face s.iface).freeCycles (rowCore s.iss.core) s.cycle (s.cycle + n - 1))

/-- The wait for an engine whose first free cycle is `t`, which the instruction will hold for `n` cycles
(R40, R111). -/
def waitEngine (t : State → Nat) (n : Nat) : State → Option (Bool × State) :=
  waitIf false fun s => decide (s.cycle < t s) || s.reaches n

end Sys2Proof.Machine
end

