-- ==== Sys2Proof/Machine/Issue.lean ====
section
/-! DEFINITION. Issuing bundles: fetch, the attempt to issue one bundle, which context of a core issues, lateness and
freezes (R37 to R43, R109 to R114, R212 to R215, R407, R418). `run` is the meaning of one instruction, which
Machine/Step.lean supplies. -/

namespace Sys2Proof.Machine

/-- The meaning of one instruction. -/
abbrev Run := Instr → State → Host.Outcome State Fault Refusal

/-! ## Fetch (R21, R113, R114) -/

/-- What a fetch gives: the eight slot words, a line that the instruction cache lacks, or a fault. -/
inductive Fetched where
  | words (ws : List (BitVec 32))
  | missing (line : Nat)
  | bad (k : Cause)
  deriving DecidableEq, Repr

/-- The eight slot words in 32 bytes (R19). -/
def slotWords (bs : List Byte) : List (BitVec 32) :=
  (List.range 8).map fun k => BitVec.ofNat 32 (leNat ((bs.drop (4 * k)).take 4))

def fetchCause (code addr : Nat) : Cause := { kFault code addr with stage := 1 }

/-- The IA of the bundle at an address through windows that must let it be fetched (R21, R283, R285). -/
def codeIa (ws : List Window) (pc : Nat) : Except Cause Trans :=
  match translate ws pc pc 32 .fetch with
  | .error e => .error (fetchCause e.1 e.2)
  | .ok t =>
    match regionFault t.ia t.win.kind with
    | some code => .error (fetchCause code pc)
    | none => if 8 < iaRegion t.ia then .error (fetchCause codeACCESS pc) else .ok t

/-- The IA of the bundle at the context's PC, through its windows. -/
def State.fetchIa (s : State) (c : Nat) : Except Cause Trans := codeIa (s.ctx c).windows (s.ctx c).pc.toNat

/-- The bundle of a buffer half at an address (R113). -/
def IBuf.bundle (h : IBuf) (pc : Nat) : Option (List (BitVec 32)) :=
  if h.base.toNat ≤ pc && pc < h.base.toNat + 32 * h.size then
    (h.code[(pc - h.base.toNat) / 32]?).filter fun ws => !ws.isEmpty
  else none

/-- The bundle at the context's PC: the one that has been fetched (R115); of a booked task, or of a context that waits for its
start tick in BOOK, what its buffer half holds; of a free context what the instruction cache holds (R113). -/
def State.fetch (s : State) (c : Nat) : Fetched :=
  let x := s.ctx c
  if !x.fetched.isEmpty then .words x.fetched
  else if x.run = .booked || x.bid.isSome then
    match (x.bid.bind fun b => (s.core (coreOf c)).ibuf.find? fun h => h.bid == b).bind fun h => h.bundle x.pc.toNat with
    | some ws => .words ws
    | none => .bad (fetchCause codeACCESS x.pc.toNat)
  else match s.fetchIa c with
    | .error k => .bad k
    | .ok t =>
      match Tbl.find (s.core (coreOf c)).icache (t.ia / 64) with
      | some bs => .words (slotWords (bs.drop (t.ia % 64)))
      | none => .missing (t.ia / 64)

/-- The bundles from `pc` up as memory holds them, read through windows; one that cannot be read is empty. -/
def State.readBundles (s : State) (q : Req) (ws : List Window) (pc : Nat) : Nat → List (List (BitVec 32)) × State
  | 0 => ([], s)
  | n + 1 =>
    let (b, s) := match codeIa ws pc with
      | .error _ => ([], s)
      | .ok t => match s.iaRead { q with alloc := t.win.alloc } t.ia with
        | (.ok v, s) => (slotWords ((leBytes 64 v.data).drop (t.ia % 64)), s)
        | (.fail _, s) => ([], s)
    let (l, s) := s.readBundles q ws (pc + 32) n
    (b :: l, s)

/-- Admission preloads a task's code into the buffer half that its booking has taken (R113). DEDUCED (log 108): the
range is read once, when the booking is made, through the windows that the task will have, and a bundle of it that
cannot be read is one that the task does not reach. -/
def State.preload (s : State) (core bid : Nat) (q : Req) (ws : List Window) : State :=
  match (s.core core).ibuf.find? fun h => h.bid == bid with
  | none => s
  | some h =>
    let (l, s) := s.readBundles q ws h.base.toNat h.size
    s.onCore core fun k => { k with ibuf := k.ibuf.map fun h => if h.bid = bid then { h with code := l } else h }

/-- An instruction-cache miss blocks the context until ICACHE_FILL of its line (R110, R113). -/
def State.missLine (s : State) (c line : Nat) : State :=
  if (s.ctx c).fetchMiss.isSome then s
  else
    ((s.onCtx c fun x => { x with fetchMiss := some line }).schedule (s.cycle + 1 + Config.extraLatency s.fresh)
      (srcCore (coreOf c)) (.icacheFill (coreOf c) line)).bump

/-! ## The attempt to issue a bundle (R37 to R43) -/

/-- How a bundle is held: whether the context blocks (R110), whether a booked task's wait is lateness (R212), and whether
the watchdog counts it (R407). -/
structure Hold where
  blocks : Bool
  late   : Bool
  counts : Bool
  deriving DecidableEq, Repr

/-- How an attempt to issue ends. -/
inductive Attempt where
  /-- a STALL count or a branch delay (R41): the context keeps the row -/
  | delayed
  /-- an instruction-cache miss: a new one with its line, or one outstanding -/
  | miss (line : Option Nat)
  /-- the bundle waits: the lowest slot that waits, how, and the state that records the wait -/
  | held (slot : Nat) (h : Hold) (after : State)
  | trap (k : Cause) (slot : Nat)
  /-- every slot can issue -/
  | go (ops : List (Nat × Instr))
  deriving DecidableEq, Repr

/-- One slot's answer on the state before the bundle. A stop of the run counts as an answer that commits; the run
meets it again when the bundle commits. -/
def probe (run : Run) (s : State) (k : Nat) (i : Instr) : Verdict × State :=
  match run i { s with iss := { s.iss with slot := k, sure := false } } with
  | .next t => (t.iss.verdict, t)
  | _ => (.committed, s)

/-- The rank of a cause among those of a bundle (R43). -/
def causeRank (k : Cause) (slot : Nat) : Nat :=
  10000 * k.stage + 100 * (if k.stage = 4 then k.code else 0) + slot

/-- The cause that the bundle reports. -/
def pickCause (l : List (Nat × Cause)) : Option (Nat × Cause) :=
  l.foldl (fun m x => match m with
    | none => some x
    | some y => if causeRank x.2 x.1 < causeRank y.2 y.1 then some x else some y) none

def Verdict.cause? : Verdict → Option Cause
  | .trapped k => some k
  | _ => none
def Verdict.held? : Verdict → Option Bool
  | .held b => some b
  | _ => none

/-- The words of a bundle as its slots decode them (R22, R23). -/
def decodeBundle (ws : List (BitVec 32)) : List (Nat × Except DecodeError Instr) :=
  ws.zipIdx.map fun (w, k) => (k, decodeSlot k w)

def bundleOps (l : List (Nat × Except DecodeError Instr)) : List (Nat × Instr) :=
  l.filterMap fun (k, d) => match d with
    | .ok i => some (k, i)
    | .error _ => none

/-- The opcode of a word stands for an instruction that accepts a prefix (R28): its word with every field zero does. -/
def opTakesPrefix (k : Nat) (w : BitVec 32) : Bool :=
  match decodeSlot k (w &&& 0xFF000000) with
  | .ok i => Instr.takesPrefix i
  | .error _ => false

/-- The cause of a word that does not decode: a prefix aimed at an assigned opcode that accepts none ranks first (R28,
R43). -/
def badCause (x : Ctx) (k : Nat) (w : BitVec 32) (e : DecodeError) : Cause :=
  if (e = .reservedField ∨ e = .badLimit) ∧ (Tbl.find x.prefixes k).isSome ∧ !opTakesPrefix k w then kPREFIX else kILLOP true

/-- The causes of the words of a bundle that do not decode. -/
def bundleBad (x : Ctx) (ws : List (BitVec 32)) : List (Nat × Cause) :=
  ws.zipIdx.filterMap fun (w, k) => match decodeSlot k w with
    | .ok _ => none
    | .error e => some (k, badCause x k w e)

/-- The point of issue of a context. -/
def State.atIssue (s : State) (c : Nat) : State :=
  { s with iss := { core := coreOf c, ctx := ctxOf c, pc := (s.ctx c).pc } }

/-- The first late trap as a cause that ranks ahead of every other, with its slot (R191, R289). -/
def LateTrap.cause (t : LateTrap) : Nat × Cause := (t.slot, { code := t.code, sub := t.sub, addr := t.addr, stage := 0 })

/-- A late trap that a held bundle takes at once (R247). -/
def Ctx.lateNow (x : Ctx) : Option (Nat × Cause) := (x.late.head?.filter fun t => t.atOnce).map LateTrap.cause

/-- How a bundle is held, from its words and their answers. With no result awaited the words are asked again: a wait
that is left for an engine or a bank is no lateness, since the bundle is then not ready but for the wait (R212), and an
engine queue that is full does not count for the watchdog (R407). -/
def State.holdOf (run : Run) (s : State) (c : Nat) (answers : List (Nat × Instr × Verdict)) : Hold :=
  let t := s.onCtx c fun x => { x with pending := [] }
  let held := answers.filter fun a => a.2.2.held?.isSome
  let again := held.map fun a => (a.1, (probe run t a.1 a.2.1).1)
  let blocks := held.any fun a => a.2.2 == .held true
  { blocks := blocks
    late := blocks && !(held.any fun a => a.2.2 == .held false) && !(again.any fun a => a.2 == .held false)
    counts := (held.zip again).any fun (a, b) => a.2.2 == .held true && ((a.1 != 5 && a.1 != 6) || b.2 != .held true) }

/-- What the slots of a bundle that waits begin while they wait, each with what the lower ones have begun (R37). -/
def State.waitAll (run : Run) (ops : List (Nat × Instr)) (s : State) : State :=
  ops.foldl (fun s o => let a := probe run s o.1 o.2; if a.1.held?.isSome then a.2 else s) s

/-- The attempt with the words fetched: a late trap ranks ahead of every cause of the bundle (R191, R289), a waiting
bundle traps at once for its words alone, and otherwise all causes are ranked (R43). -/
def State.attemptWords (run : Run) (s : State) (c : Nat) (ws : List (BitVec 32)) : Attempt :=
  let l := decodeBundle ws
  let ops := bundleOps l
  let answers := ops.map fun (k, i) => (k, probe run s k i)
  let causes := bundleBad (s.ctx c) ws ++ answers.filterMap fun (k, a) => a.1.cause?.map fun z => (k, z)
  let holds := answers.filterMap fun (k, a) => a.1.held?.map fun _ => k
  let late := (s.ctx c).late.head?.map LateTrap.cause
  let trapOf (z : Nat × Cause) : Attempt := match late with
    | some y => .trap y.2 y.1
    | none => .trap z.2 z.1
  match holds with
  | [] =>
    match late with
    | some y => .trap y.2 y.1
    | none =>
      match pickCause causes with
      | some z => .trap z.2 z.1
      | none => .go ops
  | k :: _ =>
    match pickCause (causes.filterMap fun z => z.2.ofWord.map fun y => (z.1, y)), (s.ctx c).lateNow with
    | some z, _ => trapOf z
    | none, some y => .trap y.2 y.1
    | none, none =>
      .held k (s.holdOf run c (answers.map fun (k, a) => (k, ((ops.find? fun o => o.1 == k).map Prod.snd).getD .nop, a.1)))
        (s.waitAll run ops)

/-- The destinations that the SNOOZE and the BOOK of a context still have to write. -/
def Sleep.dests (x : Sleep) : List Nat := (x.snooze.map Prod.fst).toList ++ (x.book.map Prod.fst).toList

/-- The next bundle of a context that sleeps in a SNOOZE or a BOOK, where it can be had: its words, and what its slots would
answer with the waits over and `pending` awaited. -/
def State.sleepAnswers (run : Run) (s : State) (c : Nat) (pending : List Pending) :
    Option (List (BitVec 32) × List (Nat × Verdict)) :=
  match s.fetch c with
  | .words ws =>
    let t := s.onCtx c fun x => { x with sleep := .awake, pending := pending }
    some (ws, (bundleOps (decodeBundle ws)).map fun (k, i) => (k, (probe run t k i).1))
  | _ => none

/-- A context that sleeps in a SNOOZE or a BOOK has its `sd` still to be written: a next bundle that waits for it traps at once
for its words alone (R39, R43). -/
def State.sleepTrap (run : Run) (s : State) (c : Nat) : Option (Nat × Cause) :=
  let x := s.ctx c
  match s.sleepAnswers run c
      (x.pending ++ x.sleep.dests.map fun d => { id := 0, slot := 0, dest := .scalar d, reissue := false }) with
  | some (ws, answers) =>
    if answers.any fun a => a.2.held?.isSome then
      pickCause ((bundleBad x ws ++ answers.filterMap fun (k, a) => a.cause?.map fun z => (k, z)).filterMap fun z =>
        z.2.ofWord.map fun y => (z.1, y))
    else none
  | none => none

/-- A cycle of the sleep is late: the next bundle would wait for no engine or bank (R212). -/
def State.sleepLate (run : Run) (s : State) (c : Nat) : Bool :=
  !((s.sleepAnswers run c []).any fun r => r.2.any fun a => a.2 == .held false)

/-- The attempt of a context that sleeps: a late trap that does not wait, the words of the next bundle, or the sleep. -/
def State.sleepAttempt (run : Run) (s : State) (c : Nat) : Attempt :=
  match (s.ctx c).lateNow, s.sleepTrap run c with
  | some y, _ => .trap y.2 y.1
  | none, some z => match (s.ctx c).late.head?.map LateTrap.cause with
    | some y => .trap y.2 y.1
    | none => .trap z.2 z.1
  | none, none =>
    .held (if (s.ctx c).sleep.snooze.isSome then 4 else 7) { blocks := true, late := s.sleepLate run c, counts := true } s

/-- The context sleeps in a SNOOZE or a BOOK that has issued. -/
def Ctx.sleeps (x : Ctx) : Bool := x.sleep.snooze.isSome || x.sleep.book.isSome

/-- The attempt of a context to issue the bundle at its PC in this cycle. A fault of the fetch, which R43 gives no slot, has TSLOT
0 (DESIGN CHOICE, log 130). -/
def State.attempt (run : Run) (s : State) (c : Nat) : Attempt :=
  let s := s.atIssue c
  let x := s.ctx c
  if s.cycle < x.ready then .delayed
  else if x.fetchMiss.isSome then .miss none
  else if x.sleeps then s.sleepAttempt run c
  else
    match s.fetch c, x.late with
    | .words ws, _ => s.attemptWords run c ws
    | .bad _, t :: _ => .trap t.cause.2 t.slot
    | .missing _, t :: _ => .trap t.cause.2 t.slot
    | .bad k, [] => .trap k 0
    | .missing l, [] => .miss (some l)

/-! ## Committing a bundle -/

/-- The slots of a bundle commit in slot order; each reads the registers as they stood before the bundle, since every
result is written in a later cycle (R37, R38). -/
def runOps (run : Run) : List (Nat × Instr) → State → Host.Outcome State Fault Refusal
  | [], s => .next s
  | (k, i) :: t, s =>
    match run i { s with iss := { s.iss with slot := k, sure := true } } with
    | .next s' => runOps run t s'
    | .fault r => .fault r
    | .refused r => .refused r

/-- A bundle more of the context has issued: the narrow format registers that become visible (R51). -/
def Ctx.nfrStep (x : Ctx) : Ctx :=
  let l := x.nfrPend.map fun (xc, v, n) => (xc, v, n - 1)
  let x := l.foldl (fun x (xc, v, n) =>
    if n = 0 then (if xc then { x with nfrXc := v } else { x with nfrMx := v }) else x) x
  { x with nfrPend := l.filter fun (_, _, n) => n != 0 }

/-- What the context does before the slots run: the next bundle is the sequential one, in the next cycle, and the last
bundle is sampled (R37, R444). -/
def State.beforeOps (s : State) (c : Nat) : State :=
  let s := s.atIssue c
  let pc := (s.ctx c).pc
  (s.onCtx c fun x =>
    { x with pc := x.pc + 32, ready := s.cycle + 1, heldAt := none, fetched := [], last := pc }).onCore (coreOf c) fun k =>
      { k with last := pc + BitVec.ofNat 64 (ctxOf c) }

/-- What is done after the slots have run. -/
def State.afterOps (s : State) (c : Nat) : State := { (s.onCtx c Ctx.nfrStep) with iss := {} }

/-- A whole bundle issues and commits. -/
def State.issueOps (run : Run) (s : State) (c : Nat) (ops : List (Nat × Instr)) : Host.Outcome State Fault Refusal :=
  match runOps run ops (s.beforeOps c) with
  | .next s' => .next (s'.afterOps c)
  | o => o

/-- The stop point of the context's partition stands at the bundle that would issue (R418). -/
def State.stopHit (s : State) (c : Nat) : Bool :=
  let q := s.part (s.partOf (coreOf c))
  q.stopctl.getLsbD 63 && bitsOf q.stopctl.toNat 32 11 == c && q.stoppc == (s.ctx c).pc &&
    (q.stopctl.getLsbD 62 || q.stopctl.toNat % 2 ^ 32 == (s.ctx c).lc.toNat % 2 ^ 32)

/-! ## Holds (R212, R407) -/

/-- The next bundle of the context is held by a wait that the watchdog counts; a cycle that does not count moves the
start of the hold. -/
def Ctx.holding (x : Ctx) (now slot : Nat) : Ctx :=
  match x.heldAt with
  | some _ => x
  | none => { x with heldAt := some now, heldSlot := slot }

def Ctx.notHolding (x : Ctx) : Ctx := { x with heldAt := none }

/-- The hold of a context in this cycle is brought up to date from its attempt. -/
def State.noteHold (s : State) (c : Nat) (a : Attempt) : State :=
  match a with
  | .held k h _ => s.onCtx c fun x =>
      { (if h.counts then x.holding s.cycle k else x.notHolding) with
        heldSlot := k, lateAt := if h.late then some s.cycle else none }
  | _ => s.onCtx c Ctx.notHolding

/-- The words of the next bundle of a context, where they can be had. -/
def State.fetchedWords (s : State) (c : Nat) : List (BitVec 32) :=
  match s.fetch c with
  | .words ws => ws
  | _ => []

/-- A bundle that waits has been fetched, and its wait goes on (R115, R250, R329). What a context fetches after BOOK comes from
its buffer half (R113). -/
def State.waitOn (s : State) (c : Nat) (t : State) : State :=
  ({ t with iss := {} }).onCtx c fun x => { x with fetched := if x.sleep.book.isSome then [] else s.fetchedWords c }

/-- What an attempt that does not end in an issue leaves: the bundle fetched, its wait begun, or its line asked for. -/
def State.look (s : State) (c : Nat) (a : Attempt) : State :=
  match a with
  | .held _ _ t => s.waitOn c t
  | .miss (some l) => s.missLine c l
  | _ => s

/-- A cycle of lateness in a booked tick: slack is spent, or there is none left (R212, R213). -/
def State.spendSlack (s : State) (c : Nat) : State :=
  if (s.ctx c).slack = 0 then { s with todo := .event (.slackExhausted c) :: s.todo }
  else s.onCtx c fun x => { x with slack := x.slack - 1, paid := x.paid + 1 }

/-! ## Which context issues (R109 to R112) -/

/-- The FREE contexts of a core after context number `j`, in turn (R110). -/
def turnOrder (j : Nat) : List Nat := [(j + 1) % 4, (j + 2) % 4, (j + 3) % 4, j % 4]

/-- The context's next bundle has no blocking condition (R110). -/
def Attempt.isReady : Attempt → Bool
  | .miss _ => false
  | .held _ h _ => !h.blocks
  | _ => true

/-- The first ready FREE context of those given, in their order. One that is found not ready is looked at: its bundle is
fetched, its line asked for and its wait begun, so that it can become ready (DEDUCED, log 109). -/
def State.scanReady (run : Run) (s : State) (core : Nat) : List Nat → Option Nat × State
  | [] => (none, s)
  | k :: l =>
    let c := 4 * core + k
    if (s.ctx c).run ≠ .free then s.scanReady run core l
    else
      let a := s.attempt run c
      if a.isReady then (some k, s) else (s.look c a).scanReady run core l

/-- The first ready FREE context after `j`. -/
def State.nextReady (run : Run) (s : State) (core j : Nat) : Option Nat := (s.scanReady run core (turnOrder j)).1

/-- The current context has blocked or left FREE: the next one becomes current, from the next cycle on (R110). -/
def State.passTurn (run : Run) (s : State) (core : Nat) : State :=
  match s.scanReady run core (turnOrder (s.core core).cur) with
  | (some j, s) => s.onCore core fun k => { k with cur := j, turn := s.cycle + 1, idle := false }
  | (none, s) => s.onCore core fun k => { k with idle := true }

/-- The current context has left FREE in this cycle. -/
def State.passIfLeft (run : Run) (s : State) (core c : Nat) : State :=
  if (s.ctx c).run = .free then s else s.passTurn run core

/-- The current free context attempts its bundle. -/
def State.issueFree (run : Run) (s : State) (core c : Nat) : Host.Outcome State Fault Refusal :=
  if s.cycle < (s.core core).turn then .next s
  else
    match s.attempt run c with
    | .delayed => .next s
    | .miss none => .next (s.passTurn run core)
    | .miss (some l) => .next ((s.missLine c l).passTurn run core)
    | .held _ h t => .next (if h.blocks then (s.waitOn c t).passTurn run core else s.waitOn c t)
    | .trap k slot => .next ((s.trapCtx c k slot (s.ctx c).pc).passIfLeft run core c)
    | .go ops =>
      if s.stopHit c then .next { s with todo := .event (.stopPoint (s.partOf core)) :: .pass core :: s.todo }
      else match s.issueOps run c ops with
        | .next s' => .next (s'.passIfLeft run core c)
        | o => o

/-- The booked context attempts its bundle in one of its ticks. -/
def State.issueBooked (run : Run) (s : State) (core c : Nat) : Host.Outcome State Fault Refusal :=
  match s.attempt run c with
  | .delayed => .next s
  | .miss _ => .next s
  | .held _ h t => .next (if h.late then (s.waitOn c t).spendSlack c else s.waitOn c t)
  | .trap k slot => .next (s.trapCtx c k slot (s.ctx c).pc)
  | .go ops =>
    if s.stopHit c then .next { s with todo := .event (.stopPoint (s.partOf core)) :: s.todo }
    else s.issueOps run c ops

/-- The booked context that owns the core's issue row in this tick. -/
def State.rowCtx (s : State) (core b : Nat) : Option Nat :=
  ((List.range 4).map fun k => 4 * core + k).find? fun c => (s.ctx c).run == .booked && (s.ctx c).bid == some b

/-- A POISON trap that a held bundle takes at once, in a cycle in which its context need not be the one that may issue (R247). -/
def State.heldTrap (run : Run) (s : State) (c : Nat) : Option (Nat × Cause) :=
  let x := s.ctx c
  if x.fetched.isEmpty && !x.sleeps then none
  else match x.lateNow, (s.onCtx c fun x => { x with late := [] }).attempt run c with
    | some y, .held _ _ _ => some y
    | _, _ => none

/-- The holds of a core's contexts in this cycle: a booked context's only count in its ticks (R407). The wait of a free
context whose bundle has been fetched goes on, whichever context is current. -/
def State.noteHolds (run : Run) (s : State) (core : Nat) (owner : Option Nat) : State :=
  (List.range 4).foldl (fun s k =>
    let c := 4 * core + k
    match (s.ctx c).run, if owner = some c then none else s.heldTrap run c with
    | .halted, _ => s
    | .stopping, _ => s
    | _, some y => s.trapCtx c y.2 y.1 (s.ctx c).pc
    | .free, none =>
      let a := s.attempt run c
      (if (s.ctx c).fetched.isEmpty then s else s.look c a).noteHold c a
    | .booked, none =>
      if owner = some c then s.noteHold c (s.attempt run c)
      else s.onCtx c fun x => { x with heldAt := x.heldAt.map (· + 1) }) s

/-- The pair of the core is frozen in this cycle (R214). -/
def State.frozen (s : State) (core : Nat) : Bool := (s.pair (pairOf core)).freeze.isSome

/-- The booked context of a core whose wait in this cycle finds no slack left under SLIP: its pair freezes (R213). -/
def State.freezes (run : Run) (s : State) (core : Nat) : Option Nat :=
  match (s.face (faceOf core)).owner (rowCore core) s.tick with
  | .bid b => (s.rowCtx core b).filter fun c =>
      (s.ctx c).slack == 0 && ((Tbl.find (s.face (faceOf core)).bookings b).any Booking.slip) && (match s.attempt run c with
        | .held _ h _ => h.late
        | _ => false)
  | _ => none

/-- The current context of a core has left FREE in a booked tick: the next one becomes current (R110). -/
def State.passGone (run : Run) (s : State) (core : Nat) : State :=
  let k := s.core core
  if k.idle || (s.ctx (4 * core + k.cur)).run == .free then s else s.passTurn run core

/-- A core issues at most one bundle (R37, R109, R110). Where the odd core of the pair brings a freeze in this cycle, the
even core does not issue in it (R214). -/
def State.issueCore (run : Run) (s : State) (core : Nat) : Host.Outcome State Fault Refusal :=
  if s.frozen core then .next s
  else match (if core % 2 = 0 then s.freezes run (core + 1) else none) with
  | some c => .next { (s.noteHold c (s.attempt run c)) with todo := .event (.slackExhausted c) :: .issue core :: s.todo }
  | none =>
    match (s.face (faceOf core)).owner (rowCore core) s.tick with
    | .bid b =>
      let own := s.rowCtx core b
      let s := (s.noteHolds run core own).passGone run core
      match own with
      | some c => s.issueBooked run core c
      | none => .next s
    | _ =>
      let s := s.noteHolds run core none
      let k := s.core core
      if k.idle then
        match s.scanReady run core (turnOrder k.cur) with
        | (none, s) => .next s
        | (some j, s) => (s.onCore core fun k => { k with cur := j, idle := false }).issueFree run core (4 * core + j)
      else if (s.ctx (4 * core + k.cur)).run = .free then s.issueFree run core (4 * core + k.cur)
      else .next (s.passTurn run core)

/-! ## Freezes (R215) -/

/-- The 32-cycle mark of a freeze: the pair thaws if the waited condition has cleared, and is tested again if not. -/
def State.freezeMark (run : Run) (s : State) (p : Nat) : State :=
  match (s.pair p).freeze with
  | none => s
  | some z =>
    if (s.attempt run z.c).isReady then { s with todo := .event (.thaw p) :: s.todo } else s.askSlip z.c p

end Sys2Proof.Machine
end

