-- ==== Sys2Proof/Machine/Loads.lean ====
section
/-! DEFINITION. The accesses of cores: which bytes a tile or scalar access touches, its checks, bank and port
occupancy, the values that loads form and the blocks that stores write, latencies, and how a load that was performed
reaches its destination (R61 to R75, R169 to R197, R216, R217, R283, R288 to R290). -/

namespace Sys2Proof.Machine

/-! ## Bytes touched -/

/-- A run of bytes by VA. -/
structure Span where
  va  : Nat
  len : Nat
  deriving DecidableEq, Repr

/-- The part of an address space of 2^64 bytes. -/
def wrap64 (x : Int) : Nat := (x % 2 ^ 64).toNat

/-- The run cut at the multiples of 2^k, with what lies in each cell. -/
def Span.cells (sp : Span) (k : Nat) : List Span :=
  let c := 2 ^ k
  (List.range ((sp.va % c + sp.len + (c - 1)) / c)).map fun i =>
    let lo := if i = 0 then sp.va else sp.va / c * c + c * i
    let hi := min (sp.va + sp.len) (sp.va / c * c + c * (i + 1))
    { va := lo % 2 ^ 64, len := hi - lo }

/-- The 64-byte blocks of a run. -/
def Span.blocks (sp : Span) : List Span := sp.cells 6

/-- A tile access: base, stride, fmt, and the NFR.XC and PQ that its bundle sees (R192). -/
structure TileReq where
  base   : Word
  stride : Word
  fmt    : Nat
  nfr    : Word
  pq     : Word
  pc     : Word
  coats  : Bool := false
  deriving DecidableEq, Repr

/-- VA of row `r` (R192). -/
def TileReq.rowVa (q : TileReq) (r : Nat) : Nat := wrap64 (q.base.toNat + r * q.stride.toInt)
/-- VA of the block of plane 7 - j of patch `p` (R75). -/
def TileReq.planeVa (q : TileReq) (p j : Nat) : Nat :=
  wrap64 (q.base.toNat + j * (pqStride q.pq : Int) + p * q.stride.toInt)

/-- PQ's limits for a PLANE access (R75). -/
def TileReq.badPq (q : TileReq) : Bool :=
  q.fmt == 0xC && (pqQ q.pq == 0 || 8 < pqQ q.pq || (1 < pqQ q.pq && pqStride q.pq == 0))

/-! ## Windows and places -/

/-- The IA that a core's access through a window reaches: a SCRATCH window reaches the core's own scratchpad, a WBANK
window the active half of its own weight bank (R169, R251). -/
def State.effIa (s : State) (core : Nat) (w : Window) (va : Nat) : Nat :=
  let ia := w.toIa va
  match w.kind with
  | 1 => 0xA * 2 ^ 48 + pairOf core * 2 ^ 21 + ia % 2 ^ 21
  | 2 => 0xB * 2 ^ 48 + pairOf core * 2 ^ 25 + (s.pair (pairOf core)).active.toNat * 2 ^ 24 + ia % 2 ^ 24
  | _ => ia

/-- The byte cannot be named through the window that the access's first byte at `fia` found (R169, R182, R192, R251,
R283, R285). -/
def Window.badByte (w : Window) (fia va : Nat) : Bool :=
  let ia := w.toIa va
  va / 65536 < w.vabase || w.valast < va / 65536 || 2 ^ 52 ≤ ia || (0xC ≤ iaRegion ia && iaRegion ia ≤ 0xE) ||
    !iaForm ia || (w.kind == 1 && ia / 2 ^ 21 != fia / 2 ^ 21)

/-- The window kind may be used for the region that holds the byte (R285). -/
def Window.kindOk (w : Window) (va : Nat) : Bool := regionFault (w.toIa va) w.kind == none

def kSTAGING (va : Nat) : Cause := kFault 0x0C va

/-- The first byte of a run, within one granule, at or past the size that the core's table gives its slice (R183). -/
def stagingBad (table : Tbl Nat) (w : Window) (sp : Span) : Option Nat :=
  let ia := w.toIa sp.va
  if iaRegion ia ≠ 9 then none
  else
    let size := Tbl.look table (stagingOf ia).1 0
    let o := (stagingOf ia).2
    if o + sp.len ≤ size then none else some (sp.va + (max o size - o))

/-- The causes XLATE, ACCESS and STAGING of an access to these runs, the first byte of which is at `base`; `kinds` are
the window kinds that the instruction accepts (R183, R192, R283, R285). -/
def accessCauses (ws : List Window) (table : Tbl Nat) (base : Nat) (spans : List Span) (use : Use)
    (kinds : List Nat) : List Cause :=
  match findWindow ws base with
  | none => [kXLATE base]
  | some w =>
    let cells := spans.flatMap fun sp => sp.cells 16
    (match cells.find? fun c => w.badByte (w.toIa base) c.va with
      | some c => [kXLATE c.va]
      | none => []) ++
    (if !w.permits use || !kinds.contains w.kind then [kACCESS base]
     else match cells.find? fun c => !w.kindOk c.va with
      | some c => [kACCESS c.va]
      | none => []) ++
    match cells.findSome? (stagingBad table w) with
      | some va => [kSTAGING va]
      | none => []

/-! ## Blocks through a window -/

/-- The block that holds a VA, read by a core. -/
def State.readVa (s : State) (core : Nat) (q : Req) (w : Window) (va : Nat) : MemRes × State :=
  s.iaRead q (s.effIa core w va / 64 * 64)

/-- The row length that the first coat gives under COAT; 64 bytes where the coat cannot be read (R65). -/
def State.coatSpan (s : State) (core : Nat) (q : Req) (w : Option Window) (nfr : Word) (va : Nat) : Span :=
  match w with
  | none => { va := va, len := 64 }
  | some w =>
    if w.badByte (w.toIa va) va || !w.kindOk va then { va := va, len := 64 }
    else match (s.readVa core q w va).1 with
      | .ok b => { va := va, len := coatRowBytes nfr b.coat }
      | _ => { va := va, len := 64 }

/-- The runs of bytes of a tile access: the planes of both patches, or sixteen rows (R65, R75, R192). -/
def State.tileSpans (s : State) (core : Nat) (r : Req) (w : Option Window) (q : TileReq) : List Span :=
  if q.fmt = 0xC then
    [0, 1].flatMap fun p => (List.range (pqQ q.pq)).map fun j => { va := q.planeVa p j, len := 64 }
  else (List.range 16).map fun i =>
    if q.fmt = 0 then s.coatSpan core r w q.nfr (q.rowVa i)
    else { va := q.rowVa i, len := rowBytes q.nfr q.fmt }

/-- A row keeps R62. -/
def Span.aligned (sp : Span) : Bool := if 64 ≤ sp.len then sp.va % 64 == 0 else decide (sp.va % 64 + sp.len ≤ 64)

/-- ALIGN of a tile access (R62, R75). -/
def TileReq.alignCauses (q : TileReq) (spans : List Span) : List Cause :=
  if q.fmt = 0xC then
    (if q.base.toNat % 64 = 0 ∧ q.stride.toNat % 64 = 0 ∧ pqStride q.pq % 64 = 0 then [] else [kALIGN q.base.toNat])
  else match spans.find? fun sp => !sp.aligned with
    | some sp => [kALIGN sp.va]
    | none => []

/-! ## Banks and ports (R170, R173, R185, R252) -/

/-- The bytes that an access moves in each bank it touches, from the blocks it touches. -/
def bankBytes (w : Window) (blocks : List Span) : Tbl Nat :=
  blocks.foldl (fun t b =>
    let k := bitsOf (w.toIa b.va) 16 5
    Tbl.put t k (Tbl.look t k 0 + b.len)) []

def ceilDiv (a b : Nat) : Nat := (a + b - 1) / b

/-- A port that an access occupies: its calendar row, its first free cycle and the cycles it is held for. -/
structure PortUse where
  row   : Nat
  free  : Nat
  cells : Nat
  deriving DecidableEq, Repr

/-- The array uses a bank, or the read port as bank 32, in one of the `n` cycles from `c` on (R227). -/
def Pair.arrayUses (x : Pair) (b c n : Nat) : Bool :=
  [0, 1].any fun h => match Tbl.find x.arrBank (64 * h + b) with
    | some u => (List.range n).any fun i =>
        u.1 ≤ c + i && c + i < u.2 && (x.lease || (c + i) % 32 / 16 == h)
    | none => false

/-- A copy, a collective or a card holds a bank, or the write port as bank 33, in one of the `n` cycles from `c` on (R170). -/
def Pair.bankHeld (x : Pair) (b c n : Nat) : Bool := x.bankBusy.any fun u => u.1 == b && u.2.1 < c + n && c < u.2.2

/-- A bank is held for `n` cycles from `c` on; what ended before `now` is forgotten. -/
def Pair.holdBank (x : Pair) (now b c n : Nat) : Pair :=
  { x with bankBusy := (x.bankBusy.filter fun u => now < u.2.2) ++ [(b, c, c + n)] }

/-- A unit that comes before the cores uses a bank in one of the `n` cycles from `c` on, or is about to take it in the next
cycle (R172). -/
def Pair.engineOn (x : Pair) (b c n : Nat) : Bool :=
  x.arrayUses b c n || x.bankHeld b c n || x.soon.any fun u => u.1 == b && u.2.1 < c + n && c < u.2.2

/-- The first free cycle of a bank, or of the read port as bank 32, for an access of a core that would begin in the next
cycle and hold it for `n` (R170 to R172). -/
def State.portFree (s : State) (p b n : Nat) : Nat :=
  let x := s.pair p
  let t := if b = 32 then x.rdFree else Tbl.look x.coreBank b 0
  if x.engineOn b (s.cycle + 1) n then max t (s.cycle + 2) else t

/-- The ports of an access through SCRATCH or WBANK (R170, R192). -/
def State.portUses (s : State) (core : Nat) (w : Window) (spans : List Span) : List PortUse :=
  let p := pairOf core
  if w.kind = 1 then
    (bankBytes w (spans.flatMap Span.blocks)).map fun (b, n) =>
      { row := rowBank p b, free := s.portFree p b (ceilDiv n 128), cells := ceilDiv n 128 }
  else if w.kind = 2 then
    let n := spans.foldl (fun n sp => n + sp.len) 0
    let per := if (s.face (faceOf core)).ratio.getLsbD (p % 8) then 128 else 256
    [{ row := rowWRead p, free := s.portFree p 32 (ceilDiv n per), cells := ceilDiv n per }]
  else []

/-- The weight bank serves no access in a tick of these cycles: a refresh or a swap tick (R252, R253). -/
def State.wbankShut (s : State) (p row c e : Nat) : Bool :=
  (wbankRowPair row).isSome &&
  (List.range (e / 32 - c / 32 + 1)).any fun i =>
    (s.face (p / 8)).refreshTick row (c / 32 + i) ||
      (match (s.pair p).swap with
        | some z => z.tick == c / 32 + i
        | none => false)

/-- The access must wait for a port: it is occupied, or a free context would meet a tick that is not FREE
(R170, R173). -/
def State.portWait (s : State) (us : List PortUse) : Bool :=
  us.any fun u => s.cycle + 1 < u.free ||
    (s.cx.run == .free && !((s.face s.iface).isFree u.row s.tick &&
      (s.face s.iface).freeCycles u.row (s.cycle + 1) (s.cycle + u.cells)))

/-- The swap tick of the pair's weight bank is the current one: no access of it issues (R253). -/
def State.swapTick (s : State) (p row : Nat) : Bool := (wbankRowPair row).isSome && ((s.pair p).swap.any fun z => z.tick == s.tick)

/-- OVERRUN of a booked task at a port that is not its own, or shut (R173, R211, R253). -/
def State.portCauses (s : State) (us : List PortUse) : List Cause :=
  match s.cx.run, s.cx.bid with
  | .booked, some b =>
    match us.find? fun u => !((s.face s.iface).ownedCycles b u.row (s.cycle + 1) (s.cycle + u.cells)) ||
        s.wbankShut s.ipair u.row (s.cycle + 1) (s.cycle + u.cells) || s.swapTick s.ipair u.row with
    | some u => [kOVERRUN 0 u.row]
    | none => []
  | _, _ => []

/-- An access issued at cycle `t` occupies its ports from the next cycle on. -/
def State.takePortsAt (s : State) (t : Nat) (us : List PortUse) : State :=
  s.onPair s.ipair fun x => us.foldl (fun x u =>
    if (wbankRowPair u.row).isSome then { x with rdFree := max x.rdFree (t + 1 + u.cells) }
    else { x with coreBank := Tbl.put x.coreBank ((u.row - 0x020) % 32) (t + 1 + u.cells) }) x

/-- The access occupies its ports from the next cycle on. -/
def State.takePorts (s : State) (us : List PortUse) : State := s.takePortsAt s.cycle us

/-- The first cycle from `t` on in which an access that is issued again finds its ports free, and its rows where it is a
free context's (R170, R173, R177). -/
def State.reissueAt (s : State) (t : Nat) (us : List PortUse) : Nat :=
  let free (c : Nat) : Bool := us.all fun u =>
    u.free ≤ c + 1 && !((s.pair s.ipair).engineOn (if (wbankRowPair u.row).isSome then 32 else (u.row - 0x020) % 32) (c + 1) u.cells) &&
      (s.cx.run != .free || ((s.face s.iface).isFree u.row (c / 32) && (s.face s.iface).freeCycles u.row (c + 1) (c + u.cells)))
  let lo := us.foldl (fun m u => max m (u.free - 1)) t
  ((List.range 512).map fun i => lo + i).find? free |>.getD
    ((((List.range 8192).map fun i => 32 * (lo / 32 + 17 + i)).find? free).getD lo)

def portOcc (us : List PortUse) : Nat := us.foldl (fun m u => max m u.cells) 0

/-- The slices that an access through a STAGING window touches. -/
def stagingSlices (w : Window) (spans : List Span) : List Nat :=
  if w.kind = 3 then ((spans.flatMap fun sp => sp.cells 16).map fun c => (stagingOf (w.toIa c.va)).1).eraseDups else []

/-- OVERRUN of a booked task at a staging port of its own face that is not booked to it (R185, R211; DEDUCED that a
port of another face, which no plan can book, is used as by a free context). -/
def State.stagingCauses (s : State) (w : Window) (spans : List Span) : List Cause :=
  match s.cx.run, s.cx.bid with
  | .booked, some b =>
    match (stagingSlices w spans).find? fun n => n / 48 == s.iface &&
        !((s.face s.iface).owner (rowSlice n) s.tick == .bid b) with
    | some n => [kOVERRUN 0 (rowSlice n)]
    | none => []
  | _, _ => []

/-- Cycles until a tick of the slice's port row that is not booked (R185). -/
def State.stagingDelay (s : State) (n : Nat) : Nat :=
  match (List.range 8192).find? fun i => match (s.face (n / 48)).owner (rowSlice n) (s.tick + i) with
      | .bid b => s.cx.run == .booked && n / 48 == s.iface && s.cx.bid == some b
      | _ => true with
  | some 0 => 0
  | some i => 32 * (s.tick + i) - s.cycle
  | none => 0

/-! ## Latency (R180, R192) -/

/-- The least latency from a core to a slice (R180). -/
def sliceLatency (core n : Nat) : Nat :=
  if n / 48 = faceOf core then 40
  else if n / 192 = domOf core then 60
  else if n / 384 = dieOf core then 90
  else 160

/-- The least latency of a core's access to an IA; configuration space gives none. -/
def State.leastLatency (s : State) (core part ia : Nat) : Nat :=
  let r := iaRegion ia
  if r ≤ 8 then sliceLatency core (homeSlice (s.homeDom { dom := domOf core, part := part } ia) ia)
  else if r = 9 then sliceLatency core (stagingOf ia).1 + s.stagingDelay (stagingOf ia).1
  else 1

/-- The latency of a variable-latency access to these runs through a window, with what contention adds. -/
def State.accessLatency (s : State) (core : Nat) (w : Window) (vas : List Nat) : Nat :=
  vas.foldl (fun m va => max m (s.leastLatency core (s.partOf core) (s.effIa core w va))) 1 +
    Config.extraLatency s.fresh

/-! ## What a load reads -/

/-- The blocks of an access in order, or a memory-side fault with its VA. -/
inductive Got where
  | blocks (bs : List BlockVal)
  | fail (code va : Nat)
  deriving DecidableEq, Repr

/-- Blocks are read in order. -/
def State.readVas (s : State) (core : Nat) (q : Req) (w : Window) : List Nat → Got × State
  | [] => (.blocks [], s)
  | va :: t =>
    match s.readVa core q w va with
    | (.fail c, s) => (.fail c va, s)
    | (.ok b, s) =>
      match s.readVas core q w t with
      | (.blocks bs, s) => (.blocks (b :: bs), s)
      | (.fail c v, s) => (.fail c v, s)
  
/-- The blocks of each run. -/
def chunkBlocks : List Span → List BlockVal → List (Span × List BlockVal)
  | [], _ => []
  | sp :: t, bs => (sp, bs.take sp.blocks.length) :: chunkBlocks t (bs.drop sp.blocks.length)

/-- A block of a vector load is poisoned (R65, R75); `first` is the CODE of the row's first block, `j` its place in
its run of planes. -/
def TileReq.poisoned (q : TileReq) (first j : Nat) (b : BlockVal) : Bool :=
  coatPoison b.coat ||
  (if q.fmt = 0xC then coatCode b.coat != patchCode (pqUns q.pq) (7 - j)
   else q.fmt == 0 && !coatZero b.coat && (coatCode b.coat != first || !(1 ≤ first && first ≤ 0x0C)))

/-- VA of the first poisoned block, in row order and then address order (R191). -/
def TileReq.poisonVa (q : TileReq) (rows : List (Span × List BlockVal)) : Option Word :=
  if q.coats then none
  else if q.fmt = 0xC then
    (rows.zipIdx.find? fun (r, i) => r.2.any (q.poisoned 0 (i % pqQ q.pq))).map fun (r, _) =>
      BitVec.ofNat 64 (r.1.va / 64 * 64)
  else rows.findSome? fun (sp, bs) =>
    let first := (bs.head?.map fun b => coatCode b.coat).getD 0
    ((sp.blocks.zip bs).find? fun (_, b) => q.poisoned first 0 b).map fun (x, _) => BitVec.ofNat 64 (x.va / 64 * 64)

/-- The coats that CTLD reads as lanes (R195). -/
def TileReq.coatTile (q : TileReq) (rows : List (Span × List BlockVal)) : Tile :=
  let at? (r j : Nat) : Option BlockVal :=
    if q.fmt = 0xC then
      if r % 8 = 0 ∧ j < pqQ q.pq then (rows[r / 8 * pqQ q.pq + j]?).bind fun x => x.2.head? else none
    else (rows[r]?).bind fun x => x.2[j]?
  tileOf fun i => match at? (i / 64) (i % 64) with
    | some b => b.coat.zeroExtend 32
    | none => 0xFFFFFFFF

/-- The lanes that a vector load forms (R193). -/
def TileReq.tile (q : TileReq) (rows : List (Span × List BlockVal)) : Tile :=
  if q.coats then q.coatTile rows
  else if q.fmt = 0xC then
    [0, 1].flatMap fun p =>
      let bs := ((rows.drop (p * pqQ q.pq)).take (pqQ q.pq)).flatMap Prod.snd
      (List.range 512).map fun i => planeLane q.nfr (pqUns q.pq) (pqCen q.pq) bs (i / 64) (i % 64)
  else rows.zipIdx.flatMap fun (x, r) =>
    if q.fmt = 0 then coatRow q.nfr q.pc x.2 (x.1.va % 64) (64 * r)
    else explicitRow q.nfr q.pc q.fmt x.2 (x.1.va % 64) (64 * r)

/-- A load as performed: its value and the VA of its first poisoned block, or a fault. -/
inductive Loaded where
  | tile (t : Tile) (poison : Option Word)
  | word (v : Word) (poison : Option Word)
  | fail (code va : Nat)
  deriving DecidableEq, Repr

/-- A tile load is performed (R193, R195). -/
def State.loadTile (s : State) (core : Nat) (r : Req) (w : Window) (q : TileReq) : Loaded × State :=
  let spans := s.tileSpans core r (some w) q
  match s.readVas core r w ((spans.flatMap Span.blocks).map Span.va) with
  | (.blocks bs, s) =>
    let rows := chunkBlocks spans bs
    (.tile (q.tile rows) (q.poisonVa rows), s)
  | (.fail c va, s) => (.fail c va, s)

/-- The value of a scalar load from its block (R191, R197). -/
def scalarOf (b : BlockVal) (va width : Nat) (signed : Bool) : Word :=
  if coatPoison b.coat then 0
  else
    let n := 8 * 2 ^ width
    let v := bitsOf b.data (8 * (va % 64)) n
    if signed then BitVec.ofInt 64 (sext n v) else BitVec.ofNat 64 v

/-- A scalar load is performed (R191, R197). -/
def State.loadScalar (s : State) (core : Nat) (r : Req) (w : Window) (va width : Nat) (signed : Bool) :
    Loaded × State :=
  match s.readVa core r w va with
  | (.ok b, s) =>
    (.word (scalarOf b va width signed) (if coatPoison b.coat then some (BitVec.ofNat 64 (va / 64 * 64)) else none), s)
  | (.fail c, s) => (.fail c va, s)

/-! ## What a store writes -/

/-- A block write of a store: its VA and the write. -/
structure VWrite where
  va : Nat
  w  : BWrite
  deriving DecidableEq, Repr

/-- The lanes of one row's run of blocks as block writes (R194, R70 to R72). -/
def TileReq.storeRow (q : TileReq) (sp : Span) (lanes : List Lane) : List VWrite :=
  let bits := elemBits q.nfr q.fmt
  let per := if sp.len < 64 then 64 else 512 / bits
  sp.blocks.zipIdx.map fun (b, i) =>
    let r := storeBlock q.nfr (pqUns q.pq) q.fmt ((lanes.drop (per * i)).take per)
    { va := b.va
      w := { mask := byteMask (b.va % 64) b.len, data := packCodes bits r.2 * 2 ^ (8 * (b.va % 64))
             coat := some (mkCoat r.1 (fmtCode q.fmt)) } }

/-- The planes of one patch as block writes (R75). -/
def TileReq.storePatch (q : TileReq) (p : Nat) (lanes : List Lane) : List VWrite :=
  let r := storeBlock q.nfr (pqUns q.pq) 0xC lanes
  (List.range (pqQ q.pq)).map fun j =>
    { va := q.planeVa p j / 64 * 64
      w := { mask := 2 ^ 512 - 1, data := packCodes 1 (r.2.map fun c => c / 2 ^ (7 - j))
             coat := some (mkCoat r.1 (patchCode (pqUns q.pq) (7 - j))) } }

/-- The block writes of VST in the order of their rows (R194). DEDUCED (log 122): where several rows lie in one 64-byte block,
each row's write has the scale E of its own lanes, and the last row's stays, as R194 says of the coat; R71's E of all lanes of a
block is read as that of the lanes of one row. -/
def TileReq.storeWrites (q : TileReq) (spans : List Span) (t : Tile) : List VWrite :=
  let row (r : Nat) : List Lane := (List.range 64).map fun c => lane t (64 * r + c)
  if q.fmt = 0xC then
    [0, 1].flatMap fun p => q.storePatch p ((List.range 8).flatMap fun r => row (8 * p + r))
  else spans.zipIdx.flatMap fun (sp, r) => q.storeRow sp (row r)

/-- The block writes of CTST: coats of lanes whose high half is zero (R196). -/
def TileReq.coatWrites (q : TileReq) (spans : List Span) (t : Tile) : List VWrite :=
  let put (b : Span) (v : Lane) : List VWrite :=
    if v.toNat / 65536 = 0 then [{ va := b.va, w := BWrite.coatOnly (v.truncate 16) }] else []
  if q.fmt = 0xC then
    spans.zipIdx.flatMap fun (sp, i) => put sp (lane t (512 * (i / pqQ q.pq) + i % pqQ q.pq))
  else spans.zipIdx.flatMap fun (sp, r) => sp.blocks.zipIdx.flatMap fun (b, j) => put b (lane t (64 * r + j))

/-- Block writes are made in order, up to the first fault, which is given with its VA. -/
def State.writeEach (s : State) (core : Nat) (q : Req) (w : Window) : List VWrite → Option (Nat × Nat) × State
  | [] => (none, s)
  | x :: t =>
    match s.iaWrite q (s.effIa core w x.va / 64 * 64) x.w with
    | (some c, s) => (some (c, x.va), s)
    | (none, s) => s.writeEach core q w t

/-- A store's block writes: one that meets a memory-side fault writes nothing (R289). -/
def State.writeVas (s : State) (core : Nat) (q : Req) (w : Window) (l : List VWrite) : Option (Nat × Nat) × State :=
  match s.writeEach core q w l with
  | (some f, _) => (some f, s)
  | (none, t) => (none, t)

/-! ## Results of variable latency (R39, R191, R289, R414) -/

/-- A request of the context at the point of issue is pending until `due`. -/
def State.pend (s : State) (c due : Nat) (p : Pending) : State :=
  ((s.onCtx c fun x => { x with pending := x.pending ++ [{ p with id := s.fresh, issued := s.cycle }] }).schedule due (srcCore (coreOf c))
    (.loadResult c s.fresh)).bump

/-- The domain whose flash port serves one of these VAs: a line of a page in flash that no slice holds (R290). -/
def State.portOf (s : State) (core : Nat) (q : Req) (w : Window) (vas : List Nat) : Option Nat :=
  (vas.find? fun va =>
    let ia := s.effIa core w va
    iaRegion ia ≤ 7 && (Tbl.find s.lines (lineKey (iaRegion ia) ia)).isNone && (q.frameOf ia).isNone &&
      s.inFlash (iaRegion ia) ia).map fun va => iaRegion (s.effIa core w va)

/-- The result of a load, as a pending result. -/
def Pending.take (p : Pending) (l : Loaded) : Pending :=
  match l with
  | .tile t z => { p with tile := t, poison := z }
  | .word v z => { p with value := v, poison := z }
  | .fail code va => { p with fault := some (code, BitVec.ofNat 64 va) }

/-- A load that was performed is pending for `lat` cycles, or until the flash port has served it (R290). -/
def State.pendLoad (s : State) (c lat : Nat) (port : Option Nat) (p : Pending) : State :=
  match port with
  | none => s.pend c (s.cycle + lat) p
  | some d =>
    ((s.onCtx c fun x => { x with pending := x.pending ++ [{ p with id := s.fresh, flash := true, least := s.cycle + lat, issued := s.cycle }] }).onDom d fun y =>
      { y with fwdQ := y.fwdQ ++ [.load c s.fresh] }).bump

/-- A trap that waits for the first bundle that would issue at or after cycle `due`. -/
def State.lateFault (s : State) (c due code slot : Nat) (va : Word) : State :=
  s.pend c due { id := 0, slot := slot, dest := .nothing, reissue := false, fault := some (code, va) }

/-- A poisoned load traps at the first bundle at or after the cycle of its write (R191): the trap of a load of fixed
latency falls with the write, in whichever cycle that is made (R214). -/
def State.latePoison (s : State) (c due : Nat) (z : Option Word) : State :=
  match z with
  | none => s
  | some va => s.onCtx c fun x =>
      { x with inflight := x.inflight ++
          [{ due := due, slot := 4, w := .owe { code := 0x0B, addr := va, slot := 4, issued := s.cycle }, issued := s.cycle }] }

/-- Lanes that a landed or loaded tile writes: a whole tile of 1,024. -/
def fullTile (t : Tile) : Tile := tileOf fun i => lane t i

end Sys2Proof.Machine
end

