-- ==== Sys2Proof/Machine/Registers.lean ====
section
/-! DEFINITION. Configuration space (region 0xF): its register blocks, who may reach them, what a read returns and
which event a write is (R7, R8, R188, R189, R223, R224, R254, R255, R282, R299, R307, R308, R311, R354, R374, R375,
R388, R398, R404, R430, R445, R449, R450). -/

namespace Sys2Proof.Machine

/-! ## Addresses -/

/-- A register by its block, the number of its unit and its offset in the block. -/
inductive Reg where
  | slice (n off : Nat)
  | ret (d n off : Nat)
  | cal (f off : Nat)
  | pair (p off : Nat)
  | acct (p i off : Nat)
  | engine (e off : Nat)
  | tstat (core off : Nat)
  | dom (d off : Nat)
  | flash (n off : Nat)
  | handle (h off : Nat)
  | queue (p q off : Nat)
  | sq (p off : Nat)
  | disp (d off : Nat)
  | peer (p n : Nat)
  | ctl (p off : Nat)
  | plat (off : Nat)
  deriving DecidableEq, Repr

/-- The blocks of region 0xF: base, bytes of a unit, units. -/
def regBlocks : List (Nat × Nat × Nat) :=
  [(0x1000000, 0x40, 1536), (0x2000000, 0x100, 8), (0x3000000, 0x1000, 32), (0x4000000, 0x100, 256),
   (0x4100000, 0x2000, 256), (0x5000000, 0x40, 128), (0x5010000, 0x40, 512), (0x6000000, 0x100, 9),
   (0x7000000, 0x100, 8), (0x7100000, 0x40, 4096), (0x8000000, 0x40, 256), (0x8040000, 0x40, 16),
   (0x9000000, 0x100, 8), (0xA000000, 0x800, 16), (0xB000000, 0x1000, 16), (0xC000000, 0x5000, 1)]

/-- The register at offset `o` of unit `n` of block `k`. -/
def regAt (k n o : Nat) : Reg :=
  match k with
  | 0 => .slice n o
  | 1 => .ret n (o / 0x20) (o % 0x20)
  | 2 => .cal n o
  | 3 => .pair n o
  | 4 => .acct n (o / 32) (o % 32)
  | 5 => .engine n o
  | 6 => .tstat n o
  | 7 => .dom n o
  | 8 => .flash n o
  | 9 => .handle n o
  | 10 => .queue (n / 16) (n % 16) o
  | 11 => .sq n o
  | 12 => .disp n o
  | 13 => .peer n (o / 8)
  | 14 => .ctl n o
  | _ => .plat o

/-- The 8-byte register that holds a byte of region 0xF; none outside every block (R449). -/
def regOf (ia : Nat) : Option Reg :=
  let o := ia % 2 ^ 48 / 8 * 8
  if ia / 2 ^ 48 ≠ 0xF then none
  else
    let f (b : Nat × Nat × Nat) : Bool := b.1 ≤ o && o < b.1 + b.2.1 * b.2.2
    match regBlocks.findIdx? f, regBlocks.find? f with
    | some k, some b => some (regAt k ((o - b.1) / b.2.1) ((o - b.1) % b.2.1))
    | _, _ => none

/-! ## Access codes and admission (R7, R403, R449) -/

/-- The access code that governs a write. -/
inductive Access where
  | ro
  | rw
  | rws
  | rwf
  deriving DecidableEq, Repr

/-- The access code of a register's writable fields. DESIGN CHOICE (log 131): R299 gives PGCMD no code of privilege (BUSY and
STATUS are RO, OP is WO), so R7 forbids no write of it; R298's `a supervisor` is its block's statement, and a task's write is
refused under R449. -/
def Reg.access : Reg → Access
  | .slice _ o => if o = 0 then .rws else .ro
  | .ret _ _ o => if o ≤ 0x10 then .rwf else .ro
  | .cal _ o => if o = 0x38 then .rw else if o = 0x30 ∨ (0x80 ≤ o ∧ o < 0xC0) then .rwf else .ro
  | .pair _ o => if o = 0 ∨ o = 0x20 then .rws else .ro
  | .acct _ _ _ => .ro
  | .engine _ _ => .ro
  | .tstat _ _ => .ro
  | .dom d o => if o ≤ 0x08 then .rwf else if d = 8 then .ro else if o ≤ 0x20 then .rwf
      else if o = 0x30 then .rw else if 0x38 ≤ o ∧ o ≤ 0x58 then .rws else .ro
  | .flash _ o => if o = 0x80 ∨ o = 0x88 ∨ o = 0x90 then .rws else if o = 0x98 then .rwf else .ro
  | .handle _ o => if o = 0 then .rwf else .ro
  | .queue _ _ o => if o ≤ 0x10 then .rws else .ro
  | .sq _ o => if o ≤ 0x10 then .rws else .ro
  | .disp _ o => if o = 0 then .rwf else .ro
  | .peer _ n => if n = 0 then .ro else .rws
  | .ctl _ o =>
    if o = 0x000 ∨ o = 0x010 ∨ o = 0x050 ∨ o = 0x058 then .rwf
    else if o = 0x020 ∨ o = 0x040 then .rw
    else if o = 0x028 ∨ o = 0x030 ∨ o = 0x038 ∨ o = 0x048 ∨ (0x060 ≤ o ∧ o ≤ 0x078) then .rws else .ro
  | .plat o => if o = 0x18 then .rwf else if 0x1000 ≤ o ∧ o < 0x3000 ∧ o % 0x100 = 0 then .rw else .ro

/-- A face's owner is the partition `p`. -/
def State.faceIs (s : State) (f p : Nat) : Bool := s.ownerOf f == some p

/-- The context may read the block (R224, R282, R311, R445, R449). -/
def State.regReadable (s : State) (priv p : Nat) (r : Reg) : Bool :=
  priv == 2 ||
  match r with
  | .cal f _ => 1 ≤ priv && s.faceIs f p
  | .engine e _ => 1 ≤ priv && s.faceIs (e / 4) p
  | .tstat c _ => 1 ≤ priv && s.faceIs (faceOf c) p
  | .handle h _ => 1 ≤ priv && (s.handle h).owner == p
  | .ctl q _ => q == p
  | .plat o => 1 ≤ priv && 0x100 ≤ o && o < 0x300
  | _ => true

/-- The partition whose supervisor the block admits as a writer; none: every context (R188, R255, R308, R354, R398,
R403). -/
def State.regWriter (s : State) (p : Nat) (r : Reg) : Bool :=
  match r with
  | .slice n _ => s.faceIs (n / 48) p
  | .pair q _ => s.faceIs (q / 8) p
  | .flash n _ => (List.range 4).all fun i => s.faceIs (4 * n + i) p
  | .queue q _ _ => q == p
  | .sq q _ => q == p
  | .peer q _ => q == p
  | .plat _ => false
  | _ => true

/-- Blocks that only a supervisor may write at all: slices, array blocks, queues, peer tables and PGCMD (R188, R255, R298, R354,
R398). -/
def Reg.supOnly : Reg → Bool
  | .slice _ _ => true
  | .pair _ _ => true
  | .queue _ _ _ => true
  | .peer _ _ => true
  | .dom d o => d != 8 && o == 0x30
  | _ => false

/-- Every field of the register lies in its low half: a write of the high half changes nothing (R450). -/
def Reg.lowOnly : Reg → Bool
  | .slice _ _ => true
  | .ret _ _ o => o == 0x10
  | .cal _ _ => true
  | .pair _ o => o == 0
  | .dom d o => d != 8 && (o == 0x10 || o == 0x18 || o == 0x20 || o == 0x30 || o == 0x48) || o == 8
  | .flash _ o => o != 0x90
  | .handle _ _ => true
  | .queue _ _ o => o == 0x08
  | .sq _ o => o == 0x08 || o == 0x10
  | .disp _ _ => true
  | .ctl _ o => [0x000, 0x010, 0x020, 0x028, 0x048, 0x050, 0x058, 0x070, 0x078].contains o
  | .plat _ => true
  | _ => false

/-- The access code of the fields that a write reaches: all, or those of the high half (R450). -/
def Reg.accessOf (r : Reg) (hi : Bool) : Access := if hi && r.lowOnly then .ro else r.access

/-- What becomes of a write before it is made (R7, R449). -/
inductive WriteCheck where
  | ok
  /-- the access code forbids it at this privilege: PRIV at issue -/
  | priv
  /-- the block refuses it: ACCESS later -/
  | refuse
  deriving DecidableEq, Repr

/-- A write of a register, or of its high half alone, by privilege `priv` of partition `p`. -/
def State.regWriteCheck (s : State) (priv p : Nat) (r : Reg) (hi : Bool := false) : WriteCheck :=
  if priv = 2 then .ok
  else if !s.regReadable priv p r || (priv == 0 && r.supOnly) then .refuse
  else match r.accessOf hi with
    | .rwf => .priv
    | .rws => if priv = 0 then .priv else if s.regWriter p r then .ok else .refuse
    | _ => if s.regWriter p r then .ok else .refuse

/-! ## Reading -/

/-- Two 32-bit halves. -/
def halves (lo hi : Nat) : Nat := lo % 2 ^ 32 + hi % 2 ^ 32 * 2 ^ 32

/-- Every need in use finds its handle in PARTIAL or READY with its planes landed (R363). -/
def State.needsMet (s : State) (t : Task) : Bool :=
  (List.range 4).all fun i =>
    let n := bitsOf (wordAt t.tcb 13).toNat (16 * i) 16
    let h := s.handle (n % 4096)
    n / 4096 == 0 || ((h.st == 2 || h.st == 3) && n / 4096 ≤ h.landed)

/-- Instances of a task (R359). -/
def Task.total (t : Task) : Nat :=
  let w := (wordAt t.tcb 4).toNat
  bitsOf w 0 16 * bitsOf w 16 16 * bitsOf w 32 16

/-- Every edge is satisfied and every need has landed (R363), and an instance remains to be dispatched. -/
def State.dispatchable (s : State) (t : Task) : Bool :=
  t.edges.isEmpty && s.needsMet t && !t.complete && (t.next < t.total || !t.yielded.isEmpty)

/-- STATE of a task (R353): 0 WAITING, 1 DISPATCHABLE, 2 RUNNING, 3 FAULTED, 4 COMMITTING. -/
def State.taskState (s : State) (t : Task) : Nat :=
  if t.complete then 4 else if t.faulted then 3 else if t.dispatched then 2
  else if t.edges.isEmpty && s.needsMet t then 1 else 0

/-- The tasks that hold a slot of queue 16p + q. -/
def State.queueTasks (s : State) (n : Nat) : List Task :=
  (s.disps.map fun d => d.2.tasks).flatten.filter fun t => 16 * t.part + t.queue == n

def Face.idsInUse (f : Face) : Nat := f.bookings.length
/-- The plan may be examined by compaction (R218). -/
def State.movable (s : State) (b : Booking) : Bool := !b.started && !b.examined && !(s.part b.part).compactoff
/-- The plans that await compaction (R223). -/
def State.awaiting (s : State) (f : Nat) : Nat :=
  if (s.face f).released then ((s.face f).bookings.filter fun b => s.movable b.2).length else 0

def State.sliceRead (s : State) (n o : Nat) : Nat :=
  let x := s.slice n
  match o with
  | 0x00 => x.w + (x.wNew.isSome).toNat * 2 ^ 8 + x.err.toNat * 2 ^ 9
  | 0x08 => (16 - x.w) * 0x10000
  | 0x10 => x.hits
  | 0x18 => x.misses
  | 0x20 => x.wbacks
  | 0x28 => x.secc
  | 0x30 => x.sunc
  | _ => 0

def State.retRead (s : State) (d n o : Nat) : Nat :=
  let r := Tbl.look (s.dom d).ret n {}
  match o with
  | 0x00 => r.lo * 65536
  | 0x08 => r.hi * 65536
  | 0x10 => r.ways + r.ratio * 2 ^ 8 + r.en.toNat * 2 ^ 16 + r.inactive.toNat * 2 ^ 31
  | _ => 0

def State.calRead (s : State) (f o : Nat) : Nat :=
  let x := s.face f
  match o with
  | 0x000 => s.tick
  | 0x008 => x.idsInUse + min (s.awaiting f) 255 * 2 ^ 8
  | 0x010 => halves x.slips x.slipTicks
  | 0x018 => x.overruns
  | 0x020 => x.compMoves
  | 0x028 => x.dblref.toNat
  | 0x030 => x.ratio.toNat + x.ratioReq.toNat * 2 ^ 8 + x.ratioPend.toNat * 2 ^ 16
  | 0x038 => x.rowq.toNat
  | 0x040 =>
    match x.owner (bitsOf x.rowq.toNat 13 9) (s.tick + bitsOf x.rowq.toNat 0 13) with
    | .free => 0xFF
    | .ctl => 0xFE
    | .bid b => b
  | _ => if 0x80 ≤ o ∧ o < 0xC0 then x.allow ((o - 0x80) / 8) else 0

/-- Entries in use of a pair's queue (R255). -/
def Pair.depth (p : Pair) (q : Nat) : Nat := (Tbl.look p.queues q []).length

def State.pairRead (s : State) (n o : Nat) : Nat :=
  let p := s.pair n
  let psn (b : Nat) : Nat := ((Tbl.look p.acc b {}).poison).toNat
  match o with
  | 0x00 => p.lease.toNat + p.leaseMax * 2 ^ 8 + p.acfgErr.toNat * 2 ^ 15
  | 0x08 => (List.range 4).foldl (fun t q => t + p.depth q % 16 * 2 ^ (4 * q)) 0 + p.active.toNat * 2 ^ 16 +
      p.swap.isSome.toNat * 2 ^ 17 + psn 0 * 2 ^ 18 + psn 1 * 2 ^ 19
  | 0x10 => (Tbl.look p.acc 0 {}).apsn
  | 0x18 => (Tbl.look p.acc 1 {}).apsn
  | 0x20 => p.acctEn.toNat + p.acctSize * 4 + p.acctBase
  | 0x28 => halves p.acctPtr p.acctLost
  | 0x30 => (s.cycle - p.busy) % 2 ^ 48
  | _ => 0

/-- An entry of the cycle-accounting table (R254). -/
def Acct.words (a : Acct) : List Word :=
  [a.addr, BitVec.ofNat 64 a.compute, BitVec.ofNat 64 (halves a.wload a.awaitA), BitVec.ofNat 64 (a.drain % 2 ^ 32)]

def State.engineRead (s : State) (n o : Nat) : Nat :=
  let e := s.engine n
  match o with
  | 0x00 => e.queue.length + (e.queue.filter fun c => c.bid.isSome).length * 2 ^ 8
  | 0x08 => e.bytes
  | 0x10 => e.errs
  | 0x18 => e.parks
  | _ => 0

def State.domRead (s : State) (d o : Nat) : Nat :=
  if d = 8 then (if o = 0 then s.ft8base else if o = 8 then s.ft8len else 0)
  else
    let x := s.dom d
    match o with
    | 0x00 => x.ftbase
    | 0x08 => x.ftlen
    | 0x10 => x.promo
    | 0x18 => x.epochlen
    | 0x20 => x.lowwm + x.highwm * 2 ^ 16
    | 0x28 => x.ready.length % 512 + x.hand * 2 ^ 12 + x.sweeping.toNat * 2 ^ 32
    | 0x30 => x.pgStatus * 2 ^ 16 + x.pgBusy.toNat * 2 ^ 31
    | 0x38 => x.pgarg0
    | 0x40 => x.pgarg1.toNat
    | 0x48 => x.l2Done.toNat * 2 ^ 8
    | 0x50 => x.l2lo
    | 0x58 => x.l2hi
    | 0x60 => halves x.promos x.demos
    | 0x68 => halves x.promskip x.dropwb
    | 0x70 => x.fwdreads
    | 0x78 => x.tcmiss
    | _ => 0

/-- Program/erase count of a block, as the tables give it at delivery and programming raises it (R307). -/
def Flash.blockPe (f : Flash) (n b : Nat) : Nat := Config.blockWear n b + (Tbl.look f.blocks b {}).pe

/-- Erase blocks of a stack: 36,864, less those marked bad (R300, R307). -/
def Flash.goodBlocks (f : Flash) : List Nat := (List.range 36864).filter fun b => !(Tbl.look f.blocks b {}).bad

/-- Mean program/erase count, rounded down (R307). -/
def Flash.meanPe (f : Flash) (n : Nat) : Nat :=
  let g := f.goodBlocks
  (g.foldl (fun t b => t + f.blockPe n b) 0) / g.length

def Flash.maxPe (f : Flash) (n : Nat) : Nat := f.goodBlocks.foldl (fun t b => max t (f.blockPe n b)) 0

/-- The block with the most reads, and its count (R307). -/
def Flash.worstRead (f : Flash) : Nat × Nat :=
  f.blocks.foldl (fun m (b, x) => if m.2 < x.reads then (b, x.reads) else m) (0, 0)

def State.flashRead (s : State) (n o : Nat) : Nat :=
  let f := s.stack n
  match o with
  | 0x00 => (Config.spareBlocks n - f.spareUsed) % 65536
  | 0x08 => f.grown % 65536
  | 0x10 => halves f.reloc f.relocRd
  | 0x18 => f.maxPe n % 65536 + f.meanPe n % 65536 * 2 ^ 16
  | 0x20 => f.worstRead.2 % 2 ^ 32 + f.worstRead.1 % 65536 * 2 ^ 32
  | 0x28 => f.uncorr
  | 0x30 => f.retries
  | 0x38 => Config.temperature (0x520 + n) s.gtc % 256
  | 0x40 => (100 * (3000 - f.meanPe n)) / 3000 % 256
  | 0x80 => f.rdthr
  | 0x88 => f.patrol
  | 0x90 => f.injLba + f.injBits * 2 ^ 48 + f.injKind * 2 ^ 56 + f.injArm.toNat * 2 ^ 63
  | 0x98 => f.wldelta
  | _ =>
    if 0x48 ≤ o ∧ o ≤ 0x60 then
      let i := (o - 0x48) / 8
      halves (Tbl.look f.chist (2 * i) 0) (Tbl.look f.chist (2 * i + 1) 0)
    else 0

/-- Word 0 of a handle record (R311). -/
def Handle.word0 (h : Handle) : Nat :=
  h.st + h.landed * 2 ^ 16 + h.req * 2 ^ 20 + h.prio.toNat * 2 ^ 26 + h.en.toNat * 2 ^ 27 + h.owner * 2 ^ 28 +
    h.err * 2 ^ 32

def State.handleRead (s : State) (n o : Nat) : Nat :=
  let h := s.handle n
  match o with
  | 0x00 => h.word0
  | 0x08 => h.desc
  | 0x10 => h.dest.toNat
  | 0x18 => h.fgtc.toNat
  | 0x20 => h.lgtc.toNat
  | 0x28 => h.foot
  | 0x38 => h.seq
  | _ => 0

def State.queueRead (s : State) (p q o : Nat) : Nat :=
  let x := s.queue (16 * p + q)
  match o with
  | 0x00 => x.base
  | 0x08 => x.lsize + x.dom * 2 ^ 4 + x.en.toNat * 2 ^ 7 + x.tickets * 2 ^ 16
  | 0x10 => x.wset
  | 0x18 =>
    let l := s.queueTasks (16 * p + q)
    l.length + (l.filter fun t => s.taskState t == 1).length * 2 ^ 16 + x.fulls * 2 ^ 32
  | _ => 0

def State.sqRead (s : State) (p o : Nat) : Nat :=
  let x := s.part p
  match o with
  | 0x00 => x.sqbase
  | 0x08 => x.sqLsize + x.sqEn.toNat * 2 ^ 7
  | 0x10 => x.sqhead.toNat
  | 0x18 => x.sqtail.toNat
  | 0x20 => x.sqlost
  | _ => 0

def State.dispRead (s : State) (d o : Nat) : Nat :=
  let x := s.disp d
  match o with
  | 0x00 => x.lseed.toNat
  | 0x08 => x.tasks.length + (s.dom d).versions.length * 2 ^ 16
  | 0x10 => x.steps
  | 0x18 => x.block
  | _ => 0

/-- START in the layout of R99. -/
def Part.startWord (q : Part) : Nat := q.run.toNat * 2 + q.startErr * 4 + q.table + q.badidx * 2 ^ 52

def State.ctlRead (s : State) (p o : Nat) : Nat :=
  let x := s.part p
  match o with
  | 0x000 => x.pfaces.toNat
  | 0x008 => x.supctx + (x.hasSup && (s.ctx x.supctx).run != .halted).toNat * 2 ^ 16 + x.rbusy.toNat * 2 ^ 17
  | 0x010 => x.fquota
  | 0x020 => x.rbusy.toNat * 2
  | 0x028 => x.wdlimit
  | 0x030 => x.stoppc.toNat
  | 0x038 => x.stopctl.toNat
  | 0x040 => x.startWord
  | 0x048 => x.compactoff.toNat
  | 0x050 => x.spill.toNat
  | 0x058 => x.fshare
  | 0x060 => x.savebase
  | 0x068 => x.msgbase
  | 0x070 => x.msgLsize + x.msgEn.toNat * 2 ^ 7 + x.msgFlag * 2 ^ 8 + x.msgFlagEn.toNat * 2 ^ 12
  | 0x078 => x.msghead.toNat
  | 0x080 => x.msgtail.toNat
  | 0x088 => x.msglost
  | _ => 0

/-- BOOTCAUSE (R433). -/
def Platform.bootcause (y : Platform) : Nat := y.cause + y.lastfail * 2 ^ 8 + y.fails * 2 ^ 16

def State.platRead (s : State) (o : Nat) : Nat :=
  let y := s.plat
  match o with
  | 0x000 => y.bootcause
  | 0x008 => s.gtc
  | 0x010 => if s.gtc < 1000000 then 0 else Config.power (s.gtc / 1000000) % 65536
  | 0x018 => y.plimit
  | 0x020 => y.hrej
  | _ =>
    if 0x100 ≤ o ∧ o < 0x300 then
      bitsOf (Tbl.look y.meas ((o - 0x100) / 0x40) 0).toNat (8 * (o % 0x40)) 64
    else if 0x1000 ≤ o ∧ o < 0x3000 then
      let f := s.face ((o - 0x1000) / 0x100)
      let k := o % 0x100
      if k = 0 then f.dvalid.toNat + f.dcount * 2 ^ 16
      else if k = 8 then f.dgtc.toNat
      else if k < 0x90 then (Tbl.look f.dpc ((k - 0x10) / 8) 0).toNat
      else 0
    else if 0x4000 ≤ o ∧ o < 0x4940 then Config.temperature (0x400 + (o - 0x4000) / 8) s.gtc % 256
    else 0

/-- The value that an 8-byte read of a register returns. -/
def State.regRead (s : State) (r : Reg) : Word :=
  BitVec.ofNat 64 <| match r with
    | .slice n o => s.sliceRead n o
    | .ret d n o => s.retRead d n o
    | .cal f o => s.calRead f o
    | .pair p o => s.pairRead p o
    | .acct p i o => (((s.pair p).acct[i]?).map fun a => (wordAt a.words (o / 8)).toNat).getD 0
    | .engine e o => s.engineRead e o
    | .tstat c o => leNat ((List.range 8).map fun i => Tbl.look (s.core c).tstat (o + i) 0)
    | .dom d o => s.domRead d o
    | .flash n o => s.flashRead n o
    | .handle h o => s.handleRead h o
    | .queue p q o => s.queueRead p q o
    | .sq p o => s.sqRead p o
    | .disp d o => s.dispRead d o
    | .peer p n => (Tbl.look (s.part p).peers n 0).toNat
    | .ctl p o => s.ctlRead p o
    | .plat o => s.platRead o

/-! ## Writing -/

/-- The value of a half write merged into the register: RW fields of the other half keep their value, W1C and WO
fields act as if written with 0 (R450). -/
def State.mergeHalf (s : State) (r : Reg) (hi : Bool) (v : Nat) : Word :=
  let old := match r with
    | .plat o => if 0x1000 ≤ o ∧ o < 0x3000 then 0 else (s.regRead r).toNat
    | _ => (s.regRead r).toNat
  BitVec.ofNat 64 (if hi then halves old v else halves v (old / 2 ^ 32))

/-- `n` bytes at an address of region 0xF are the high half of a register (R450). -/
def highHalf (ia n : Nat) : Bool := n == 4 && ia % 8 == 4

/-- A write of `n` bytes (8 or 4) at an address of region 0xF becomes the next event of the cycle. -/
def State.cfgStore (s : State) (priv p ia n : Nat) (v : Word) : State :=
  match regOf ia with
  | none => s
  | some r =>
    if highHalf ia n && r.lowOnly then s
    else
      let w := if n = 4 then s.mergeHalf r (highHalf ia n) v.toNat else v
      { s with todo := .write priv p (ia / 8 * 8) w :: s.todo }

/-- A read of `n` bytes (8 or 4) of configuration space (R450). -/
def State.cfgLoad (s : State) (ia n : Nat) : Word :=
  match regOf ia with
  | none => 0
  | some r =>
    let v := (s.regRead r).toNat
    if n = 8 then BitVec.ofNat 64 v else BitVec.ofNat 64 (bitsOf v (8 * (ia % 8)) 32)

/-! ## Plain writes (REGISTER_WRITE) -/

/-- LSIZE as it is stored (R374). -/
def clampLsize (v : Nat) : Nat := max 4 (min 12 v)

/-- Bits [51:lo] of a written value, in place. -/
def addrField (v : Word) (lo : Nat) : Nat := bitsOf v.toNat lo (52 - lo) * 2 ^ lo

/-- A write of a retention range's register (R189). DESIGN CHOICE (log
107): a written WAYS above 15 is stored as 15. -/
def Ret.write (r : Ret) (o : Nat) (v : Word) : Ret :=
  match o with
  | 0x00 => { r with lo := bitsOf v.toNat 16 36 }
  | 0x08 => { r with hi := bitsOf v.toNat 16 36 }
  | _ => { r with en := v.getLsbD 16, ratio := bitsOf v.toNat 8 8, ways := min (bitsOf v.toNat 0 5) 15 }

/-- The page command that an OP starts (R298). -/
def pageCommand (op d p : Nat) : Option Instr :=
  match op with
  | 1 => some (.maphbm d p)
  | 2 => some (.maphbf d p)
  | 3 => some (.unmap d p)
  | 4 => some (.pin d p)
  | 5 => some (.unpin d p)
  | 6 => some (.promote d p)
  | 7 => some (.demote d p)
  | 8 => some (.replicate d p)
  | 9 => some (.inval d p)
  | _ => none

/-- The maintenance command that an OP starts (R297). -/
def l2Command (op d p : Nat) : Option Instr :=
  match op with
  | 1 => some (.wb d p)
  | 2 => some (.wbinv d p)
  | 3 => some (.inv d p)
  | _ => none

/-- An event that happens next in this cycle. -/
def State.then (s : State) (i : Instr) : State := { s with todo := .event i :: s.todo }

def State.domWrite (s : State) (d o p : Nat) (v : Word) : State :=
  if d = 8 then
    if o = 0 then { s with ft8base := addrField v 16 }
    else if o = 8 then { s with ft8len := v.toNat % 2 ^ 32 } else s
  else
    match o with
    | 0x00 => s.onDom d fun x => { x with ftbase := addrField v 16, tcache := [] }
    | 0x08 => s.onDom d fun x => { x with ftlen := v.toNat % 2 ^ 32 }
    | 0x10 => s.onDom d fun x => { x with promo := v.toNat % 65536 }
    | 0x18 => s.onDom d fun x => { x with epochlen := max 1 (v.toNat % 2 ^ 32) }
    | 0x20 =>
      let lo := bitsOf v.toNat 0 9
      let hi := bitsOf v.toNat 16 9
      if hi ≤ lo || 256 < hi then s else s.onDom d fun x => { x with lowwm := lo, highwm := hi }
    | 0x30 =>
      if (s.dom d).pgBusy then s
      else match pageCommand (v.toNat % 256) d p with
        | some i => (s.onDom d fun x => { x with pgBusy := true }).then i
        | none => s
    | 0x38 => s.onDom d fun x => { x with pgarg0 := addrField v 16 }
    | 0x40 => s.onDom d fun x => { x with pgarg1 := v }
    | 0x48 =>
      match l2Command (v.toNat % 4) d p with
      | some i => (s.onDom d fun x => { x with l2Done := false, l2Op := v.toNat % 4 }).then i
      | none => s
    | 0x50 => s.onDom d fun x => { x with l2lo := addrField v 6 }
    | 0x58 => s.onDom d fun x => { x with l2hi := addrField v 6 }
    | _ => s

/-- REQ of WRATIO: each pair whose requested ratio differs, and that has no change going on, starts one (R224). A new value
of WRATIO makes blocked tasks eligible again (R366). -/
def State.wratioStore (s : State) (f : Nat) (v : Word) : State :=
  let req := BitVec.ofNat 8 (bitsOf v.toNat 8 8)
  let s := if req = (s.face f).ratioReq then s else (s.onFace f fun x => { x with ratioReq := req }).unblock (f / 4)
  (List.range 8).reverse.foldl (fun s p =>
    let x := s.face f
    if x.ratioReq.getLsbD p != x.ratio.getLsbD p && !x.ratioPend.getLsbD p then s.then (.wratioChange f p) else s) s

def State.calWrite (s : State) (f o : Nat) (v : Word) : State :=
  match o with
  | 0x30 => s.wratioStore f v
  | 0x38 => s.onFace f fun x => { x with rowq := BitVec.ofNat 22 v.toNat }
  | _ => s

/-- ACCTCTL (R255). -/
def State.acctWrite (s : State) (p : Nat) (v : Word) : State :=
  let s := s.onPair p fun x =>
    { x with acctBase := addrField v 6, acctSize := bitsOf v.toNat 2 4, acctEn := v.getLsbD 0 }
  if v.getLsbD 1 then s.then (.acctFlush p) else s

def Flash.regWrite (f : Flash) (o : Nat) (v : Word) : Flash :=
  match o with
  | 0x80 => { f with rdthr := max 1 (v.toNat % 2 ^ 32) }
  | 0x88 =>
    -- 0 turns patrol reads off, those of a patrol in progress too (R304)
    let p := v.toNat % 65536
    { f with patrol := p, job := if p = 0 then f.job.filter fun j => j.kind != 3 else f.job }
  | 0x98 => { f with wldelta := v.toNat % 65536 }
  | _ => f

/-- OWNER and EN of a handle that is IDLE (R311). -/
def Handle.regWrite (h : Handle) (v : Word) : Handle :=
  if h.st = 0 then { h with owner := bitsOf v.toNat 28 4, en := v.getLsbD 27 } else h

def Part.sqWrite (q : Part) (o : Nat) (v : Word) : Part :=
  match o with
  | 0x00 => { q with sqbase := addrField v 6 }
  | 0x08 => { q with sqLsize := clampLsize (v.toNat % 16), sqEn := v.getLsbD 7 }
  | _ => q

/-- PFACES is ignored while the partition runs, and when it names a face of another partition (R404). -/
def State.pfacesWrite (s : State) (p : Nat) (v : Word) : State :=
  let taken := (List.range 32).any fun f => v.getLsbD f && (List.range 16).any fun q => q != p && s.owns q f
  if (s.part p).run || taken then s else s.onPart p fun q => { q with pfaces := v.truncate 32 }

def State.ctlWrite (s : State) (p o : Nat) (v : Word) : State :=
  match o with
  | 0x000 => s.pfacesWrite p v
  | 0x010 => s.onPart p fun q => { q with fquota := v.toNat % 2 ^ 20 }
  | 0x028 => s.onPart p fun q => { q with wdlimit := v.toNat % 2 ^ 32 }
  | 0x030 => s.onPart p fun q => { q with stoppc := v &&& 0xFFFFFFFFFFFFFFE0 }
  | 0x038 => s.onPart p fun q => { q with stopctl := v &&& 0xC00007FFFFFFFFFF }
  | 0x048 => s.onPart p fun q => { q with compactoff := v.getLsbD 0 }
  | 0x050 => s.onPart p fun q => { q with spill := v.getLsbD 0 }
  | 0x058 => s.onPart p fun q => { q with fshare := min 64 (v.toNat % 128) }
  | 0x060 => s.onPart p fun q => { q with savebase := addrField v 6 }
  | 0x068 => s.onPart p fun q => { q with msgbase := addrField v 6 }
  | 0x070 => s.onPart p fun q =>
    { q with msgLsize := clampLsize (v.toNat % 16), msgEn := v.getLsbD 7, msgFlag := bitsOf v.toNat 8 4
             msgFlagEn := v.getLsbD 12 }
  | _ => s

/-- PLIMIT is clamped; a DSTAT write of 1 clears DVALID (R445). -/
def State.platWrite (s : State) (o : Nat) (v : Word) : State :=
  if o = 0x18 then s.onPlat fun y => { y with plimit := max 1200 (min 3600 (v.toNat % 65536)) }
  else if 0x1000 ≤ o ∧ o < 0x3000 ∧ o % 0x100 = 0 then
    if v.getLsbD 0 then s.onFace ((o - 0x1000) / 0x100) fun f => { f with dvalid := false } else s
  else s

/-- A write to a register without an event of its own stores its fields (R7, R8). -/
def State.regStore (s : State) (r : Reg) (p : Nat) (v : Word) : State :=
  match r with
  | .ret d n o =>
    if 0x10 < o then s
    else
    let s := (s.onDom d fun x => { x with ret := Tbl.put x.ret n ((Tbl.look x.ret n {}).write o v) }).renewRet d
    { s with slices := s.slices.map fun (i, x) => (i, if i / 192 = d then { x with retCnt := Tbl.del x.retCnt n } else x) }
  | .cal f o => s.calWrite f o v
  | .pair n 0x20 => s.acctWrite n v
  | .dom d o => s.domWrite d o p v
  | .flash n o => s.onStack n fun f => f.regWrite o v
  | .handle h 0 => s.onHandle h fun x => x.regWrite v
  | .sq q o => s.onPart q fun x => x.sqWrite o v
  | .disp d 0 => if v.toNat % 2 ^ 32 = 0 then s else s.onDisp d fun x => { x with lseed := v.truncate 32 }
  | .peer q n => s.onPart q fun x => { x with peers := Tbl.put x.peers n (v &&& 0x8000FFFFFFFFFFFF) }
  | .ctl q o => s.ctlWrite q o v
  | .plat o => s.platWrite o v
  | _ => s

end Sys2Proof.Machine
end

