-- ==== Sys2Proof/Machine/LoadStore.lean ====
section
/-! DEFINITION. Loads and stores of slot MEM, timed loads, and the events that bring their results and fill the
instruction cache (R48, R113, R174 to R177, R191 to R197, R216, R217, R289, R339, R449, R450). -/

namespace Sys2Proof.Machine

/-! ## Tile accesses -/

/-- The tile access that a word asks for, with the NFR.XC and PQ that its bundle sees (R192). -/
def State.tileReq (s : State) (a b : BitVec 5) (f : BitVec 4) (coats : Bool) : TileReq :=
  { base := s.cx.sreg a, stride := s.cx.sreg b, fmt := f.toNat, nfr := s.cx.nfrXc.zeroExtend 64, pq := s.cx.pq
    pc := s.iss.pc, coats := coats }

/-- The window that the base finds. -/
def State.baseWindow (s : State) (base : Word) : Option Window := findWindow s.cx.windows base.toNat

/-- A core's request through a window, by its policy (R179, R284). -/
def State.winReq (s : State) (w : Option Window) : Req := s.coreReq s.cs ((w.map Window.alloc).getD true)

/-- Everything that a tile access needs to know at issue. -/
structure TileAcc where
  q     : TileReq
  win   : Option Window
  spans : List Span
  ports : List PortUse
  deriving DecidableEq, Repr

def State.tileAcc (s : State) (a b : BitVec 5) (f : BitVec 4) (coats : Bool) : TileAcc :=
  let q := s.tileReq a b f coats
  let w := s.baseWindow q.base
  let sp := s.tileSpans s.iss.core (s.winReq w) w q
  { q := q, win := w, spans := sp, ports := (w.map fun w => s.portUses s.iss.core w sp).getD [] }

/-- The kinds that a vector load, and a vector store, accept (R192). -/
def loadKinds : List Nat := [0, 1, 2, 3]
def storeKinds : List Nat := [0, 1, 3]

/-- The causes of a tile access, in the order of R43. -/
def State.tileCauses (s : State) (t : TileAcc) (use : Use) (kinds : List Nat) : List Cause :=
  (if t.q.badPq then [kILLOP] else []) ++ s.portCauses t.ports ++
  ((t.win.map fun w => s.stagingCauses w t.spans).getD []) ++ t.q.alignCauses t.spans ++
  accessCauses s.cx.windows s.ico.staging t.q.base.toNat t.spans use kinds

/-- The latency of a load through a window of fixed latency (R192). -/
def TileAcc.fixed (t : TileAcc) : Option Nat :=
  match t.win.map Window.kind with
  | some 1 => some (10 + portOcc t.ports)
  | some 2 => some (14 + portOcc t.ports)
  | _ => none

/-- VAs of the blocks that a tile access touches, in order. -/
def TileAcc.vas (t : TileAcc) : List Nat := (t.spans.flatMap Span.blocks).map Span.va

def latOf (l : Option Nat) : Nat := l.getD 1

/-- What a tile load asks of the registers. -/
def loadUses (t : TileAcc) (rs : List (BitVec 5)) (wv : List (BitVec 6)) : Uses :=
  { rs := rs, wv := wv, rr := if t.q.fmt = 0xC then [7] else [], lat := latOf t.fixed, var := t.fixed.isNone }

/-- A tile load commits: through SCRATCH and WBANK with a fixed latency, elsewhere pending (R193, R195). -/
def State.doLoad (s : State) (t : TileAcc) (d : BitVec 6) : State :=
  match t.win with
  | none => s
  | some w =>
    let q := s.winReq t.win
    let port := s.portOf s.iss.core q w t.vas
    let lat := s.accessLatency s.iss.core w t.vas
    let (l, s) := s.loadTile s.iss.core q w t.q
    let s := s.takePorts t.ports
    match t.fixed, l with
    | some n, .tile v z => (s.resultV n d (fullTile v)).latePoison s.cs (s.cycle + n) z
    | _, _ =>
      s.pendLoad s.cs lat port
        (({ id := 0, slot := 4, dest := .tile (s.cx.phys d.toNat), reissue := true
            coats := t.q.coats, va := t.q.base, stride := t.q.stride, fmt := t.q.fmt, nfr := t.q.nfr, pq := t.q.pq
            pc := t.q.pc } : Pending).take l)

/-- A tile load (R193, R195). -/
def tileLoad (i : Instr) (p : BitVec 4) (d : BitVec 6) (a : BitVec 5) (f : BitVec 4) (b : BitVec 5) (coats : Bool)
    (s : State) : Host.Outcome State Fault Refusal :=
  let t := s.tileAcc a b f coats
  slotOp i (some p) (loadUses t [a, b] [d]) false (waitIf false fun s => s.portWait t.ports)
    (fun s => s.tileCauses t .read loadKinds) (fun s => s.doLoad t d) s

/-- The block writes of a store are made; a memory-side fault is reported late (R194, R289). -/
def State.doStore (s : State) (t : TileAcc) (ws : List VWrite) : State :=
  match t.win with
  | none => s
  | some w =>
    let lat := s.accessLatency s.iss.core w t.vas
    let (r, s) := s.writeVas s.iss.core (s.winReq t.win) w ws
    let s := s.takePorts t.ports
    match r with
    | none => s
    | some (code, va) => s.lateFault s.cs (s.cycle + lat) code 4 (BitVec.ofNat 64 va)

/-- A tile store (R194, R196); the source is read at issue. -/
def tileStore (i : Instr) (p : BitVec 4) (d : BitVec 6) (a : BitVec 5) (f : BitVec 4) (b : BitVec 5)
    (writes : TileReq → List Span → Tile → List VWrite) (s : State) : Host.Outcome State Fault Refusal :=
  let t := s.tileAcc a b f false
  slotOp i (some p) { rs := [a, b], rv := [d], rr := if t.q.fmt = 0xC then [7] else [] } false
    (waitIf false fun s => s.portWait t.ports) (fun s => s.tileCauses t .write storeKinds)
    (fun s => s.doStore t (writes t.q t.spans (s.vreg d))) s

def execVld (p : BitVec 4) (d : BitVec 6) (a : BitVec 5) (f : BitVec 4) (b : BitVec 5) (s : State) :
    Host.Outcome State Fault Refusal := tileLoad (.vld p d a f b) p d a f b false s

def execCtld (p : BitVec 4) (d : BitVec 6) (a : BitVec 5) (f : BitVec 4) (b : BitVec 5) (s : State) :
    Host.Outcome State Fault Refusal := tileLoad (.ctld p d a f b) p d a f b true s

def execVst (p : BitVec 4) (d : BitVec 6) (a : BitVec 5) (f : BitVec 4) (b : BitVec 5) (s : State) :
    Host.Outcome State Fault Refusal := tileStore (.vst p d a f b) p d a f b TileReq.storeWrites s

def execCtst (p : BitVec 4) (d : BitVec 6) (a : BitVec 5) (f : BitVec 4) (b : BitVec 5) (s : State) :
    Host.Outcome State Fault Refusal := tileStore (.ctst p d a f b) p d a f b TileReq.coatWrites s

/-! ## Timed loads (R174 to R177, R216, R217) -/

def State.landing (s : State) (core l : Nat) : Landing := Tbl.look (s.core core).landing l {}
def State.setLanding (s : State) (core l : Nat) (x : Landing) : State :=
  s.onCore core fun k => { k with landing := Tbl.put k.landing l x }

/-- ACCESS for a landing slot in the wrong state (R176). -/
def kSlot (l : BitVec 5) : Cause := kACCESS l.toNat

/-- A performed request enters its landing slot (R216). -/
def State.fillLanding (s : State) (core l lat : Nat) (port : Option Nat) (x : Landing) (r : Loaded) : State :=
  let x := match r with
    | .tile v z => { x with lanes := fullTile v, poison := z }
    | .word _ _ => x
    | .fail code va => { x with fault := some (code, BitVec.ofNat 64 va) }
  match port with
  | none =>
    ((s.setLanding core l { x with due := some (s.cycle + lat) }).schedule (s.cycle + lat) (srcCore core)
      (.vldtLanded core l)).bump
  | some d => (s.setLanding core l { x with least := s.cycle + lat }).onDom d fun y => { y with fwdQ := y.fwdQ ++ [.landing core l] }

/-- A timed load commits (R216). -/
def State.doVldt (s : State) (t : TileAcc) (l : BitVec 5) : State :=
  match t.win with
  | none => s
  | some w =>
    let q := s.winReq t.win
    let port := s.portOf s.iss.core q w t.vas
    let lat := (t.fixed).getD (s.accessLatency s.iss.core w t.vas)
    let (r, s) := s.loadTile s.iss.core q w t.q
    let s := (s.takePorts t.ports).onCx fun x => { x with landpend := x.landpend ||| BitVec.ofNat 32 (2 ^ l.toNat) }
    s.fillLanding s.iss.core l.toNat lat port
      { st := .waiting, owner := s.iss.ctx, va := t.q.base, stride := t.q.stride, fmt := t.q.fmt, nfr := t.q.nfr
        pq := t.q.pq, issued := s.cycle, pc := t.q.pc } r

def execVldt (p : BitVec 4) (l : BitVec 5) (a : BitVec 5) (f : BitVec 4) (b : BitVec 5) (s : State) :
    Host.Outcome State Fault Refusal :=
  let t := s.tileAcc a b f false
  slotOp (.vldt p l a f b) (some p) { rs := [a, b], rr := if t.q.fmt = 0xC then [7] else [] } false
    (waitIf false fun s => s.portWait t.ports)
    (fun s => stagingLast (s.tileCauses t .read loadKinds ++
      (if (s.landing s.iss.core l.toNat).st = .empty then [] else [kSlot l])))
    (fun s => s.doVldt t l) s

/-- A landing slot becomes EMPTY, and its bit of the owner's LANDPEND 0 (R174). -/
def State.emptyLanding (s : State) (core l : Nat) : State :=
  (s.onCtx (4 * core + (s.landing core l).owner) fun x =>
    { x with landpend := x.landpend &&& ~~~(BitVec.ofNat 32 (2 ^ l)) }).onCore core fun k =>
      { k with landing := Tbl.del k.landing l }

/-- The pending result of a VLAND whose slot still waits: the data go directly to vd (R217). -/
def State.claimLanding (s : State) (l d : Nat) (x : Landing) : State :=
  let p : Pending :=
    { id := s.fresh, slot := 4, dest := .tile (s.cx.phys d), reissue := true, va := x.va
      stride := x.stride, fmt := x.fmt, nfr := x.nfr, pq := x.pq, pc := x.pc, tile := x.lanes, poison := x.poison
      fault := x.fault, landing := some l, flash := x.due.isNone, issued := s.cycle
      least := x.least + 2 }
  match x.due with
  | some t => s.pend s.cs (t + 2) p
  | none =>
    { (s.onCx fun y => { y with pending := y.pending ++ [p] }).bump with
      doms := s.doms.map fun (n, y) =>
        (n, { y with fwdQ := y.fwdQ.map fun f => if f = .landing s.iss.core l then .load s.cs s.fresh else f }) }

/-- VLAND commits: the slot becomes EMPTY at issue (R217). -/
def State.doVland (s : State) (d : BitVec 6) (l : BitVec 5) : State :=
  let x := s.landing s.iss.core l.toNat
  let s := s.emptyLanding s.iss.core l.toNat
  if x.st = .landed then (s.resultV 2 d x.lanes).latePoison s.cs (s.cycle + 2) x.poison
  else s.claimLanding l.toNat d.toNat x

def execVland (p : BitVec 4) (d : BitVec 6) (l : BitVec 5) (s : State) : Host.Outcome State Fault Refusal :=
  let x := s.landing s.iss.core l.toNat
  slotOp (.vland p d l) (some p) { wv := [d], lat := 2, var := x.st != .landed } false noWait
    (fun s => if x.st = .empty ∨ x.owner ≠ s.iss.ctx then [kSlot l] else []) (fun s => s.doVland d l) s

/-- The last row of a timed load has arrived: the slot is LANDED; a memory-side fault frees it and traps its owner
(R216, R289). -/
def execVldtLanded (core slot : Nat) (s : State) : Host.Outcome State Fault Refusal :=
  let x := s.landing core slot
  if x.st = .waiting ∧ x.due.any (fun t => t ≤ s.cycle) then
    match x.fault with
    | none => .next (s.setLanding core slot { x with st := .landed })
    | some (code, va) =>
      .next ((s.emptyLanding core slot).owe (4 * core + x.owner) { code := code, addr := va, slot := 4, issued := s.cycle })
  else .next s

/-! ## Scalar loads and stores (R192, R197, R339, R449, R450) -/

/-- What a scalar access needs to know at issue. -/
structure WordAcc where
  va    : Nat
  width : Nat
  win   : Option Window
  ports : List PortUse
  deriving DecidableEq, Repr

def WordAcc.span (t : WordAcc) : Span := { va := t.va, len := 2 ^ t.width }

def State.wordAcc (s : State) (va width : Nat) : WordAcc :=
  let w := findWindow s.cx.windows va
  { va := va, width := width, win := w
    ports := (w.map fun w => s.portUses s.iss.core w [{ va := va, len := 2 ^ width }]).getD [] }

def WordAcc.kind (t : WordAcc) : Nat := (t.win.map Window.kind).getD 0

/-- The configuration register that the access names, if it goes through a CONFIG window. -/
def WordAcc.cfgIa (t : WordAcc) : Option Nat :=
  t.win.bind fun w => if w.kind = 5 ∧ iaRegion (w.toIa t.va) = 0xF then some (w.toIa t.va) else none

/-- The block refuses the access (R449): outside every block, or this context is not admitted. -/
def State.cfgRefused (s : State) (ia n : Nat) (write : Bool) : Bool :=
  match regOf ia with
  | none => true
  | some r =>
    if write then s.regWriteCheck s.cx.priv s.ipart r (highHalf ia n) == .refuse else !s.regReadable s.cx.priv s.ipart r

/-- R7 forbids the write of `n` bytes at this privilege (R449, R450). -/
def State.cfgPriv (s : State) (ia n : Nat) : Bool :=
  match regOf ia with
  | none => false
  | some r => s.regWriteCheck s.cx.priv s.ipart r (highHalf ia n) == .priv

/-- The causes of a scalar access (R43, R192, R197, R449). -/
def State.wordCausesAt (s : State) (t : WordAcc) (use : Use) (kinds : List Nat) : List Cause :=
  let write := use == .write
  (if write && t.cfgIa.any (s.cfgPriv · (2 ^ t.width)) then [kPRIV] else []) ++ s.portCauses t.ports ++
  ((t.win.map fun w => s.stagingCauses w [t.span]).getD []) ++
  (if t.va % 2 ^ t.width = 0 then [] else [kALIGN t.va]) ++
  accessCauses s.cx.windows s.ico.staging t.va [t.span] use kinds ++
  (if t.kind = 5 ∧ t.width < 2 then [kACCESS t.va] else [])

def scalarLoadKinds : List Nat := [0, 1, 2, 3, 5]
def scalarStoreKinds : List Nat := [0, 1, 3, 5]

/-- A scalar load commits; `always` makes its latency variable even through SCRATCH (SLDA, R48). -/
def State.doSld (s : State) (t : WordAcc) (d : BitVec 5) (signed primary always : Bool) : State :=
  match t.win with
  | none => s
  | some w =>
    let p : Pending :=
      { id := 0, slot := 4, dest := .scalar d.toNat, reissue := true, va := BitVec.ofNat 64 t.va, width := t.width
        signed := signed, pc := s.iss.pc }
    let lat := s.accessLatency s.iss.core w [t.va]
    match t.cfgIa with
    | some ia =>
      if s.cfgRefused ia (2 ^ t.width) false then
        s.pend s.cs (s.cycle + lat) { p with fault := some (codeACCESS, BitVec.ofNat 64 t.va) }
      else
        let v := s.cfgLoad ia (2 ^ t.width)
        s.pend s.cs (s.cycle + lat)
          { p with value := if signed then BitVec.ofInt 64 (sext (8 * 2 ^ t.width) v.toNat) else v }
    | none =>
      let q := { s.winReq t.win with primary := primary }
      let port := s.portOf s.iss.core q w [t.va]
      let (l, s) := s.loadScalar s.iss.core q w t.va t.width signed
      let s := s.takePorts t.ports
      match w.kind == 1 && !always, l with
      | true, .word v z => (s.resultS 8 d v).latePoison s.cs (s.cycle + 8) z
      | _, _ => s.pendLoad s.cs lat port (p.take l)

/-- A scalar load from `va`. -/
def scalarLoad (i : Instr) (p : BitVec 4) (d a : BitVec 5) (va width : Nat) (signed primary always : Bool) (s : State) :
    Host.Outcome State Fault Refusal :=
  let t := s.wordAcc va width
  let fixed := t.kind == 1 && !always
  slotOp i (some p) { rs := [a], ws := [d], lat := if fixed then 8 else 1, var := !fixed } false
    (waitIf false fun s => s.portWait t.ports) (fun s => s.wordCausesAt t .read scalarLoadKinds)
    (fun s => s.doSld t d signed primary always) s

/-- A scalar store commits; the block keeps its coat (R197). -/
def State.doSst (s : State) (t : WordAcc) (v : Word) : State :=
  match t.win with
  | none => s
  | some w =>
    let lat := s.accessLatency s.iss.core w [t.va]
    match t.cfgIa with
    | some ia =>
      if s.cfgRefused ia (2 ^ t.width) true then
        s.lateFault s.cs (s.cycle + lat) codeACCESS 4 (BitVec.ofNat 64 t.va)
      else s.cfgStore s.cx.priv s.ipart ia (2 ^ t.width) v
    | none =>
      let (r, s) := s.writeVas s.iss.core (s.winReq t.win) w
        [{ va := t.va, w := BWrite.bytes (t.va % 64) (2 ^ t.width) v.toNat }]
      let s := s.takePorts t.ports
      match r with
      | none => s
      | some (code, va) => s.lateFault s.cs (s.cycle + lat) code 4 (BitVec.ofNat 64 va)

/-- A scalar store of `sd` to `va`. -/
def scalarStore (i : Instr) (p : BitVec 4) (d a : BitVec 5) (va width : Nat) (s : State) :
    Host.Outcome State Fault Refusal :=
  let t := s.wordAcc va width
  slotOp i (some p) { rs := [d, a] } false (waitIf false fun s => s.portWait t.ports)
    (fun s => s.wordCausesAt t .write scalarStoreKinds) (fun s => s.doSst t (s.cx.sreg d)) s

/-- Address of M-S: sa + sext(off) × size (R197). -/
def State.offsetVa (s : State) (a : BitVec 5) (w : BitVec 2) (o : BitVec 7) : Nat :=
  wrap64 ((s.cx.sreg a).toNat + s.imm o * 2 ^ w.toNat)

def execSld (p : BitVec 4) (d a : BitVec 5) (w : BitVec 2) (x : BitVec 1) (o : BitVec 7) (s : State) :
    Host.Outcome State Fault Refusal :=
  scalarLoad (.sld p d a w x o) p d a (s.offsetVa a w o) w.toNat (x == 1) false false s

def execSst (p : BitVec 4) (d a : BitVec 5) (w : BitVec 2) (o : BitVec 7) (s : State) :
    Host.Outcome State Fault Refusal :=
  scalarStore (.sst p d a w o) p d a (s.offsetVa a w o) w.toNat s

/-- Scope DOMAIN or wider asks the primary of a replicated page (R339). -/
def execSlda (p : BitVec 4) (d a : BitVec 5) (w : BitVec 2) (sc : BitVec 3) (s : State) :
    Host.Outcome State Fault Refusal :=
  scalarLoad (.slda p d a w sc) p d a (s.cx.sreg a).toNat w.toNat false (4 ≤ sc.toNat) true s

def execSstr (p : BitVec 4) (d a : BitVec 5) (w : BitVec 2) (sc : BitVec 3) (s : State) :
    Host.Outcome State Fault Refusal :=
  scalarStore (.sstr p d a w sc) p d a (s.cx.sreg a).toNat w.toNat s

/-! ## Results and fills -/

/-- A result that returns after its context stopped is written into the save area (R414): an arrival at the arrival
record, any other into its dump entry, whose PEND clears. -/
def State.saveResult (s : State) (c : Nat) (p : Pending) (ia : Nat) : State :=
  let q := engineReq (domOf (coreOf c)) (s.partOf (coreOf c))
  if p.dest = .arrival then
    if p.fault.isSome then s
    else (s.writeBytes q ia (bytesOfWords [p.barrier, BitVec.ofNat 64 (p.value.toNat % 2 ^ 32 + 2 ^ 32)])).2
  else
    match s.readBytes q (ia - 8) 8 with
    | (.ok bs, s) =>
      -- a failed access leaves its destination as it was: the entry takes the register's saved value (R289)
      let v := if p.fault.isNone then p.value else p.barrier
      (s.writeBytes q (ia - 8) (bytesOfWords [BitVec.ofNat 64 (setBits (leNat bs) 42 1 0), v])).2
    | (.error _, s) => s

/-- Lanes of a tile that bundles issued after `issued` have written in this cycle stay theirs (R144): the tile with them,
and the results written in this cycle, whose old value is now the tile's. -/
def Ctx.laterLanes (x : Ctx) (q issued : Nat) (t : Tile) : Tile × List (InFlight × List Write) :=
  let later (i : InFlight) : Option (Nat × Lane) := match i.w with
    | .lane p j v => if p = q ∧ issued < i.issued then some (j, v) else none
    | _ => none
  (x.undo.reverse.foldl (fun m e => match later e.1 with
      | some (j, v) => setLane m j v
      | none => m) t,
   x.undo.map fun e => match later e.1 with
      | some (j, _) => (e.1, [.lane q j (lane t j)])
      | none => e)

/-- The register that a result is for takes it; an unwritten one is left by a fault (R289). -/
def State.deliver (s : State) (c : Nat) (p : Pending) : State :=
  if p.fault.isSome then s
  else match p.dest with
    | .scalar n => s.onCtx c fun x => x.setS n p.value
    | .tile q =>
      let l := (s.ctx c).laterLanes q p.issued (fullTile p.tile)
      (s.onCore (coreOf c) fun k => { k with vreg := Tbl.put k.vreg q l.1 }).onCtx c fun x => { x with undo := l.2 }
    | .arrival => s.onCtx c fun x => { x with arrival := some (p.barrier, p.value.toNat) }
    | .nothing => s

/-- The trap that a result brings: a memory-side fault, or POISON (R191, R289). -/
def Pending.late (p : Pending) : List LateTrap :=
  match p.fault, p.poison with
  | some (code, va), _ => [{ code := code, addr := va, slot := p.slot, issued := p.issued }]
  | none, some va => [{ code := 0x0B, addr := va, slot := p.slot, issued := p.issued }]
  | none, none => []

/-- A result is written to its register, with the trap it brings; a context that has halted takes none. -/
def State.finishLoad (s : State) (c : Nat) (p : Pending) : State :=
  let s := s.onCtx c fun x => { x with pending := x.pending.filter fun q => q.id != p.id }
  p.late.foldl (fun s t => s.owe c t) (s.deliver c p)

/-- A variable-latency result returns (R39). One that a frozen pair waits for is held until its clock runs (R214). -/
def execLoadResult (c id : Nat) (s : State) : Host.Outcome State Fault Refusal :=
  match (s.ctx c).pending.find? fun p => p.id == id && !p.flash with
  | none => .next s
  | some p =>
    match p.saveIa with
    | some ia =>
      -- an area that is still to be written takes the result afterwards (R412)
      if (s.ctx c).run = .stopping then .next (s.schedule (s.cycle + 1) (srcCore (coreOf c)) (.loadResult c id))
      else .next ((s.onCtx c fun x => { x with pending := x.pending.filter fun q => q.id != id }).saveResult c p ia)
    | none =>
      if s.frozen (coreOf c) then
        .next (s.onCtx c fun x => { x with pending := x.pending.map fun q => if q.id = id then { q with arrived := true } else q })
      else .next (s.finishLoad c p)

/-- The results that have returned during a freeze are written (R214). -/
def State.deliverArrived (s : State) (p : Nat) : State :=
  (List.range 8).foldl (fun s j =>
    ((s.ctx (8 * p + j)).pending.filter Pending.arrived).foldl (fun s z => s.finishLoad (8 * p + j) z) s) s

/-- An instruction-cache line is filled, in place of another when the cache holds 2,048 lines (R113). -/
def Core.fillLine (k : Core) (line fresh : Nat) (bs : List Byte) : Core :=
  let l := if k.icache.length < 2048 then k.icache
           else match k.icache[Config.icacheVictim fresh % 2048]? with
             | some v => Tbl.del k.icache v.1
             | none => k.icache
  { k with icache := Tbl.put l line bs }

/-- The contexts of a core that wait for a line. -/
def State.missing (s : State) (core line : Nat) : List Nat :=
  ((List.range 4).map fun k => 4 * core + k).filter fun c => (s.ctx c).fetchMiss == some line

/-- The bundle at the context's PC lies in a line, through the windows that it has now. -/
def State.fetchesLine (s : State) (c line : Nat) : Bool :=
  match s.fetchIa c with
  | .ok t => t.ia / 64 == line
  | .error _ => false

/-- The policy of the window through which a context fetches (R179). -/
def State.fetchAlloc (s : State) (c : Nat) : Bool :=
  match s.fetchIa c with
  | .ok t => t.win.alloc
  | .error _ => true

/-- The miss of a free context completes; a memory-side fault is its bundle's, unless a change of a window has moved the bundle to
another line meanwhile (R113, R115, R289). The fault's TSLOT is 0 (DESIGN CHOICE, log 130). -/
def execIcacheFill (core line : Nat) (s : State) : Host.Outcome State Fault Refusal :=
  match s.missing core line with
  | [] => .next s
  | c :: cs =>
    let wait (s : State) (f : Ctx → Ctx) : State := (c :: cs).foldl (fun s k => s.onCtx k fun x => f { x with fetchMiss := none }) s
    match s.iaRead (s.coreReq c (s.fetchAlloc c)) (line * 64) with
    | (.ok b, s) => .next (((wait s id).onCore core fun k => k.fillLine line s.fresh (leBytes 64 b.data)).bump)
    | (.fail code, s) => .next (((c :: cs).filter fun k => s.fetchesLine k line).foldl (fun s k =>
        s.owe k { code := code, addr := (s.ctx k).pc, slot := 0, issued := s.cycle }) (wait s id))

end Sys2Proof.Machine
end

