-- ==== Sys2Proof/Machine/Scalar.lean ====
section
/-! DEFINITION. The instructions of slots SA and SB but for the branches: integer, predicate, special-register and
scalar floating-point operations (R44, R45, R123 to R133). -/

namespace Sys2Proof.Machine

/-! ## Shapes -/

/-- sd := f(sa, sb) after `lat` cycles. -/
def scalar2 (i : Instr) (p : BitVec 4) (d a b : BitVec 5) (lat : Nat) (f : Word → Word → Word) (s : State) :
    Host.Outcome State Fault Refusal :=
  slotOp i (some p) { rs := [a, b], ws := [d], lat := lat } false noWait noCause
    (fun s => s.resultS lat d (f (s.cx.sreg a) (s.cx.sreg b))) s

/-- sd := f(sa) after `lat` cycles. -/
def scalar1 (i : Instr) (p : BitVec 4) (d a : BitVec 5) (lat : Nat) (f : Word → Word) (s : State) :
    Host.Outcome State Fault Refusal :=
  slotOp i (some p) { rs := [a], ws := [d], lat := lat } false noWait noCause
    (fun s => s.resultS lat d (f (s.cx.sreg a))) s

/-- sd := f(sa, imm) in one cycle; the word has no pred field (R123). -/
def scalarI (i : Instr) (d a : BitVec 5) (imm : BitVec 14) (f : Word → Word → Word) (s : State) :
    Host.Outcome State Fault Refusal :=
  slotOp i none { rs := [a], ws := [d] } false noWait noCause
    (fun s => s.resultS 1 d (f (s.cx.sreg a) (s.immW imm))) s

/-- sd := f(sa, n) for a shift count n (R126). -/
def scalarN (i : Instr) (d a : BitVec 5) (n : BitVec 14) (f : Word → Nat → Word) (s : State) :
    Host.Outcome State Fault Refusal :=
  slotOp i none { rs := [a], ws := [d] } false noWait noCause
    (fun s => s.resultS 1 d (f (s.cx.sreg a) n.toNat)) s

/-- The divider of the slot: its first free cycle (R40). -/
def State.divFree (s : State) : Nat := if s.iss.slot = 0 then s.ico.saDiv else s.ico.sbDiv

/-- The slot's divider is held for 14 cycles (R40, R127). -/
def State.holdDiv (s : State) : State :=
  s.onCore s.iss.core fun k =>
    if s.iss.slot = 0 then { k with saDiv := s.cycle + 14 } else { k with sbDiv := s.cycle + 14 }

/-- A division: sd := f(sa, sb) after 14 cycles, on the slot's divider. -/
def scalarDiv (i : Instr) (p : BitVec 4) (d a b : BitVec 5) (f : Word → Word → Word) (s : State) :
    Host.Outcome State Fault Refusal :=
  slotOp i (some p) { rs := [a, b], ws := [d], lat := 14 } false (waitEngine State.divFree 14) noCause
    (fun s => (s.resultS 14 d (f (s.cx.sreg a) (s.cx.sreg b))).holdDiv) s

/-- An F32 operation on bits [31:0] whose result clears [63:32] (R132). -/
def scalarF (i : Instr) (p : BitVec 4) (d a b : BitVec 5) (f : Lane → Lane → Lane → Lane) (s : State) :
    Host.Outcome State Fault Refusal :=
  slotOp i (some p) { rs := [a, b], ws := [d], lat := 4 } false noWait noCause
    (fun s => s.resultS 4 d
      ((f (originNaN s.iss.pc 0) ((s.cx.sreg a).truncate 32) ((s.cx.sreg b).truncate 32)).zeroExtend 64)) s

/-! ## Functions -/

/-- The lesser by i(). -/
def minS (a b : Word) : Word := if a.sle b then a else b
/-- The greater by i(). -/
def maxS (a b : Word) : Word := if a.sle b then b else a
/-- The lesser by u(). -/
def minU (a b : Word) : Word := if a.ule b then a else b
/-- The greater by u(). -/
def maxU (a b : Word) : Word := if a.ule b then b else a

/-- bits(i(a) × i(b), 127, 64). -/
def mulHigh (a b : Word) : Word := BitVec.ofInt 64 (a.toInt * b.toInt / 2 ^ 64)
/-- bits(u(a) × u(b), 127, 64). -/
def mulHighU (a b : Word) : Word := BitVec.ofNat 64 (a.toNat * b.toNat / 2 ^ 64)

/-- The count of leading zero bits; 64 for 0. -/
def leadZeros (a : Word) : Word := if a = 0 then 64 else BitVec.ofNat 64 (63 - a.toNat.log2)
/-- The count of set bits. -/
def setBitCount (a : Word) : Word :=
  BitVec.ofNat 64 ((List.range 64).filter fun i => a.getLsbD i).length

/-- The carry-less product of R125: the XOR of u(a) << i over the set bits i of b. -/
def carryless (a b : Word) : Nat :=
  (List.range 64).foldl (fun c i => if b.getLsbD i then c ^^^ (a.toNat * 2 ^ i) else c) 0

/-- DIV of R127. -/
def divS (a b : Word) : Word := if b = 0 then -1 else BitVec.ofInt 64 (a.toInt.tdiv b.toInt)
/-- DIVU of R127. -/
def divU (a b : Word) : Word := if b = 0 then -1 else BitVec.ofNat 64 (a.toNat / b.toNat)
/-- REM of R127. -/
def remS (a b : Word) : Word :=
  if b = 0 then a else BitVec.ofInt 64 (a.toInt - b.toInt * a.toInt.tdiv b.toInt)
/-- REMU of R127. -/
def remU (a b : Word) : Word := if b = 0 then a else BitVec.ofNat 64 (a.toNat % b.toNat)

/-- The amount sb[5:0] of a shift (R126). -/
def shiftAmount (b : Word) : Nat := b.toNat % 64

/-- I64 of an F32 lane (R69, R133): rounded, then saturated; a NaN gives 0. -/
def cvtToI64 (rtz : Bool) (x : Lane) : Word := BitVec.ofInt 64 (f32ToInt rtz (-(2 ^ 63)) (2 ^ 63 - 1) x)

/-- The six kinds of FCVTS (R44, R133). -/
def cvtScalar (k : Nat) (a : Word) : Word :=
  let lo : Lane := a.truncate 32
  match k with
  | 0 => (rneInt a.toInt 0).zeroExtend 64
  | 1 => (rtzInt a.toInt).zeroExtend 64
  | 2 => cvtToI64 false lo
  | 3 => cvtToI64 true lo
  | 4 => BitVec.ofNat 64 (narrow fmtBF16 lo)
  | _ => (widen fmtBF16 (a.toNat % 65536)).zeroExtend 64

/-! ## NOP and PFX (R22, R27 to R30) -/

def execNop (s : State) : Host.Outcome State Fault Refusal :=
  slotOp .nop none {} false noWait noCause (fun s => s) s

/-- A PFX that meets a pending prefix traps; otherwise its payload is pending for the slot in the successor (R27, R28).
The commit removes a prefix that the slot consumed, so the new one is recorded after it. -/
def execPfx (p : BitVec 24) (s : State) : Host.Outcome State Fault Refusal :=
  match slotOp (.pfx p) none {} false noWait noCause (fun s => s) s with
  | .next t =>
    .next (if t.iss.verdict = .committed then
      t.onCx fun x => { x with prefixes := Tbl.put x.prefixes t.iss.slot p } else t)
  | o => o

/-! ## Integer ALU (R125, R126) -/

def execAdd (d a b : BitVec 5) (p : BitVec 4) (s : State) : Host.Outcome State Fault Refusal :=
  scalar2 (.add d a b p) p d a b 1 (fun x y => x + y) s
def execAddi (d a : BitVec 5) (i : BitVec 14) (s : State) : Host.Outcome State Fault Refusal :=
  scalarI (.addi d a i) d a i (fun x y => x + y) s
def execSub (d a b : BitVec 5) (p : BitVec 4) (s : State) : Host.Outcome State Fault Refusal :=
  scalar2 (.sub d a b p) p d a b 1 (fun x y => x - y) s
def execMul (d a b : BitVec 5) (p : BitVec 4) (s : State) : Host.Outcome State Fault Refusal :=
  scalar2 (.mul d a b p) p d a b 3 (fun x y => x * y) s
def execMulh (d a b : BitVec 5) (p : BitVec 4) (s : State) : Host.Outcome State Fault Refusal :=
  scalar2 (.mulh d a b p) p d a b 3 mulHigh s
def execMulhu (d a b : BitVec 5) (p : BitVec 4) (s : State) : Host.Outcome State Fault Refusal :=
  scalar2 (.mulhu d a b p) p d a b 3 mulHighU s
def execDiv (d a b : BitVec 5) (p : BitVec 4) (s : State) : Host.Outcome State Fault Refusal :=
  scalarDiv (.div d a b p) p d a b divS s
def execDivu (d a b : BitVec 5) (p : BitVec 4) (s : State) : Host.Outcome State Fault Refusal :=
  scalarDiv (.divu d a b p) p d a b divU s
def execRem (d a b : BitVec 5) (p : BitVec 4) (s : State) : Host.Outcome State Fault Refusal :=
  scalarDiv (.rem d a b p) p d a b remS s
def execRemu (d a b : BitVec 5) (p : BitVec 4) (s : State) : Host.Outcome State Fault Refusal :=
  scalarDiv (.remu d a b p) p d a b remU s
def execAnd (d a b : BitVec 5) (p : BitVec 4) (s : State) : Host.Outcome State Fault Refusal :=
  scalar2 (.and d a b p) p d a b 1 (fun x y => x &&& y) s
def execAndi (d a : BitVec 5) (i : BitVec 14) (s : State) : Host.Outcome State Fault Refusal :=
  scalarI (.andi d a i) d a i (fun x y => x &&& y) s
def execOr (d a b : BitVec 5) (p : BitVec 4) (s : State) : Host.Outcome State Fault Refusal :=
  scalar2 (.or d a b p) p d a b 1 (fun x y => x ||| y) s
def execOri (d a : BitVec 5) (i : BitVec 14) (s : State) : Host.Outcome State Fault Refusal :=
  scalarI (.ori d a i) d a i (fun x y => x ||| y) s
def execXor (d a b : BitVec 5) (p : BitVec 4) (s : State) : Host.Outcome State Fault Refusal :=
  scalar2 (.xor d a b p) p d a b 1 (fun x y => x ^^^ y) s
def execXori (d a : BitVec 5) (i : BitVec 14) (s : State) : Host.Outcome State Fault Refusal :=
  scalarI (.xori d a i) d a i (fun x y => x ^^^ y) s
def execShl (d a b : BitVec 5) (p : BitVec 4) (s : State) : Host.Outcome State Fault Refusal :=
  scalar2 (.shl d a b p) p d a b 1 (fun x y => x <<< shiftAmount y) s
def execShli (d a : BitVec 5) (n : BitVec 14) (s : State) : Host.Outcome State Fault Refusal :=
  scalarN (.shli d a n) d a n (fun x k => x <<< k) s
def execShr (d a b : BitVec 5) (p : BitVec 4) (s : State) : Host.Outcome State Fault Refusal :=
  scalar2 (.shr d a b p) p d a b 1 (fun x y => x >>> shiftAmount y) s
def execShri (d a : BitVec 5) (n : BitVec 14) (s : State) : Host.Outcome State Fault Refusal :=
  scalarN (.shri d a n) d a n (fun x k => x >>> k) s
def execSra (d a b : BitVec 5) (p : BitVec 4) (s : State) : Host.Outcome State Fault Refusal :=
  scalar2 (.sra d a b p) p d a b 1 (fun x y => x.sshiftRight (shiftAmount y)) s
def execSrai (d a : BitVec 5) (n : BitVec 14) (s : State) : Host.Outcome State Fault Refusal :=
  scalarN (.srai d a n) d a n (fun x k => x.sshiftRight k) s
def execMin (d a b : BitVec 5) (p : BitVec 4) (s : State) : Host.Outcome State Fault Refusal :=
  scalar2 (.min d a b p) p d a b 1 minS s
def execMax (d a b : BitVec 5) (p : BitVec 4) (s : State) : Host.Outcome State Fault Refusal :=
  scalar2 (.max d a b p) p d a b 1 maxS s
def execMinu (d a b : BitVec 5) (p : BitVec 4) (s : State) : Host.Outcome State Fault Refusal :=
  scalar2 (.minu d a b p) p d a b 1 minU s
def execMaxu (d a b : BitVec 5) (p : BitVec 4) (s : State) : Host.Outcome State Fault Refusal :=
  scalar2 (.maxu d a b p) p d a b 1 maxU s
def execClz (d a : BitVec 5) (p : BitVec 4) (s : State) : Host.Outcome State Fault Refusal :=
  scalar1 (.clz d a p) p d a 1 leadZeros s
def execPopc (d a : BitVec 5) (p : BitVec 4) (s : State) : Host.Outcome State Fault Refusal :=
  scalar1 (.popc d a p) p d a 1 setBitCount s
def execClmul (d a b : BitVec 5) (p : BitVec 4) (s : State) : Host.Outcome State Fault Refusal :=
  scalar2 (.clmul d a b p) p d a b 3 (fun x y => BitVec.ofNat 64 (carryless x y)) s
def execClmulh (d a b : BitVec 5) (p : BitVec 4) (s : State) : Host.Outcome State Fault Refusal :=
  scalar2 (.clmulh d a b p) p d a b 3 (fun x y => BitVec.ofNat 64 (carryless x y / 2 ^ 64)) s

/-! ## Selection and predicates (R128 to R130) -/

/-- SEL is never suppressed: its pred field chooses the operand (R26, R128). -/
def execSel (d a b : BitVec 5) (n : BitVec 4) (s : State) : Host.Outcome State Fault Refusal :=
  slotOp (.sel d a b n) none { rs := [a, b], ws := [d], rp := [n] } false noWait noCause
    (fun s => s.resultS 1 d (if s.cx.preg n then s.cx.sreg a else s.cx.sreg b)) s

def execCmp (q : BitVec 4) (a b : BitVec 5) (p : BitVec 4) (c : BitVec 5) (s : State) :
    Host.Outcome State Fault Refusal :=
  slotOp (.cmp q a b p c) (some p) { rs := [a, b], wp := [q] } false noWait noCause
    (fun s => s.resultP 1 q (condCode c.toNat (s.cx.sreg a) (s.cx.sreg b))) s

def execCmpi (q : BitVec 4) (c : BitVec 3) (a : BitVec 5) (i : BitVec 12) (s : State) :
    Host.Outcome State Fault Refusal :=
  slotOp (.cmpi q c a i) none { rs := [a], wp := [q] } false noWait noCause
    (fun s => s.resultP 1 q (condCode c.toNat (s.cx.sreg a) (s.immW i))) s

def execLi (d : BitVec 5) (i : BitVec 19) (s : State) : Host.Outcome State Fault Refusal :=
  slotOp (.li d i) none { ws := [d] } false noWait noCause (fun s => s.resultS 1 d (s.immW i)) s

def execPlog (q a b p : BitVec 4) (f : BitVec 5) (s : State) : Host.Outcome State Fault Refusal :=
  slotOp (.plog q a b p f) (some p) { rp := [a, b], wp := [q] } false noWait noCause
    (fun s => s.resultP 1 q (predLogic f.toNat (s.cx.preg a) (s.cx.preg b))) s

/-- p1 to p15. -/
def allPreds : List (BitVec 4) := (List.range 15).map fun i => BitVec.ofNat 4 (i + 1)

/-- The predicates as a mask, bit 0 always 1 (R130). -/
def Ctx.predMask (x : Ctx) : Word := (x.p ||| 1).zeroExtend 64

def execPget (d : BitVec 5) (p : BitVec 4) (s : State) : Host.Outcome State Fault Refusal :=
  slotOp (.pget d p) (some p) { ws := [d], rp := allPreds } false noWait noCause
    (fun s => s.resultS 1 d s.cx.predMask) s

def execPput (a : BitVec 5) (p : BitVec 4) (s : State) : Host.Outcome State Fault Refusal :=
  slotOp (.pput a p) (some p) { rs := [a], wp := allPreds } false noWait noCause
    (fun s => allPreds.foldl (fun t q => t.resultP 1 q ((s.cx.sreg a).getLsbD q.toNat)) s) s

/-! ## Special registers (R45, R115, R131) -/

/-- A write that the access code forbids: a window register at task privilege (R45, R115). -/
def srPriv (num : Nat) (x : Ctx) : Bool := 0x100 ≤ num && num ≤ 0x11F && x.priv == 0

def execMfsr (d : BitVec 5) (r : BitVec 12) (s : State) : Host.Outcome State Fault Refusal :=
  slotOp (.mfsr d r) none { ws := [d], rr := [r.toNat], lat := 2 } false noWait noCause
    (fun s => s.resultS 2 d (s.srRead s.cs r.toNat)) s

/-- A write of a read-only register is ignored (R115). -/
def execMtsr (a : BitVec 5) (r : BitVec 12) (s : State) : Host.Outcome State Fault Refusal :=
  slotOp (.mtsr a r) none { rs := [a], wr := if srReadOnly r.toNat then [] else [r.toNat], lat := 2 }
    (srPriv r.toNat s.cx) noWait noCause
    (fun s => if srReadOnly r.toNat then s else s.result 2 (.sreg r.toNat (s.cx.sreg a))) s

/-! ## Scalar floating point (R132, R133) -/

def execFadds (d a b : BitVec 5) (p : BitVec 4) (s : State) : Host.Outcome State Fault Refusal :=
  scalarF (.fadds d a b p) p d a b fadd s
def execFsubs (d a b : BitVec 5) (p : BitVec 4) (s : State) : Host.Outcome State Fault Refusal :=
  scalarF (.fsubs d a b p) p d a b fsub s
def execFmuls (d a b : BitVec 5) (p : BitVec 4) (s : State) : Host.Outcome State Fault Refusal :=
  scalarF (.fmuls d a b p) p d a b fmul s

/-- sa × sb + sd with one rounding; sd is the third operand in NaN order (R132). -/
def execFmas (d a b : BitVec 5) (p : BitVec 4) (s : State) : Host.Outcome State Fault Refusal :=
  slotOp (.fmas d a b p) (some p) { rs := [a, b, d], ws := [d], lat := 4 } false noWait noCause
    (fun s => s.resultS 4 d ((ffma (originNaN s.iss.pc 0) ((s.cx.sreg a).truncate 32) ((s.cx.sreg b).truncate 32)
      ((s.cx.sreg d).truncate 32)).zeroExtend 64)) s

def execFmins (d a b : BitVec 5) (p : BitVec 4) (s : State) : Host.Outcome State Fault Refusal :=
  scalarF (.fmins d a b p) p d a b (fun _ => fminOp) s
def execFmaxs (d a b : BitVec 5) (p : BitVec 4) (s : State) : Host.Outcome State Fault Refusal :=
  scalarF (.fmaxs d a b p) p d a b (fun _ => fmaxOp) s

def execFcmps (q : BitVec 4) (a b : BitVec 5) (p : BitVec 4) (c : BitVec 5) (s : State) :
    Host.Outcome State Fault Refusal :=
  slotOp (.fcmps q a b p c) (some p) { rs := [a, b], wp := [q], lat := 4 } false noWait noCause
    (fun s => s.resultP 4 q (fcmp c.toNat ((s.cx.sreg a).truncate 32) ((s.cx.sreg b).truncate 32))) s

def execFcvts (d a : BitVec 5) (p : BitVec 4) (k : BitVec 5) (s : State) : Host.Outcome State Fault Refusal :=
  scalar1 (.fcvts d a p k) p d a 3 (cvtScalar k.toNat) s

end Sys2Proof.Machine
end

