-- ==== Sys2Proof/Machine/Atomic.lean ====
section
/-! DEFINITION. Atomics, monitors, SNOOZE and MARK (R331 to R340). -/

namespace Sys2Proof.Machine

/-! ## Indivisible steps at the home slice (R334) -/

/-- The `n` bytes at an IA are read and, where `f` gives a value, written, in one step; for a replicated page at the
primary. The old value, or a memory-side fault. The step is one request: where it writes, the write is what is
counted. -/
def State.atomicAt (s : State) (q : Req) (ia n : Nat) (f : Nat → Option Nat) : Except Nat Nat × State :=
  match s.iaRead { q with primary := true } ia with
  | (.fail code, s) => (.error code, s)
  | (.ok b, t) =>
    let old := bitsOf b.data (8 * (ia % 64)) (8 * n)
    match f old with
    | none => (.ok old, t)
    | some v =>
      match s.iaWrite { q with primary := true } ia (BWrite.bytes (ia % 64) n v) with
      | (none, s) => (.ok old, s)
      | (some code, s) => (.error code, s)

/-- The causes of an access to a NORMAL window only (R331, R334). -/
def State.normalCauses (s : State) (va n : Nat) (use : Use) : List Cause :=
  (if va % n = 0 then [] else [kALIGN va]) ++
  accessCauses s.cx.windows s.ico.staging va [{ va := va, len := n }] use [0]

/-- An atomic commits: the old value is returned after the latency of its home slice (R334). -/
def State.doAtomic (s : State) (d : BitVec 5) (va n : Nat) (f : Nat → Option Nat) : State :=
  match findWindow s.cx.windows va with
  | none => s
  | some w =>
    let q := s.winReq (some w)
    let p : Pending := { id := 0, slot := 4, dest := .scalar d.toNat, reissue := false, va := BitVec.ofNat 64 va }
    let port := s.portOf s.iss.core q w [va]
    let lat := s.accessLatency s.iss.core w [va]
    match s.atomicAt q (s.effIa s.iss.core w va) n f with
    | (.ok old, s) => s.pendLoad s.cs lat port { p with value := BitVec.ofNat 64 old }
    | (.error code, s) => s.pendLoad s.cs lat port { p with fault := some (code, BitVec.ofNat 64 va) }

/-- An atomic on `n` bytes: new := f(old, sb) (R335, R337); `rd` adds sd to what is read. -/
def atomicOp (i : Instr) (p : BitVec 4) (d a b : BitVec 5) (n : Nat) (rd : Bool) (f : State → Nat → Option Nat)
    (s : State) : Host.Outcome State Fault Refusal :=
  let va := (s.cx.sreg a).toNat
  slotOp i (some p) { rs := [a, b] ++ (if rd then [d] else []), ws := [d], var := true } false noWait
    (fun s => s.normalCauses va n .both) (fun s => s.doAtomic d va n (f s)) s

/-- A 64-bit integer atomic (R335). -/
def amoInt (i : Instr) (p : BitVec 4) (d a b : BitVec 5) (f : Word → Word → Word) (s : State) :
    Host.Outcome State Fault Refusal :=
  atomicOp i p d a b 8 false (fun s old => some (f (BitVec.ofNat 64 old) (s.cx.sreg b)).toNat) s

/-- An F32 atomic (R337): the origin NaN records this PC and lane 0. -/
def amoFloat (i : Instr) (p : BitVec 4) (d a b : BitVec 5) (f : Lane → Lane → Lane → Lane) (s : State) :
    Host.Outcome State Fault Refusal :=
  atomicOp i p d a b 4 false (fun s old =>
    some (f (originNaN s.iss.pc 0) (BitVec.ofNat 32 old) ((s.cx.sreg b).truncate 32)).toNat) s

/-- The NaN rule of AMOFMIN and AMOFMAX (R337). -/
def amoPick (f : Lane → Lane → Lane) (old x : Lane) : Lane :=
  if isNan old then (if isNan x then quiet old else x) else if isNan x then old else f old x

def execAmoadd (p : BitVec 4) (d a b : BitVec 5) (sc : BitVec 3) (s : State) : Host.Outcome State Fault Refusal :=
  amoInt (.amoadd p d a b sc) p d a b (· + ·) s
def execAmoand (p : BitVec 4) (d a b : BitVec 5) (sc : BitVec 3) (s : State) : Host.Outcome State Fault Refusal :=
  amoInt (.amoand p d a b sc) p d a b (· &&& ·) s
def execAmoor (p : BitVec 4) (d a b : BitVec 5) (sc : BitVec 3) (s : State) : Host.Outcome State Fault Refusal :=
  amoInt (.amoor p d a b sc) p d a b (· ||| ·) s
def execAmoxor (p : BitVec 4) (d a b : BitVec 5) (sc : BitVec 3) (s : State) : Host.Outcome State Fault Refusal :=
  amoInt (.amoxor p d a b sc) p d a b (· ^^^ ·) s
def execAmomin (p : BitVec 4) (d a b : BitVec 5) (sc : BitVec 3) (s : State) : Host.Outcome State Fault Refusal :=
  amoInt (.amomin p d a b sc) p d a b minS s
def execAmomax (p : BitVec 4) (d a b : BitVec 5) (sc : BitVec 3) (s : State) : Host.Outcome State Fault Refusal :=
  amoInt (.amomax p d a b sc) p d a b maxS s
def execAmominu (p : BitVec 4) (d a b : BitVec 5) (sc : BitVec 3) (s : State) : Host.Outcome State Fault Refusal :=
  amoInt (.amominu p d a b sc) p d a b minU s
def execAmomaxu (p : BitVec 4) (d a b : BitVec 5) (sc : BitVec 3) (s : State) : Host.Outcome State Fault Refusal :=
  amoInt (.amomaxu p d a b sc) p d a b maxU s
def execAmoswap (p : BitVec 4) (d a b : BitVec 5) (sc : BitVec 3) (s : State) : Host.Outcome State Fault Refusal :=
  amoInt (.amoswap p d a b sc) p d a b (fun _ x => x) s
def execAmofadd (p : BitVec 4) (d a b : BitVec 5) (sc : BitVec 3) (s : State) : Host.Outcome State Fault Refusal :=
  amoFloat (.amofadd p d a b sc) p d a b fadd s
def execAmofmin (p : BitVec 4) (d a b : BitVec 5) (sc : BitVec 3) (s : State) : Host.Outcome State Fault Refusal :=
  amoFloat (.amofmin p d a b sc) p d a b (fun _ => amoPick fminOp) s
def execAmofmax (p : BitVec 4) (d a b : BitVec 5) (sc : BitVec 3) (s : State) : Host.Outcome State Fault Refusal :=
  amoFloat (.amofmax p d a b sc) p d a b (fun _ => amoPick fmaxOp) s

/-- Compare and swap: sb is written only where the old value equals sd (R336). -/
def execCas (p : BitVec 4) (d a b : BitVec 5) (sc : BitVec 3) (s : State) : Host.Outcome State Fault Refusal :=
  atomicOp (.cas p d a b sc) p d a b 8 true
    (fun s old => if old = (s.cx.sreg d).toNat then some (s.cx.sreg b).toNat else none) s

/-! ## Monitors (R331 to R333) -/

/-- The line on which a monitor of the block at `va` is armed: the one that the context's loads read (R331). -/
def State.watchKey (s : State) (w : Window) (va : Nat) : Nat :=
  let ia := w.toIa va / 64 * 64
  match (s.winReq (some w)).frameOf ia with
  | some f => versionKey (iaRegion ia) f ia
  | none => lineKey (s.homeDom (s.winReq (some w)) ia) ia

/-- The address of WATCH is any byte of the block. -/
def execWatch (p : BitVec 4) (a : BitVec 5) (s : State) : Host.Outcome State Fault Refusal :=
  let va := (s.cx.sreg a).toNat
  slotOp (.watch p a) (some p) { rs := [a] } false noWait (fun s => s.normalCauses va 1 .read)
    (fun s => match findWindow s.cx.windows va with
      | none => s
      | some w => s.onCx fun x => { x with monitor := .armed (s.watchKey w va) }) s

/-- The first cycle in which GTC is at least a limit. -/
def limitCycle (limit : Word) : Nat := cycleOfNs limit.toNat

/-- A SNOOZE commits: without a monitor, or with one that has triggered, or past its limit, it ends at once; otherwise
the context sleeps (R333). A limit ends the sleep after its cycle, in which a trigger still counts. -/
def State.doSnooze (s : State) (d a : BitVec 5) : State :=
  let limit := s.cx.sreg a
  let ended (v : Word) : State := (s.onCx fun x => { x with monitor := .disarmed }).resultS 1 d v
  match s.cx.monitor with
  | .disarmed => ended 3
  | .triggered _ => ended 0
  | .armed _ =>
    if limit.toNat ≤ s.gtc ∧ limitCycle limit < s.cycle then ended 1
    else
      (s.onCx fun x => { x with sleep := { x.sleep with snooze := some (d.toNat, limit) } }).schedule (limitCycle limit + 1) (srcCore s.iss.core)
        (.snoozeTimeout s.cs)

def execSnooze (p : BitVec 4) (d a : BitVec 5) (s : State) : Host.Outcome State Fault Refusal :=
  slotOp (.snooze p d a) (some p) { rs := [a], ws := [d], var := true } false noWait noCause
    (fun s => s.doSnooze d a) s

/-- The sleep of a context ends with `v`; every ending disarms the monitor (R333). -/
def State.wake (s : State) (c d : Nat) (v : Word) : State :=
  s.onCtx c fun x => { (x.setS d v) with sleep := { x.sleep with snooze := none }, monitor := .disarmed }

/-- The monitors that have triggered in the cycle before wake their contexts (R333). -/
def State.wakeAll (s : State) : State :=
  s.ctxNums.foldl (fun s c => match (s.ctx c).sleep.snooze, (s.ctx c).monitor with
    | some (d, _), .triggered _ => s.wake c d 0
    | _, _ => s) s

/-- The limit of a SNOOZE has passed with its monitor not triggered (R333). -/
def execSnoozeTimeout (c : Nat) (s : State) : Host.Outcome State Fault Refusal :=
  match (s.ctx c).sleep.snooze with
  | some (d, limit) =>
    if (s.ctx c).run ≠ .halted ∧ limit.toNat ≤ s.gtc then
      .next (match (s.ctx c).monitor with
        | .triggered _ => s.wake c d 0
        | _ => s.wake c d 1)
    else .next s
  | none => .next s

/-- MARK holds until every earlier access of the context has been performed: at scope CTX the context's own accesses
are performed in order as they issue (R340). The hold is a variable-latency wait. -/
def execMark (p : BitVec 4) (sc : BitVec 3) (s : State) : Host.Outcome State Fault Refusal :=
  slotOp (.mark p sc) (some p) {} false (waitIf true fun s => sc != 0 && s.earlierOut s.cs s.cycle) noCause id s

end Sys2Proof.Machine
end

