-- ==== Sys2Proof/Machine/Ct.lean ====
section
/-! DEFINITION. Slot CT: SYNC, flags, tag waits, barriers, slack, traps, HALT and the requests that stop or start a
context, with the events that end them (R52, R53, R209, R276, R277, R322 to R330, R407 to R418, R422). -/

namespace Sys2Proof.Machine

/-- The STALL field delays the next bundle (R41). -/
def State.stall (s : State) (n : BitVec 4) : State := s.onCx fun x => { x with ready := x.ready + n.toNat }

/-- The frame of a CT instruction: no predicate, and STALL when it commits. -/
def ctOp (i : Instr) (n : BitVec 4) (u : Uses) (priv : Bool) (wait : State → Option (Bool × State))
    (causes : State → List Cause) (body : State → State) (s : State) : Host.Outcome State Fault Refusal :=
  slotOp i none u priv wait causes (fun s => (body s).stall n) s

/-! ## SYNC and flags (R53, R322 to R326) -/

/-- SYNC holds until every flag of its mask is set (R53). -/
def execSync (n : BitVec 4) (m : BitVec 16) (s : State) : Host.Outcome State Fault Refusal :=
  ctOp (.sync n m) n { rr := [0x00B] } false (waitIf true fun s => (s.ico.flags &&& m) != m) noCause id s

/-- The target core lies in the instance of the scope that holds the issuing core (R5, R323). -/
def scopeHas (scope core target : Nat) : Bool :=
  match scope with
  | 0 => target == core
  | 1 => target == core
  | 2 => pairOf target == pairOf core
  | 3 => faceOf target == faceOf core
  | 4 => domOf target == domOf core
  | _ => true

/-- ACCESS of FSET and FCLR for a target that may not be reached (R323). -/
def State.flagCauses (s : State) (v : Word) (scope : Nat) : List Cause :=
  if v.toNat ≤ 511 && s.owns s.ipart (faceOf v.toNat) && scopeHas scope s.iss.core v.toNat then []
  else [kACCESS v.toNat]

/-- A flag operation of the issuing context: at the next cycle on its own core, later by the way elsewhere, and in either case
not before the accesses that the context has issued earlier have been performed (R324, R325). -/
def State.sendFlag (s : State) (target flag : Nat) (set near : Bool) : State :=
  if near then s.flagOp target flag set (s.cycle + 1) (some s.cs)
  else (s.flagOp target flag set (s.cycle + 1 + Config.reachTime s.fresh) (some s.cs)).bump

def execFset (n : BitVec 4) (c : BitVec 3) (f : BitVec 4) (a : BitVec 5) (s : State) :
    Host.Outcome State Fault Refusal :=
  ctOp (.fset n c f a) n { rs := [a] } false noWait (fun s => s.flagCauses (s.cx.sreg a) c.toNat)
    (fun s => s.sendFlag (s.cx.sreg a).toNat f.toNat true false) s

def execFsetSelf (n : BitVec 4) (c : BitVec 3) (f : BitVec 4) (s : State) : Host.Outcome State Fault Refusal :=
  ctOp (.fsetSelf n c f) n {} false noWait noCause
    (fun s => s.sendFlag s.iss.core f.toNat true (c.toNat ≤ 1)) s

def execFclr (n : BitVec 4) (f : BitVec 4) (a : BitVec 5) (s : State) : Host.Outcome State Fault Refusal :=
  ctOp (.fclr n f a) n { rs := [a] } false noWait (fun s => s.flagCauses (s.cx.sreg a) 6)
    (fun s => s.sendFlag (s.cx.sreg a).toNat f.toNat false false) s

def execFclrSelf (n : BitVec 4) (f : BitVec 4) (s : State) : Host.Outcome State Fault Refusal :=
  ctOp (.fclrSelf n f) n {} false noWait noCause (fun s => s.sendFlag s.iss.core f.toNat false true) s

/-! ## Tags (R276, R277) -/

def execWaitany (n : BitVec 4) (a : BitVec 5) (s : State) : Host.Outcome State Fault Refusal :=
  ctOp (.waitany n a) n { rs := [a], rr := [0x00A] } false
    (waitIf true fun s => s.cx.sreg a != 0 && s.cx.tags &&& s.cx.sreg a == 0) noCause id s

def execWaitall (n : BitVec 4) (a : BitVec 5) (s : State) : Host.Outcome State Fault Refusal :=
  ctOp (.waitall n a) n { rs := [a], rr := [0x00A] } false
    (waitIf true fun s => s.cx.tags &&& s.cx.sreg a != s.cx.sreg a) noCause id s

/-- The lowest tag of a mask, with its status, or all ones (R277). -/
def State.firstTag (s : State) (mask : Word) : Word :=
  match (List.range 64).find? fun t => (s.cx.tags &&& mask).getLsbD t with
  | some t => BitVec.ofNat 64 (t + (Tbl.look s.ico.tstat t 0).toNat * 256)
  | none => 0xFFFFFFFFFFFFFFFF

def execFfr (n : BitVec 4) (a d : BitVec 5) (s : State) : Host.Outcome State Fault Refusal :=
  ctOp (.ffr n a d) n { rs := [a], ws := [d], rr := [0x00A], lat := 2 } false noWait noCause
    (fun s => s.resultS 2 d (s.firstTag (s.cx.sreg a))) s

/-! ## Barriers (R327 to R330) -/

/-- The response of an earlier BARRIVE has not arrived (R329). -/
def Ctx.arriving (x : Ctx) : Bool := x.pending.any fun p => p.dest == .arrival && p.saveIa.isNone && !p.arrived

/-- The causes of a barrier's address (R328). -/
def State.barrierCauses (s : State) (va : Nat) (use : Use) : List Cause :=
  (if va % 64 = 0 then [] else [kALIGN va]) ++
  accessCauses s.cx.windows s.ico.staging va [{ va := va, len := 64 }] use [0]

/-- The low 16 bytes of a barrier after an arrival (R328). -/
def barrierStep (old : Nat) : Nat :=
  let arrived := bitsOf old 0 32
  let phase := bitsOf old 64 32
  if bitsOf old 32 32 ≤ arrived + 1 then setBits (setBits old 0 32 0) 64 32 ((phase + 1) % 2 ^ 32)
  else setBits old 0 32 (arrived + 1)

/-- BARRIVE commits: one indivisible step at the home slice, whose old phase goes to the arrival record. -/
def State.doArrive (s : State) (va : Nat) : State :=
  match findWindow s.cx.windows va with
  | none => s
  | some w =>
    let ia := s.effIa s.iss.core w va
    let p : Pending :=
      { id := 0, slot := 7, dest := .arrival, reissue := false, va := BitVec.ofNat 64 va, barrier := BitVec.ofNat 64 ia }
    let q := s.winReq (some w)
    let port := s.portOf s.iss.core q w [va]
    let lat := s.accessLatency s.iss.core w [va]
    match s.atomicAt q ia 16 (fun old => some (barrierStep old)) with
    | (.ok old, s) => s.pendLoad s.cs lat port { p with value := BitVec.ofNat 64 (bitsOf old 64 32) }
    | (.error code, s) => s.pendLoad s.cs lat port { p with fault := some (code, BitVec.ofNat 64 va) }

def execBarrive (n : BitVec 4) (a : BitVec 5) (c : BitVec 3) (s : State) : Host.Outcome State Fault Refusal :=
  let va := (s.cx.sreg a).toNat
  ctOp (.barrive n a c) n { rs := [a] } false (waitIf true fun s => s.cx.arriving)
    (fun s => s.barrierCauses va .both) (fun s => s.doArrive va) s

/-- PHASE of the barrier at an IA, as its home slice holds it. DESIGN CHOICE (log 37): a BARWAIT makes one request, when its wait
begins; the slice then watches the line for it, which is no request and counts nothing. -/
def State.barPhase (s : State) (c ia : Nat) : Except Nat Nat :=
  match (s.iaRead { s.coreReq c true with primary := true } ia).1 with
  | .ok b => .ok (bitsOf b.data 64 32)
  | .fail code => .error code

/-- The wait of a BARWAIT begins: its reference phase is the record's old value if it names this barrier, or PHASE now
(R330). -/
def State.beginBarwait (s : State) (limit : Word) (w : Window) (va : Nat) : State :=
  let ia := s.effIa s.iss.core w va
  let now := match s.barPhase s.cs ia with
    | .ok p => p
    | .error _ => 0
  let phase := match s.cx.arrival with
    | some (b, old) => if b.toNat = ia then old else now
    | none => now
  let seen := s.cycle + s.accessLatency s.iss.core w [va]
  let s := (s.iaRead { s.winReq (some w) with primary := true } ia).2
  let s := (s.onCx fun x => { x with sleep := { x.sleep with bar := some (.waiting limit ia phase seen) } }).bump
  if limit = 0xFFFFFFFFFFFFFFFF then s
  else s.schedule (max (limitCycle limit) seen) (srcCore s.iss.core) (.barwaitTimeout s.cs)

/-- What holds a BARWAIT: the arrival record, or a phase that has not changed (R329, R330). -/
def State.barWait (limit : Word) (va : Nat) (s : State) : Option (Bool × State) :=
  if s.cx.arriving then some (true, s)
  else match s.cx.sleep.bar with
    | some .over => none
    | some (.waiting _ ia phase seen) =>
      if s.cycle < seen then some (true, s)
      else match s.barPhase s.cs ia with
        | .ok p => if p = phase then some (true, s) else none
        | .error _ => none
    | none =>
      match findWindow s.cx.windows va with
      | none => none
      | some w => if s.barrierCauses va .read = [] then some (true, s.beginBarwait limit w va) else none

/-- A memory-side fault of the barrier's read is taken at the held bundle. -/
def State.barFault (s : State) (va : Nat) : List Cause :=
  match s.cx.sleep.bar with
  | some (.waiting _ ia _ _) => match s.barPhase s.cs ia with
    | .ok _ => []
    | .error code => [kFault code va]
  | _ => []

/-- BARWAIT commits: after a limit sd := 1 and the record stays; otherwise sd := 0 and the record is cleared. -/
def State.endBarwait (s : State) (d : BitVec 5) : State :=
  match s.cx.sleep.bar with
  | some .over => (s.onCx fun x => { x with sleep := { x.sleep with bar := none } }).resultS 1 d 1
  | _ => (s.onCx fun x => { x with sleep := { x.sleep with bar := none }, arrival := none }).resultS 1 d 0

def execBarwait (n : BitVec 4) (a b d : BitVec 5) (s : State) : Host.Outcome State Fault Refusal :=
  let va := (s.cx.sreg a).toNat
  ctOp (.barwait n a b d) n { rs := [a, b], ws := [d], var := true } false (State.barWait (s.cx.sreg b) va)
    (fun s => s.barrierCauses va .read ++ s.barFault va) (fun s => s.endBarwait d) s

/-- GTC has reached the limit with the phase not changed: the wait ends, and its bundle may issue (R330). -/
def execBarwaitTimeout (c : Nat) (s : State) : Host.Outcome State Fault Refusal :=
  match (s.ctx c).sleep.bar with
  | some (.waiting limit ia phase seen) =>
    if (s.ctx c).run ≠ .halted ∧ limit.toNat ≤ s.gtc ∧ seen ≤ s.cycle then
      match s.barPhase c ia with
      | .ok p => .next (if p = phase then s.onCtx c fun x => { x with sleep := { x.sleep with bar := some .over } } else s)
      | .error _ => .next s
    else .next s
  | _ => .next s

/-! ## Slack and UNBOOK (R208, R209) -/

/-- The booking of a context. -/
def State.bookingOf (s : State) (c : Nat) : Option Booking :=
  (s.ctx c).bid.bind fun b => Tbl.find (s.face (faceOf (coreOf c))).bookings b

def execSlk (n : BitVec 4) (k : BitVec 20) (s : State) : Host.Outcome State Fault Refusal :=
  ctOp (.slk n k) n {} false noWait noCause (fun s =>
    if s.cx.run = .booked then
      let b := ((s.bookingOf s.cs).map fun b => b.slack).getD 0
      s.onCx fun x => { x with slack := min k.toNat (b - x.paid) }
    else s) s

/-- The ticks after this one become FREE, HOLD entries apart; the context is FREE from the next tick on. -/
def execUnbook (n : BitVec 4) (s : State) : Host.Outcome State Fault Refusal :=
  ctOp (.unbook n) n {} false noWait noCause (fun s =>
    if s.cx.run = .booked then (s.releaseBooking s.cs true).onCx fun x => { x with unbook := true } else s) s

/-! ## Traps and halts (R410, R411) -/

def execTrap (n : BitVec 4) (c : BitVec 16) (s : State) : Host.Outcome State Fault Refusal :=
  ctOp (.trap n c) n {} false noWait (fun _ => [kFault 0x18 c.toNat]) id s

def execTrapBrk (n : BitVec 4) (c : BitVec 16) (s : State) : Host.Outcome State Fault Refusal :=
  ctOp (.trapBrk n c) n {} false noWait (fun _ => [kFault 0x19 c.toNat]) id s

/-- The linear index of an instance (R359). -/
def Task.linear (t : Task) (inst : Word) : Nat :=
  let w := (wordAt t.tcb 4).toNat
  bitsOf inst.toNat 0 16 + bitsOf w 0 16 * (bitsOf inst.toNat 16 16 + bitsOf w 16 16 * bitsOf inst.toNat 32 16)

/-- The instance that the context runs has ended (R369). -/
def State.endInstance (s : State) (c : Nat) : State :=
  s.onTask (s.ctx c) fun t =>
    { t with ended := t.ended + 1, running := t.running.filter fun i => i != t.linear (s.ctx c).inst
             lastCtx := ctxId c }

/-- The supervisor leaves its partition without one (R411). -/
def State.leaveSup (s : State) (c : Nat) : State :=
  if s.isSup c then s.onPart (s.partOf (coreOf c)) fun q => { q with hasSup := false } else s

/-- A result in flight for a vector register (R140). -/
def Write.isVector : Write → Bool
  | .owe _ => true
  | .tile _ _ => true
  | .lane _ _ _ => true
  | _ => false

/-- A result on its way that HALT and TDONE leave: one for a scalar register, or for the save area of an earlier stop
(R140, R411, R414). -/
def Pending.outlives (p : Pending) : Bool :=
  p.saveIa.isSome || (match p.dest with
    | .scalar _ => true
    | _ => false)

/-- A context halts without a save area: its vector results in flight are discarded, its allotment, landing slots,
bookings and buffer half are released (R103, R112, R140, R177, R411). -/
def State.haltCtx (s : State) (c : Nat) : State :=
  let bid := (s.ctx c).bid
  let s := s.releaseBooking c true
  let s := match bid with
    | some b => s.freeBuffer (coreOf c) b
    | none => s
  let s := s.onCore (coreOf c) fun k => k.dropLandings (ctxOf c)
  (s.onCtx c fun x =>
    { x.halted with
      inflight := x.inflight.filter fun i => !i.w.isVector
      pending := x.pending.filter Pending.outlives }).unblock (domOf (coreOf c))

def execHalt (n : BitVec 4) (s : State) : Host.Outcome State Fault Refusal :=
  ctOp (.halt n) n {} false noWait noCause (fun s => ((s.endInstance s.cs).leaveSup s.cs).haltCtx s.cs) s

/-! ## Stops (R413 to R418) -/

/-- ACCESS for a context number that the partition does not own (R417, R422). -/
def State.targetBad (s : State) (v : Word) : Bool :=
  2047 < v.toNat || !(s.owns s.ipart (faceOf (coreOf v.toNat)))

/-- The context that an RFT or CTXRUN is to start: RFT names it in the save area's header (R422). -/
def State.resumeTarget (s : State) (r : Resume) : Option Nat :=
  match r.target with
  | some c => some c
  | none =>
    match (s.readBytes (engineReq (r.sa / 2 ^ 48 % 8) r.part) (r.sa + 8) 8).1 with
    | .ok bs => some (leNat bs % 2048)
    | .error _ => none

/-- A stop request of this KIND goes to a context: it reaches the core within 160 cycles (R416), and a start of the
context that waits is STOPPED (R424, R426). -/
def State.requestStop (s : State) (c kind : Nat) : State :=
  if (s.ctx c).run = .halted ∨ (s.ctx c).run = .stopping then
    { s with resumes := s.resumes.map fun r => if s.resumeTarget r = some c then { r with stopped := true } else r }
  else
    ((s.onCtx c fun x => { x with stopReq := some (max kind (x.stopReq.getD 0)) }).schedule
      (s.cycle + 1 + Config.reachTime s.fresh % 160) (srcCore (coreOf c)) (.contextStop c kind)).bump

def execCtxstop (n : BitVec 4) (a : BitVec 5) (s : State) : Host.Outcome State Fault Refusal :=
  ctOp (.ctxstop n a) n { rs := [a] } (s.cx.priv == 0) noWait
    (fun s => if s.targetBad (s.cx.sreg a) || (s.cx.sreg a).toNat == s.cs then [kACCESS (s.cx.sreg a).toNat] else [])
    (fun s => s.requestStop (s.cx.sreg a).toNat 2) s

/-- A stop request has reached the core: the context stops on this edge (R413). A bundle of the context that traps in
this cycle takes the place of the stop; `step` sees to that (R426). A stop whose macro-op has reached its stopping point is
completed (R416). -/
def execContextStop (c kind : Nat) (s : State) : Host.Outcome State Fault Refusal :=
  if s.stopOver c then .next (s.finishStop c)
  else if (s.ctx c).run = .stopping then .next s
  else if (s.ctx c).run = .halted ∨ (s.ctx c).stopReq = none then .next (s.preemptDone c)
  else .next (s.stop c (max kind ((s.ctx c).stopReq.getD 0)) (s.ctx c).pc false)

/-- The context that a stop point names is at its bundle: it stops with STOPAT, and EN clears (R418). -/
def execStopPoint (p : Nat) (s : State) : Host.Outcome State Fault Refusal :=
  let q := s.part p
  let c := bitsOf q.stopctl.toNat 32 11
  if s.partOf (coreOf c) = p ∧ ((s.ctx c).run = .free ∨ (s.ctx c).run = .booked) ∧ s.stopHit c then
    .next ((s.stop c 4 (s.ctx c).pc false).onPart p fun q => { q with stopctl := q.stopctl &&& 0x7FFFFFFFFFFFFFFF })
  else .next s

/-- The bundle has been held for WDLIMIT ns; the limit is tested as GTC advances (R407). -/
def State.watchdogDue (s : State) (c : Nat) : Bool :=
  let limit := (s.part (s.partOf (coreOf c))).wdlimit
  (s.ctx c).run != .halted && limit != 0 && s.cycle != 0 && s.gtc != (s.cycle - 1) * 5 / 9 &&
    (match (s.ctx c).heldAt with
      | some h => 9 * limit ≤ 5 * (s.cycle - h)
      | none => false)

def execWatchdog (c : Nat) (s : State) : Host.Outcome State Fault Refusal :=
  if s.watchdogDue c then
    .next (s.trapCtx c { code := 0x1C, addr := s.gtcWord, stage := 0 } (s.ctx c).heldSlot (s.ctx c).pc)
  else .next s

/-! ## Requests to resume (R422) -/

/-- Bytes of a save area. -/
def saveBytes : Nat := 0xA2000

/-- The window kinds through which a save area may be given. -/
def saveKinds : List Nat := [0, 1, 3]

/-- The causes of RFT and CTXRUN at the save area's VA (R422). -/
def State.resumeCauses (s : State) (va : Nat) : List Cause :=
  (if va % 64 = 0 then [] else [kALIGN va]) ++
  accessCauses s.cx.windows s.ico.staging va [{ va := va, len := saveBytes }] .both saveKinds

/-- The request to start a context from a save area is on its way. -/
def State.requestResume (s : State) (va : Nat) (target : Option Nat) : State :=
  match findWindow s.cx.windows va with
  | none => s
  | some w =>
    { s with resumes := s.resumes ++ [{ id := s.fresh, target := target, sa := s.effIa s.iss.core w va, part := s.ipart
                                        priv := s.cx.priv }]
             fresh := s.fresh + 1 }

def execRft (n : BitVec 4) (a : BitVec 5) (s : State) : Host.Outcome State Fault Refusal :=
  let va := (s.cx.sreg a).toNat
  ctOp (.rft n a) n { rs := [a] } (s.cx.priv == 0) noWait (fun s => s.resumeCauses va)
    (fun s => s.requestResume va none) s

def execCtxrun (n : BitVec 4) (a b : BitVec 5) (s : State) : Host.Outcome State Fault Refusal :=
  let va := (s.cx.sreg b).toNat
  ctOp (.ctxrun n a b) n { rs := [a, b] } (s.cx.priv == 0) noWait
    (fun s => stagingLast (s.resumeCauses va ++ (if s.targetBad (s.cx.sreg a) then [kACCESS (s.cx.sreg a).toNat] else [])))
    (fun s => s.requestResume va (some (s.cx.sreg a).toNat)) s

end Sys2Proof.Machine
end

