-- ==== Sys2Proof/Machine/Start.lean ====
section
/-! DEFINITION. Starting a context: which contexts and registers of a core are free, the state in which START,
dispatch and a START save area start one, and START's contexts (R100, R104, R105, R140, R367, R368). -/

namespace Sys2Proof.Machine

/-- What the bookings of a core whose context has not started, and a dispatcher's request for one, hold back: a context and
an allotment (R367). -/
def State.reserved (s : State) (core : Nat) : List (Option Nat × Nat × Nat) :=
  let f := s.face (faceOf core)
  (f.bookings.filterMap fun b =>
    if b.2.core == core && !b.2.started && b.2.vcnt != 0 then some (b.2.ctx, b.2.vbase, b.2.vcnt) else none) ++
  f.requests.filterMap fun r => match r with
    | .task _ _ _ c base v _ => if coreOf c = core then some (some c, base, v) else none
    | _ => none

/-- The context is HALTED and not reserved. -/
def State.isIdle (s : State) (c : Nat) : Bool :=
  (s.ctx c).run == .halted && !((s.reserved (coreOf c)).any fun b => b.1 == some c)

/-- The lowest-numbered HALTED context of a core that nothing holds back (R104). -/
def State.freeCtx (s : State) (core : Nat) : Option Nat :=
  ((List.range 4).map fun k => 4 * core + k).find? s.isIdle

/-- The allotments of a core: base and count. -/
def State.allotments (s : State) (core : Nat) : List (Nat × Nat) :=
  (((List.range 4).map fun k => s.ctx (4 * core + k)).filter fun x => x.run != .halted).map (fun x => (x.base, x.vcount))
    ++ (s.reserved core).map Prod.snd

/-- The lowest base, a multiple of 16, at which `n` registers are free (R104, R105). -/
def State.freeBase (s : State) (core n : Nat) : Option Nat :=
  [0, 16, 32, 48].find? fun b => b + n ≤ 64 && (s.allotments core).all fun a => a.1 + a.2 ≤ b || b + n ≤ a.1

/-- VCOUNT and ROT that R105 permits. -/
def allotOk (vcount rot : Nat) : Bool :=
  [16, 32, 48, 64].contains vcount && [0, 8, 16].contains rot && rot ≤ vcount

/-- What a context that starts without a save area holds: the values that START gives and, for the rest, the reset
values of the special registers (R100, R115). Fixed-latency results that an earlier HALT left in flight are written
when they are due (R38), and a result of an earlier stop stays on its way to its save area. -/
def Ctx.started (old : Ctx) (pc s1 : Word) (base vcount rot priv : Nat) (aw : List Word) : Ctx :=
  { run := .free, pc := pc, s := (Vector.replicate 32 0).set 1 s1, base := base, vcount := vcount, rot := rot
    priv := priv, aw := aw.zipIdx.map fun (v, j) => (j, v &&& awMask j)
    inflight := old.inflight, pending := old.pending.filter fun p => p.saveIa.isSome, last := old.last }

/-- The registers of an allotment are zero (R140). -/
def Core.zeroed (k : Core) (base n : Nat) : Core :=
  { k with vreg := k.vreg.filter fun e => e.1 < base || base + n ≤ e.1 }

/-- A context starts without a save area; its core fetches code anew (R114). -/
def State.startCtx (s : State) (c : Nat) (x : Ctx) : State :=
  (s.setCtx c x).onCore (coreOf c) fun k => { (k.zeroed x.base x.vcount) with icache := [] }

/-- A context that START started begins: word 1 of its entry gives SUP, ROT and VCNT (R98, R100). -/
def State.launch (s : State) (l : Launch) : State :=
  let w1 := (wordAt l.words 1).toNat
  s.startCtx (4 * l.core) ((s.ctx (4 * l.core)).started (wordAt l.words 0) (wordAt l.words 3) 0 (16 * bitsOf w1 0 4)
    (8 * bitsOf w1 4 4) (bitsOf w1 8 1) (l.words.drop 4))

/-- The contexts that START starts in this cycle. -/
def State.launchAll (s : State) : State :=
  let due := s.launches.filter fun l => l.due ≤ s.cycle
  if due.isEmpty then s
  else due.foldl State.launch { s with launches := s.launches.filter fun l => s.cycle < l.due }

end Sys2Proof.Machine
end

