-- ==== Sys2Proof/Machine/Resume.lean ====
section
/-! DEFINITION. Returning from a stop: RFT and CTXRUN check a save area, allot, readmit the remainder of a plan and
restore the context from the area's bytes (R177, R419 to R425). -/

namespace Sys2Proof.Machine

/-! ## The save area as read (R419) -/

/-- The word at a byte offset of a save area's first 0x2000 bytes. -/
def saveWord (ws : List Word) (off : Nat) : Word := wordAt ws (off / 8)
def saveNat (ws : List Word) (off : Nat) : Nat := (saveWord ws off).toNat

def saveForm (ws : List Word) : Nat := bitsOf (saveNat ws 0) 0 8
def saveNent (ws : List Word) : Nat := bitsOf (saveNat ws 0x38) 0 8
def saveVcount (ws : List Word) : Nat := bitsOf (saveNat ws 0x210) 0 8
def saveRot (ws : List Word) : Nat := bitsOf (saveNat ws 0x210) 8 8
def savePlan (ws : List Word) : Nat := if saveForm ws = 1 then bitsOf (saveNat ws 0x800) 0 52 else 0
def saveOffset (ws : List Word) : Nat := bitsOf (saveNat ws 0x808) 0 16
def savePhase (ws : List Word) : Nat := bitsOf (saveNat ws 0x808) 16 5
def saveDelay (ws : List Word) : Nat := if saveForm ws = 1 then bitsOf (saveNat ws 0x30) 0 8 else 0

/-- The request of the PX7 for a save area. -/
def saveReq (r : Resume) : Req := engineReq (r.sa / 2 ^ 48 % 8) r.part

/-- The words of the save area from offset 0 to 0x1FFF. -/
def State.readSave (s : State) (r : Resume) : Option (List Word) × State :=
  match s.readBytes (saveReq r) r.sa 0x2000 with
  | (.ok bs, s) => (some (wordsOf 1024 bs), s)
  | (.error _, s) => (none, s)

/-- The dump entries: word 0, word 1 and, for a vector request, the words of its second entry. -/
def dumpEntries (ws : List Word) : Nat → Nat → Option (List (Nat × Word × Nat × Word))
  | 0, _ => some []
  | n + 1, i =>
    if saveNent ws ≤ i then some []
    else
      let at' (j o : Nat) : Word := saveWord ws (0x900 + 16 * j + o)
      let w0 := (at' i 0).toNat
      if bitsOf w0 0 8 = 6 && w0.testBit 51 then
        if saveNent ws ≤ i + 1 then none
        else (dumpEntries ws n (i + 2)).map fun l => (w0, at' i 8, (at' (i + 1) 0).toNat, at' (i + 1) 8) :: l
      else (dumpEntries ws n (i + 1)).map fun l => (w0, at' i 8, 0, 0) :: l

/-- The entries of a save area, none where a vector request lacks its second entry. -/
def saveDump (ws : List Word) : Option (List (Nat × Word × Nat × Word)) := dumpEntries ws 128 0

/-- The operation of a held macro-op's slot word: opcode, accumulator, kind, flag enable and flag (R228). -/
def heldOp (w : Word) (pc nfr : Word) (group : List Word) (core ctx seg rows : Nat) : Option MxOp :=
  let mk (op : Nat) (c : BitVec 1) (k : Nat) (e : BitVec 1) (f : BitVec 4) : Option MxOp :=
    some { word := w.truncate 32, op := op, acc := c.toNat, kind := k, group := group, nfr := nfr, pc := pc
           flagEn := e == 1, flag := f.toNat, core := core, ctx := ctx, seg := seg, rows := rows }
  match decodeSlot 5 (w.truncate 32) with
  | .ok (.mma _ c k _ e f) => mk 1 c k.toNat e f
  | .ok (.mref _ c _ e f) => mk 2 c 0 e f
  | .ok (.mlut _ c _ e f) => mk 3 c 0 e f
  | .ok (.mzero _ c) => mk 4 c 0 0 0
  | .ok (.mldacc _ c _ e f) => mk 5 c 0 e f
  | .ok (.mdrain _ c _ e f) => mk 6 c 0 e f
  | _ => none

/-- Every held macro-op of a save area for a context; only the first has progress (R248, R249). -/
def saveHeld (ws : List Word) (c : Nat) : List (Option MxOp) :=
  let prog := saveNat ws 0x400
  (List.range (saveNat ws 0x410)).map fun i =>
    let o := 0x440 + 96 * i
    heldOp (saveWord ws o) (saveWord ws (o + 8)) (saveWord ws (o + 16)) ((List.range 8).map fun j => saveWord ws (o + 24 + 8 * j))
      (coreOf c) (ctxOf c) (if i = 0 then bitsOf prog 0 9 else 0) (if i = 0 then bitsOf prog 32 8 else 0)

/-! ## The checks (R423, R424) -/

/-- The RSVD bits of the special state are zero: the fields of R75, R106, R115 to R120, R67 and R419 (R8, R424). -/
def saveSpecialOk (ws : List Word) : Bool :=
  let w (o : Nat) : Nat := saveNat ws o
  w 0x200 < 2 ^ 16 && w 0x208 < 16 && bitsOf (w 0x210) 24 40 == 0 && w 0x218 < 16 && w 0x230 < 2 ^ 32 &&
    saveWord ws 0x238 &&& ~~~pqMask == 0 && w 0x240 < 2 ^ 52 && w 0x248 < 2 ^ 48 &&
    saveWord ws 0x260 &&& ~~~tcauseMask == 0 && w 0x278 < 8 && saveWord ws 0x280 &&& ~~~nfrMask == 0 &&
    saveWord ws 0x288 &&& ~~~nfrMask == 0 && w 0x290 < 2 ^ 32 &&
    (List.range 2).all (fun i =>
      let v := bitsOf (w 0x298) (32 * i) 32
      v / 2 ^ 18 == 0 && bitsOf v 16 2 ≤ 2 && BitVec.ofNat 64 (v % 2 ^ 16) &&& ~~~nfrMask == 0) &&
    (List.range 8).all (fun i => bitsOf (w (0x2A0 + 8 * (i / 2))) (32 * (i % 2)) 32 < (if i = 7 then 1 else 2 ^ 25)) &&
    w 0x2C8 < 2 ^ 33 && (List.range 5).all fun i => w (0x2D8 + 8 * i) == 0

/-- FORM, VERSION and the RSVD bits of the header and, of a FULL save area, of the special state. -/
def saveHeaderOk (ws : List Word) : Bool :=
  let w (o : Nat) : Nat := saveNat ws o
  (saveForm ws == 1 || saveForm ws == 2) && bitsOf (w 0) 32 16 == 1 && bitsOf (w 0) 8 24 == 0 && bitsOf (w 0) 48 16 == 0 &&
  w 8 < 2 ^ 29 && w 0x10 < 256 && w 0x28 < 512 && w 0x30 < 2 ^ 48 && w 0x38 < 2 ^ 16 &&
  (List.range 23).all (fun i => w (0x48 + 8 * i) == 0) && (saveForm ws != 1 || saveSpecialOk ws)

/-- The limits of R423 on the values of a save area. -/
def saveValuesOk (ws : List Word) (c : Nat) : Bool :=
  allotOk (saveVcount ws) (saveRot ws) && saveNat ws 0x20 % 32 == 0 &&
  (saveForm ws == 2 ||
    (1 ≤ saveNat ws 0x10 && saveNat ws 0x10 ≤ 4 && saveNent ws ≤ 128 && bitsOf (saveNat ws 0x38) 8 8 ≤ 64 &&
     (match saveDump ws with
      | none => false
      | some l => l.all fun e => 1 ≤ bitsOf e.1 0 8 && bitsOf e.1 0 8 ≤ 9 && bitsOf e.1 16 8 ≤ 46) &&
     ((List.range 32).all fun i => bitsOf (saveNat ws (0x1100 + 64 * i)) 0 2 != 3) &&
     saveNat ws 0x410 ≤ 9 && (saveHeld ws c).all Option.isSome))

/-- The copies that the save area waits for are still going on, or a result is still to be written into it. -/
def State.resumeWaits (s : State) (r : Resume) : Bool :=
  match (s.readSave r).1 with
  | none => false
  | some ws =>
    let core := coreOf (saveNat ws 8 % 2048)
    let k := s.core core
    (saveForm ws == 1) &&
    ((List.range 64).any (fun t => (saveWord ws 0x40).getLsbD t &&
        (Tbl.look k.tags t {}).busy && (Tbl.look k.tags t {}).ctx == saveNat ws 8 % 4) ||
     ((saveDump ws).getD []).any (fun e => bitsOf e.1 0 8 == 7 && e.1.testBit 42) ||
     s.ctxs.any fun (_, x) => x.pending.any fun p => match p.saveIa with
       | some ia => r.sa ≤ ia && ia < r.sa + saveBytes
       | none => false)

/-- RESUME_START is due: the wait of R423 is over, or a CTXSTOP of the target came first. -/
def State.resumeDue (s : State) (r : Resume) : Bool := r.stopped || (!r.booked && !s.resumeWaits r)

/-- RUNSTAT and DONE are written. -/
def State.runstat (s : State) (r : Resume) (v : Nat) : State :=
  (s.writeBytes (saveReq r) (r.sa + 0x28) (leBytes 8 (256 + v))).2

def State.dropResume (s : State) (id : Nat) : State := { s with resumes := s.resumes.filter fun r => r.id != id }

/-! ## The remainder of a plan (R425) -/

/-- An entry cut to its ticks at or after OFFSET. -/
def cutEntry (off : Nat) (e : Word) : Option Word :=
  let last := entOff e + entLen e
  if last ≤ off then none
  else
    let first := max (entOff e) off
    some (BitVec.ofNat 64 (setBits (setBits e.toNat 16 16 (first - off)) 32 16 (last - first)))

def Plan.remainder (p : Plan) (off slack : Nat) : Plan :=
  { p with entries := p.entries.filterMap (cutEntry off), total := p.total - off, slack := slack }

/-- How the readmission ends: the RUNSTAT value, or the tick, the booking id and the plan. -/
def State.readmit (s : State) (r : Resume) (ws : List Word) (c : Nat) : (Except Nat (Nat × Nat × Plan)) × State :=
  let core := coreOf c
  match s.readPlan (saveReq r) (savePlan ws) with
  | (none, s) => (.error 4, s)
  | (some p, s) =>
    let q := p.remainder (saveOffset ws) (bitsOf (saveNat ws 0x810) 0 32)
    if !p.good then (.error 4, s)
    else if !(q.entries.any fun e => entClass e == 0) then (.error 8, s)
    else if !s.halfFree core then (.error 3, s)
    else match (s.face (faceOf core)).freeBid, s.findStart q (faceOf core) [core] with
      | some b, some (t, _) => (.ok (t, b, q), s)
      | _, _ => (.error 4, s)

/-! ## Restoring (R177, R420, R423) -/

/-- The image of a tile in a save area. -/
def State.readTile (s : State) (r : Resume) (off : Nat) : Tile × State :=
  match s.readBytes (saveReq r) (r.sa + off) 4096 with
  | (.ok bs, s) => ((wordsOf 512 bs).flatMap fun (w : Word) => [w.truncate 32, (w >>> 32).truncate 32], s)
  | (.error _, s) => ([], s)

/-- Tiles at these offsets. -/
def State.readTiles (s : State) (r : Resume) : List Nat → List Tile × State
  | [] => ([], s)
  | o :: t =>
    let (x, s) := s.readTile r o
    let (xs, s) := s.readTiles r t
    (x :: xs, s)

/-- The result in flight that a dump entry of KIND 1 to 5, 7 or 9 stands for; a vector entry outside the allotment
writes nothing. -/
def entryWrite (base vcount : Nat) (tile : Nat → Tile) (e : Nat × Word × Nat × Word) : Option Write :=
  let reg := bitsOf e.1 8 6
  let v := e.2.1
  match bitsOf e.1 0 8 with
  | 1 => some (.scalar reg v)
  | 2 => some (.pred reg (v.getLsbD 0))
  | 3 => if reg < vcount then some (.tile (base + reg) (tile (bitsOf e.1 24 6))) else none
  | 4 => if reg < vcount then some (.lane (base + reg) (bitsOf e.1 32 10) (v.truncate 32)) else none
  | 5 => some (.sreg (bitsOf e.1 44 12) v)
  | 7 => some (.scalar reg v)
  | 9 => some (.loopShift (v.getLsbD 0))
  | _ => none

/-- A pending narrow-format write of the word at 0x298; reserved bits of its value are dropped (R8, R51, R419). -/
def nfrEntry (w : Nat) (xc : Bool) : List (Bool × BitVec 16 × Nat) :=
  let o := if xc then 32 else 0
  if bitsOf w (o + 16) 2 = 0 then [] else [(xc, BitVec.ofNat 16 (bitsOf w o 16) &&& nfrMask.truncate 16, bitsOf w (o + 16) 2)]

/-- The arrival record of a save area (R329). A KIND 8 entry stands for a BARRIVE whose response the area has taken:
the record then names the barrier at the entry's VA (R420, R423). -/
def savedArrival (ws : List Word) (wins : List Window) : Option (Word × Nat) :=
  let old := bitsOf (saveNat ws 0x2C8) 0 32
  if !(saveWord ws 0x2C8).getLsbD 32 then none
  else match (((saveDump ws).getD []).filter fun e => bitsOf e.1 0 8 == 8).getLast? with
    | none => some (saveWord ws 0x2C0, old)
    | some e =>
      match findWindow wins e.2.1.toNat with
      | some w => some (BitVec.ofNat 64 (w.toIa e.2.1.toNat), old)
      | none => some (saveWord ws 0x2C0, old)

/-- The context as a FULL save area restores it; results in flight are due from `t0` on. Results that an earlier HALT
left in flight are still written when they are due (R38). -/
def restoredCtx (old : Ctx) (ws : List Word) (c base t0 : Nat) (bid : Option Nat) (tile : Nat → Tile) : Ctx :=
  let w (o : Nat) : Word := saveWord ws o
  let n (o : Nat) : Nat := saveNat ws o
  let vcount := saveVcount ws
  let rot := saveRot ws
  { run := if bid.isSome then .booked else .free
    pc := w 0x20
    s := Vector.ofFn fun i => if i.val = 0 then 0 else w (0x100 + 8 * i.val)
    p := BitVec.ofNat 16 (n 0x200) ||| 1
    priv := bitsOf (n 0x208) 2 2
    chk := (w 0x208).getLsbD 0
    base := base, vcount := vcount, rot := rot
    rrb := if rot = 0 then 0 else n 0x218 % rot
    lc := w 0x220, ec := w 0x228, esc := (w 0x230).truncate 32, pq := w 0x238 &&& pqMask
    taskid := w 0x240 &&& 0x000FFFFFFFFFFFFF, inst := w 0x248 &&& 0x0000FFFFFFFFFFFF, tags := w 0x250 ||| w 0x40
    slack := if bid.isSome then bitsOf (n 0x810) 0 32 else 0
    tcause := w 0x260 &&& tcauseMask, tpc := w 0x268, taddr := w 0x270, tslot := bitsOf (n 0x278) 0 3
    nfrMx := (w 0x280 &&& nfrMask).truncate 16, nfrXc := (w 0x288 &&& nfrMask).truncate 16
    nfrPend := nfrEntry (n 0x298) false ++ nfrEntry (n 0x298) true
    landpend := BitVec.ofNat 32 (n 0x290)
    aw := (List.range 32).map fun j => (j, w (0x300 + 8 * j) &&& awMask j)
    prefixes := (List.range 7).filterMap fun k =>
      let v := bitsOf (n (0x2A0 + 4 * k)) (32 * (k % 2)) 32
      if v.testBit 24 then some (k, BitVec.ofNat 24 v) else none
    inflight := old.inflight ++ ((saveDump ws).getD []).filterMap fun e =>
      (entryWrite base vcount tile e).map fun z => { due := t0 + bitsOf e.1 16 8, slot := 0, w := z }
    pending := old.pending.filter fun p => p.saveIa.isSome
    arrival := savedArrival ws (windowSet ((List.range 32).map fun j => w (0x300 + 8 * j)))
    ready := t0 + saveDelay ws
    bid := bid
    paid := n 0x2D0
    held := (saveHeld ws c).filterMap id
    last := old.last }

/-- The occupancies of the core's engines go on from `t0` (R423). -/
def Core.occupied (k : Core) (ws : List Word) (t0 : Nat) : Core :=
  let n (o : Nat) : Nat := bitsOf (saveNat ws 0x30) o 8
  let f (old o : Nat) : Nat := if n o = 0 then old else max old (t0 + n o)
  { k with vaFree := f k.vaFree 8, vbFree := f k.vbFree 16, xcFree := f k.xcFree 24, saDiv := f k.saDiv 32
           sbDiv := f k.sbDiv 40 }

/-- The tile request of a KIND 6 entry or a landing record (R420). -/
def savedReq (pc va stride nfr pq : Word) (fmt : Nat) (coats : Bool) : TileReq :=
  { base := va, stride := stride, fmt := fmt, nfr := nfr, pq := pq, pc := pc, coats := coats }

/-- A tile request at the point of issue with everything its access needs. -/
def State.accOf (s : State) (q : TileReq) : TileAcc :=
  let w := s.baseWindow q.base
  { q := q, win := w, spans := s.tileSpans s.iss.core (s.winReq w) w q, ports := [] }

/-- The ports of a tile request that is issued again, as a tile access with them. -/
def State.withPorts (s : State) (t : TileAcc) : TileAcc :=
  { t with ports := (t.win.map fun w => s.portUses s.iss.core w t.spans).getD [] }

/-- A vector load is issued again at `t0` (R414, R423), or as soon as its ports allow (R170, R173); a fault of its checks is taken as a memory-side fault is. -/
def State.reissueTile (s : State) (t0 phys : Nat) (q : TileReq) : State :=
  let t := s.accOf q
  match t.win, firstCause (s.tileCauses t .read loadKinds) with
  | some w, none =>
    let r := s.winReq t.win
    let port := s.portOf s.iss.core r w t.vas
    let t := s.withPorts t
    let t0 := s.reissueAt t0 t.ports
    let lat := t.fixed.getD (s.accessLatency s.iss.core w t.vas)
    let (l, s) := s.loadTile s.iss.core r w q
    let s := s.takePortsAt t0 t.ports
    s.pendLoad s.cs (t0 - s.cycle + lat) port
      (({ id := 0, slot := 4, dest := .tile phys, reissue := true, coats := q.coats, va := q.base
          stride := q.stride, fmt := q.fmt, nfr := q.nfr, pq := q.pq, pc := q.pc } : Pending).take l)
  | _, k => s.lateFault s.cs t0 ((k.map Cause.code).getD codeXLATE) 4 ((k.map Cause.addr).getD q.base)

/-- A scalar load is issued again at `t0`. -/
def State.reissueWord (s : State) (t0 d va width : Nat) (signed : Bool) (pc : Word) : State :=
  let t := s.wordAcc va width
  let p : Pending :=
    { id := 0, slot := 4, dest := .scalar d, reissue := true, va := BitVec.ofNat 64 va, width := width, signed := signed
      pc := pc }
  match t.win, firstCause (s.wordCausesAt { t with ports := [] } .read scalarLoadKinds) with
  | some w, none =>
    let t0 := s.reissueAt t0 t.ports
    let lat := t0 - s.cycle + s.accessLatency s.iss.core w [va]
    match t.cfgIa with
    | some ia =>
      if s.cfgRefused ia (2 ^ width) false then s.pendLoad s.cs lat none { p with fault := some (codeACCESS, BitVec.ofNat 64 va) }
      else
        let v := s.cfgLoad ia (2 ^ width)
        s.pendLoad s.cs lat none { p with value := if signed then BitVec.ofInt 64 (sext (8 * 2 ^ width) v.toNat) else v }
    | none =>
      let q := s.winReq t.win
      let port := s.portOf s.iss.core q w [va]
      let (l, s) := s.loadScalar s.iss.core q w va width signed
      let s := s.takePortsAt t0 t.ports
      s.pendLoad s.cs lat port (p.take l)
  | _, k => s.lateFault s.cs t0 ((k.map Cause.code).getD codeXLATE) 4 ((k.map Cause.addr).getD (BitVec.ofNat 64 va))

/-- The load requests of the dump are issued again. -/
def State.reissueDump (s : State) (t0 base vcount : Nat) (pc : Word) (e : Nat × Word × Nat × Word) : State :=
  let reg := bitsOf e.1 8 6
  if bitsOf e.1 0 8 ≠ 6 then s
  else if e.1.testBit 51 then
    if reg < vcount then
      s.reissueTile t0 (base + reg) (savedReq pc e.2.1 (BitVec.ofInt 64 (sext 32 (bitsOf e.2.2.1 0 32)))
        (BitVec.ofNat 64 (bitsOf e.2.2.1 32 16)) e.2.2.2 (bitsOf e.1 44 4) (e.1.testBit 50))
    else s
  else s.reissueWord t0 reg e.2.1.toNat (bitsOf e.1 48 2) (e.1.testBit 50) pc

/-- A landing slot is restored, or its request issued again; a slot that another context holds stays that context's
(R177). DESIGN CHOICE (log 110): the save area has no field for poison, so that of a LANDED slot, and of a result in flight at
the stop, is dropped (R191). -/
def State.restoreLanding (s : State) (t0 : Nat) (ws : List Word) (pc : Word) (i : Nat) (lanes : Tile) : State :=
  let w (j : Nat) : Word := saveWord ws (0x1100 + 64 * i + 8 * j)
  let q := savedReq pc (w 1) (w 2) (w 4) (w 5) ((w 3).toNat % 16) false
  let x : Landing :=
    { st := .waiting, owner := s.iss.ctx, va := w 1, stride := w 2, fmt := (w 3).toNat % 16, nfr := w 4, pq := w 5, pc := pc }
  if (s.landing s.iss.core i).st ≠ .empty then s
  else match (w 0).toNat % 4 with
    | 2 => s.setLanding s.iss.core i { x with st := .landed, lanes := fullTile lanes }
    | 1 =>
      let t := s.accOf q
      match t.win, firstCause (s.tileCauses t .read loadKinds) with
      | some v, none =>
        let r := s.winReq t.win
        let port := s.portOf s.iss.core r v t.vas
        let t := s.withPorts t
        let t0 := s.reissueAt t0 t.ports
        let lat := t.fixed.getD (s.accessLatency s.iss.core v t.vas)
        let (l, s) := s.loadTile s.iss.core r v q
        let s := s.takePortsAt t0 t.ports
        s.fillLanding s.iss.core i (t0 - s.cycle + lat) port x l
      | _, k => s.lateFault s.cs t0 ((k.map Cause.code).getD codeXLATE) 4 ((k.map Cause.addr).getD q.base)
    | _ => s

/-- The tiles of a save area that its dump entries name, by number. -/
def dumpTiles (ws : List Word) : List Nat :=
  (((saveDump ws).getD []).filter fun e => bitsOf e.1 0 8 == 3).map fun e => bitsOf e.1 24 6

/-- A context takes the state of a FULL save area, and goes on at `t0` (R423). -/
def State.restore (s : State) (r : Resume) (ws : List Word) (c base t0 : Nat) (bid : Option Nat) : State :=
  let core := coreOf c
  let vcount := saveVcount ws
  let nums := dumpTiles ws
  let (dumped, s) := s.readTiles r (nums.map fun k => 0x62000 + 0x1000 * k)
  let tile (k : Nat) : Tile := (((nums.zip dumped).find? fun e => e.1 == k).map Prod.snd).getD []
  let (regs, s) := s.readTiles r ((List.range vcount).map fun i => 0x2000 + 0x1000 * i)
  let landed := (List.range 32).filter fun i => saveNat ws (0x1100 + 64 * i) % 4 == 2
  let (lands, s) := s.readTiles r (landed.map fun i => 0x42000 + 0x1000 * i)
  let s := s.setCtx c (restoredCtx (s.ctx c) ws c base t0 bid tile)
  let s := s.onCore core fun k =>
    { (k.occupied ws t0) with
      icache := []
      vreg := regs.zipIdx.foldl (fun v (t, i) => Tbl.put v (base + i) t) k.vreg }
  let pc := saveWord ws 0x20
  let old := s.iss
  let s := { s with iss := { core := core, ctx := ctxOf c, pc := pc } }
  let s := ((saveDump ws).getD []).foldl (fun s e => s.reissueDump t0 base vcount pc e) s
  let s := (List.range 32).foldl (fun s i =>
    s.restoreLanding t0 ws pc i ((((landed.zip lands).find? fun e => e.1 == i).map Prod.snd).getD [])) s
  { s with iss := old }

/-- The first cycle after this one in which a FREE context may issue: its core's row is not booked (R423). -/
def State.firstFree (s : State) (core : Nat) : Nat :=
  let row := rowCore core
  let t := s.tick
  if s.cycle % 32 ≠ 31 && (s.face (faceOf core)).isFree row t then s.cycle + 1
  else match (List.range 8192).find? fun i => (s.face (faceOf core)).isFree row (t + 1 + i) with
    | some i => 32 * (t + 1 + i)
    | none => 32 * (t + 8193)

/-- The stopped instance that a context resumes is RUNNING again (R372, R424); a resumed supervisor supervises again. -/
def State.rejoin (s : State) (c : Nat) : State :=
  let x := s.ctx c
  let s := s.onTask x fun t => { t with faulted := false }
  let p := s.partOf (coreOf c)
  if x.priv = 1 then s.onPart p fun q => { q with hasSup := true, supctx := c } else s

/-! ## RESUME_START (R423, R424) -/

/-- The request ends with this RUNSTAT. -/
def State.endResume (s : State) (r : Resume) (v : Nat) : State := (s.runstat r v).dropResume r.id

/-- A readmitted remainder is given up before its start tick (R424). -/
def State.cancelReadmit (s : State) (c : Nat) (r : Resume) : State :=
  let f := faceOf (coreOf c)
  match (s.face f).bookings.find? fun b => b.2.resume == some r.id with
  | none => s
  | some (b, _) => ((s.onFace f fun x => { x with bookings := Tbl.del x.bookings b }.noteRelease).freeBuffer (coreOf c) b
      ).unblock (domOf (coreOf c))

/-- An allotment is free: the FREE context starts now, or the remainder is booked. -/
def State.resumeOn (s : State) (r : Resume) (ws : List Word) (c base : Nat) : State :=
  let core := coreOf c
  if saveForm ws = 2 then
    (s.startCtx c { (s.ctx c).started (saveWord ws 0x20) (saveWord ws 0x108) base (saveVcount ws) (saveRot ws) 0
        ((List.range 32).map fun j => saveWord ws (0x300 + 8 * j)) with ready := s.firstFree core }).endResume r 0
  else if savePlan ws = 0 then
    ((s.restore r ws c base (s.firstFree core) none).rejoin c).endResume r 0
  else
    match s.readmit r ws c with
    | (.error v, s) => s.endResume r v
    | (.ok (t, b, p), s) =>
      let f := faceOf core
      let s := s.bookPlan f b
        { core := core, ctx := some c, part := s.partOf core, start := t
          rows := p.uses core t (s.lease core), slip := bitsOf (saveNat ws 0x818) 0 8 == 1, slack := p.slack, code := p.code
          base := saveWord ws 0x820, ready := s.tick + p.lead, ratio := p.ratio, planIa := savePlan ws, resume := some r.id
          vbase := base, vcnt := saveVcount ws, cut := saveOffset ws }
      let s := s.preload core b (s.coreReq c true) (windowSet ((List.range 32).map fun j => saveWord ws (0x300 + 8 * j)))
      { s with resumes := s.resumes.map fun q => if q.id = r.id then { q with booked := true } else q }

/-- The checks of R423 in order, then the start. -/
def State.resumeNow (s : State) (r : Resume) (c : Nat) : State :=
  match s.readSave r with
  | (none, s) => s.endResume r 5
  | (some ws, s) =>
    if !saveHeaderOk ws || (r.target.isNone && s.ownerOf (faceOf (coreOf c)) != some r.part) then s.endResume r 5
    else if !s.isIdle c then s.endResume r 1
    else if saveForm ws = 1 && bitsOf (saveNat ws 0x208) 2 2 != 0 && r.priv < 2 then s.endResume r 6
    else if !saveValuesOk ws c then s.endResume r 5
    else match s.freeBase (coreOf c) (saveVcount ws) with
      | none => s.endResume r 2
      | some base => s.resumeOn r ws c base

/-- The copies and results that the save area names are complete: the target is checked and started (R423). -/
def execResumeStart (id : Nat) (s : State) : Host.Outcome State Fault Refusal :=
  match s.resumes.find? fun r => r.id == id with
  | none => .next s
  | some r =>
    if !s.resumeDue r then .next s
    else match s.resumeTarget r with
      | none => .next (s.endResume r 5)
      | some c => .next (if r.stopped then (s.cancelReadmit c r).endResume r 7 else s.resumeNow r c)

/-- The start tick of a readmitted remainder has come: the context is restored at its place in the tick (R425). -/
def State.startRemainder (s : State) (bid : Nat) (b : Booking) : State :=
  match b.resume.bind fun id => s.resumes.find? fun r => r.id == id, b.ctx with
  | some r, some c =>
    match s.readSave r with
    | (none, s) => (s.cancelReadmit c r).endResume r 5
    | (some ws, s) =>
      ((s.restore r ws c b.vbase (32 * b.start + savePhase ws) (some bid)).rejoin c).endResume r 0
  | _, _ => s

end Sys2Proof.Machine
end

