-- ==== Sys2Proof/Machine/Vector.lean ====
section
/-! DEFINITION. The instructions of slots VA and VB: elementwise arithmetic, moves along and across the tile,
reductions, scans, conversions and single lanes (R46, R47, R138 to R162). -/

namespace Sys2Proof.Machine

/-! ## Shapes -/

/-- The occupancy of VA: 4 cycles from issue (R40). -/
def State.holdVa (s : State) : State := s.onCore s.iss.core fun k => { k with vaFree := s.cycle + 4 }
/-- The occupancy of VB: `n` cycles from issue (R40). -/
def State.holdVb (s : State) (n : Nat) : State := s.onCore s.iss.core fun k => { k with vbFree := s.cycle + n }

def vaWait : State → Option (Bool × State) := waitEngine (fun s => s.ico.vaFree) 4
def vbWait (n : Nat) : State → Option (Bool × State) := waitEngine (fun s => s.ico.vbFree) n

/-- A VA instruction that writes `f s i` to lane `i` of vd (R141). -/
def vaOp (i : Instr) (p : BitVec 4) (rs : List (BitVec 5)) (rv : List (BitVec 6)) (d : BitVec 6) (lat : Nat)
    (f : State → Nat → Lane) (s : State) : Host.Outcome State Fault Refusal :=
  slotOp i (some p) { rs := rs, rv := rv, wv := [d], lat := lat } false vaWait noCause
    (fun s => (s.resultV lat d (tileOf (f s))).holdVa) s

/-- vd := f(va, vb), lane by lane; `f` is given the origin NaN of the lane. -/
def va2 (i : Instr) (p : BitVec 4) (d a b : BitVec 6) (lat : Nat) (f : Lane → Lane → Lane → Lane) (s : State) :
    Host.Outcome State Fault Refusal :=
  vaOp i p [] [a, b] d lat (fun s => let x := s.vreg a; let y := s.vreg b
    fun j => f (originNaN s.iss.pc j) (lane x j) (lane y j)) s

/-- vd := f(va), lane by lane. -/
def va1 (i : Instr) (p : BitVec 4) (d a : BitVec 6) (lat : Nat) (f : Lane → Lane → Lane) (s : State) :
    Host.Outcome State Fault Refusal :=
  vaOp i p [] [a] d lat (fun s => let x := s.vreg a
    fun j => f (originNaN s.iss.pc j) (lane x j)) s

/-- vd := f(va, vb, old vd), lane by lane. -/
def va3 (i : Instr) (p : BitVec 4) (d a b : BitVec 6) (lat : Nat) (f : Lane → Lane → Lane → Lane → Lane) (s : State) :
    Host.Outcome State Fault Refusal :=
  vaOp i p [] [a, b, d] d lat (fun s => let x := s.vreg a; let y := s.vreg b; let z := s.vreg d
    fun j => f (originNaN s.iss.pc j) (lane x j) (lane y j) (lane z j)) s

/-- vd := f(va, sb[31:0]), lane by lane. -/
def vaS (i : Instr) (p : BitVec 4) (d a : BitVec 6) (b : BitVec 5) (lat : Nat) (f : Lane → Lane → Lane → Lane)
    (s : State) : Host.Outcome State Fault Refusal :=
  vaOp i p [b] [a] d lat (fun s => let x := s.vreg a; let y : Lane := (s.cx.sreg b).truncate 32
    fun j => f (originNaN s.iss.pc j) (lane x j) y) s

/-- A VB instruction that writes a whole tile. -/
def vbOp (i : Instr) (p : BitVec 4) (rs : List (BitVec 5)) (rv : List (BitVec 6)) (d : BitVec 6) (lat : Nat)
    (f : State → Nat → Lane) (s : State) : Host.Outcome State Fault Refusal :=
  slotOp i (some p) { rs := rs, rv := rv, wv := [d], lat := lat } false (vbWait 4) noCause
    (fun s => (s.resultV lat d (tileOf (f s))).holdVb 4) s

/-- vd(r, c) := va(row, column), the source of each lane given by `from`, a function of r and c (R138). -/
def vbMove (i : Instr) (p : BitVec 4) (rs : List (BitVec 5)) (d a : BitVec 6) (lat : Nat)
    (src : State → Nat → Nat → Nat × Nat) (s : State) : Host.Outcome State Fault Refusal :=
  vbOp i p rs [a] d lat (fun s => let x := s.vreg a
    fun j => let t := src s (j / 64) (j % 64); lane x (64 * t.1 + t.2)) s

/-! ## Lane functions -/

/-- −1 where the condition holds (R152). -/
def maskLane (b : Bool) : Lane := if b then 0xFFFFFFFF else 0

/-- The four lane conditions EQ, NE, LT, LE of R152, on unsigned or signed lanes. -/
def laneCond (cc : Nat) (signed : Bool) (a b : Lane) : Bool :=
  match cc with
  | 0 => a == b
  | 1 => a != b
  | 2 => if signed then a.slt b else a.ult b
  | _ => if signed then a.sle b else a.ule b

def maxI (a b : Lane) : Lane := if a.sle b then b else a
def minI (a b : Lane) : Lane := if a.sle b then a else b

/-- SHL 0, SHR 1, SRA 2 of R150. -/
def laneShift (op : Nat) (a : Lane) (n : Nat) : Lane :=
  match op with
  | 0 => a <<< n
  | 1 => a >>> n
  | _ => a.sshiftRight n

/-- The three forms of VABS.F (R146). -/
def signOp (m : Nat) (a : Lane) : Lane :=
  match m with
  | 0 => a &&& 0x7FFFFFFF
  | 1 => a ^^^ 0x80000000
  | _ => a ||| 0x80000000

/-- Byte `e` of a lane, and its value as a signed number (R54). -/
def laneByte (x : Lane) (e : Nat) : Nat := x.toNat / 2 ^ (8 * e) % 256

/-- The saturated four-byte dot product of R154. -/
def dot4 (uns : Bool) (a b d : Lane) : Lane :=
  BitVec.ofInt 32 (sat ((List.range 4).foldl (fun (t : Int) e =>
    t + (if uns then (laneByte a e : Int) else sext 8 (laneByte a e)) * sext 8 (laneByte b e)) d.toInt)
    (-(2 ^ 31)) (2 ^ 31 - 1))

/-! ## Elementwise floating point (R145 to R148) -/

def execVaddF (p : BitVec 4) (d a b : BitVec 6) (s : State) : Host.Outcome State Fault Refusal :=
  va2 (.vaddF p d a b) p d a b 6 fadd s
def execVsubF (p : BitVec 4) (d a b : BitVec 6) (s : State) : Host.Outcome State Fault Refusal :=
  va2 (.vsubF p d a b) p d a b 6 fsub s
def execVmulF (p : BitVec 4) (d a b : BitVec 6) (s : State) : Host.Outcome State Fault Refusal :=
  va2 (.vmulF p d a b) p d a b 6 fmul s
def execVfmaF (p : BitVec 4) (d a b : BitVec 6) (s : State) : Host.Outcome State Fault Refusal :=
  va3 (.vfmaF p d a b) p d a b 6 ffma s
def execVmaxF (p : BitVec 4) (d a b : BitVec 6) (s : State) : Host.Outcome State Fault Refusal :=
  va2 (.vmaxF p d a b) p d a b 6 (fun _ => fmaxOp) s
def execVminF (p : BitVec 4) (d a b : BitVec 6) (s : State) : Host.Outcome State Fault Refusal :=
  va2 (.vminF p d a b) p d a b 6 (fun _ => fminOp) s
def execVaddsF (p : BitVec 4) (d a : BitVec 6) (b : BitVec 5) (s : State) : Host.Outcome State Fault Refusal :=
  vaS (.vaddsF p d a b) p d a b 6 fadd s
def execVmulsF (p : BitVec 4) (d a : BitVec 6) (b : BitVec 5) (s : State) : Host.Outcome State Fault Refusal :=
  vaS (.vmulsF p d a b) p d a b 6 fmul s
def execVfmasF (p : BitVec 4) (d a : BitVec 6) (b : BitVec 5) (s : State) : Host.Outcome State Fault Refusal :=
  vaOp (.vfmasF p d a b) p [b] [a, d] d 6 (fun s => let x := s.vreg a; let z := s.vreg d
    let y : Lane := (s.cx.sreg b).truncate 32
    fun j => ffma (originNaN s.iss.pc j) (lane x j) y (lane z j)) s
def execVabsF (p : BitVec 4) (d a : BitVec 6) (m : BitVec 2) (s : State) : Host.Outcome State Fault Refusal :=
  va1 (.vabsF p d a m) p d a 6 (fun _ => signOp m.toNat) s
def execVexp2 (p : BitVec 4) (d a b : BitVec 6) (s : State) : Host.Outcome State Fault Refusal :=
  slotOp (.vexp2 p d a b) (some p) { rv := [a, b], wv := [d], rr := [0x006], lat := 10 } false vaWait noCause
    (fun s => let x := s.vreg a; let y := s.vreg b
      (s.resultV 10 d (tileOf fun j => fexp2 (originNaN s.iss.pc j) (lane x j) (lane y j) s.cx.esc)).holdVa) s
def execVrcp (p : BitVec 4) (d a : BitVec 6) (s : State) : Host.Outcome State Fault Refusal :=
  va1 (.vrcp p d a) p d a 12 (fun _ => frcp) s
def execVrsq (p : BitVec 4) (d a : BitVec 6) (s : State) : Host.Outcome State Fault Refusal :=
  va1 (.vrsq p d a) p d a 12 frsq s

/-! ## Integer and bitwise lanes (R149 to R154) -/

def execVaddI (p : BitVec 4) (d a b : BitVec 6) (s : State) : Host.Outcome State Fault Refusal :=
  va2 (.vaddI p d a b) p d a b 4 (fun _ x y => x + y) s
def execVsubI (p : BitVec 4) (d a b : BitVec 6) (s : State) : Host.Outcome State Fault Refusal :=
  va2 (.vsubI p d a b) p d a b 4 (fun _ x y => x - y) s
def execVmulI (p : BitVec 4) (d a b : BitVec 6) (s : State) : Host.Outcome State Fault Refusal :=
  va2 (.vmulI p d a b) p d a b 4 (fun _ x y => x * y) s
def execVmaxI (p : BitVec 4) (d a b : BitVec 6) (s : State) : Host.Outcome State Fault Refusal :=
  va2 (.vmaxI p d a b) p d a b 4 (fun _ => maxI) s
def execVminI (p : BitVec 4) (d a b : BitVec 6) (s : State) : Host.Outcome State Fault Refusal :=
  va2 (.vminI p d a b) p d a b 4 (fun _ => minI) s
def execVand (p : BitVec 4) (d a b : BitVec 6) (s : State) : Host.Outcome State Fault Refusal :=
  va2 (.vand p d a b) p d a b 4 (fun _ x y => x &&& y) s
def execVor (p : BitVec 4) (d a b : BitVec 6) (s : State) : Host.Outcome State Fault Refusal :=
  va2 (.vor p d a b) p d a b 4 (fun _ x y => x ||| y) s
def execVxor (p : BitVec 4) (d a b : BitVec 6) (s : State) : Host.Outcome State Fault Refusal :=
  va2 (.vxor p d a b) p d a b 4 (fun _ x y => x ^^^ y) s
def execVshl (p : BitVec 4) (d a b : BitVec 6) (s : State) : Host.Outcome State Fault Refusal :=
  va2 (.vshl p d a b) p d a b 4 (fun _ x y => laneShift 0 x (y.toNat % 32)) s
def execVshr (p : BitVec 4) (d a b : BitVec 6) (s : State) : Host.Outcome State Fault Refusal :=
  va2 (.vshr p d a b) p d a b 4 (fun _ x y => laneShift 1 x (y.toNat % 32)) s
def execVsra (p : BitVec 4) (d a b : BitVec 6) (s : State) : Host.Outcome State Fault Refusal :=
  va2 (.vsra p d a b) p d a b 4 (fun _ x y => laneShift 2 x (y.toNat % 32)) s
def execVshifti (p : BitVec 4) (d a : BitVec 6) (o : BitVec 2) (n : BitVec 6) (s : State) :
    Host.Outcome State Fault Refusal :=
  va1 (.vshifti p d a o n) p d a 4 (fun _ x => laneShift o.toNat x n.toNat) s
def execVaddiI (p : BitVec 4) (d a : BitVec 6) (i : BitVec 8) (s : State) : Host.Outcome State Fault Refusal :=
  vaOp (.vaddiI p d a i) p [] [a] d 4 (fun s => let x := s.vreg a; let k := BitVec.ofInt 32 (s.imm i)
    fun j => lane x j + k) s
def execVcmpf (p : BitVec 4) (d a b : BitVec 6) (c : BitVec 2) (s : State) : Host.Outcome State Fault Refusal :=
  va2 (.vcmpf p d a b c) p d a b 4 (fun _ x y => maskLane (fcmp c.toNat x y)) s
def execVcmpi (p : BitVec 4) (d a b : BitVec 6) (c : BitVec 2) (s : State) : Host.Outcome State Fault Refusal :=
  va2 (.vcmpi p d a b c) p d a b 4 (fun _ x y => maskLane (laneCond c.toNat true x y)) s
def execVcmpu (p : BitVec 4) (d a b : BitVec 6) (c : BitVec 2) (s : State) : Host.Outcome State Fault Refusal :=
  va2 (.vcmpu p d a b c) p d a b 4 (fun _ x y => maskLane (laneCond c.toNat false x y)) s
/-- The old vd is the mask (R153). -/
def execVsel (p : BitVec 4) (d a b : BitVec 6) (s : State) : Host.Outcome State Fault Refusal :=
  va3 (.vsel p d a b) p d a b 4 (fun _ x y m => (x &&& m) ||| (y &&& ~~~m)) s
def execVdot4 (p : BitVec 4) (d a b : BitVec 6) (s : State) : Host.Outcome State Fault Refusal :=
  va3 (.vdot4 p d a b) p d a b 6 (fun _ x y z => dot4 false x y z) s
def execVdot4u (p : BitVec 4) (d a b : BitVec 6) (s : State) : Host.Outcome State Fault Refusal :=
  va3 (.vdot4u p d a b) p d a b 6 (fun _ x y z => dot4 true x y z) s

/-! ## Moves, rotations and broadcasts (R155 to R157) -/

def execVmov (p : BitVec 4) (d a : BitVec 6) (s : State) : Host.Outcome State Fault Refusal :=
  vbMove (.vmov p d a) p [] d a 2 (fun _ r c => (r, c)) s
def execVsplat (p : BitVec 4) (d : BitVec 6) (b : BitVec 5) (s : State) : Host.Outcome State Fault Refusal :=
  vbOp (.vsplat p d b) p [b] [] d 2 (fun s => let x : Lane := (s.cx.sreg b).truncate 32; fun _ => x) s
/-- The row, the column or the linear index of each lane (R155). -/
def execVidx (p : BitVec 4) (d : BitVec 6) (m : BitVec 2) (s : State) : Host.Outcome State Fault Refusal :=
  vbOp (.vidx p d m) p [] [] d 2 (fun _ j => BitVec.ofNat 32 (match m.toNat with
    | 0 => j / 64
    | 1 => j % 64
    | _ => j)) s
def execRrot (p : BitVec 4) (d a : BitVec 6) (n : BitVec 8) (s : State) : Host.Outcome State Fault Refusal :=
  vbMove (.rrot p d a n) p [] d a 3 (fun _ r c => (r, (c + 64 - n.toNat % 64) % 64)) s
def execCrot (p : BitVec 4) (d a : BitVec 6) (n : BitVec 8) (s : State) : Host.Outcome State Fault Refusal :=
  vbMove (.crot p d a n) p [] d a 5 (fun _ r c => ((r + 16 - n.toNat % 16) % 16, c)) s
def execRrotv (p : BitVec 4) (d a : BitVec 6) (b : BitVec 5) (s : State) : Host.Outcome State Fault Refusal :=
  vbMove (.rrotv p d a b) p [b] d a 3 (fun s r c => (r, (c + 64 - (s.cx.sreg b).toNat % 64) % 64)) s
def execRbcst (p : BitVec 4) (d a : BitVec 6) (k : BitVec 8) (s : State) : Host.Outcome State Fault Refusal :=
  vbMove (.rbcst p d a k) p [] d a 3 (fun _ r _ => (r, k.toNat)) s
def execCbcst (p : BitVec 4) (d a : BitVec 6) (k : BitVec 8) (s : State) : Host.Outcome State Fault Refusal :=
  vbMove (.cbcst p d a k) p [] d a 5 (fun _ _ c => (k.toNat, c)) s

/-! ## Reductions and scans (R77, R78, R158, R159) -/

/-- One node: the operation code, the origin NaN, the left and the right operand. -/
def redNode (op : Nat) (org x y : Lane) : Lane :=
  match op with
  | 0 => fadd org x y
  | 1 => fmaxOp x y
  | 2 => fminOp x y
  | 3 => x + y
  | 4 => maxI x y
  | 5 => minI x y
  | _ => x ^^^ y

/-- The fixed tree: at each level position i takes i and i + h; `org i` is the origin NaN of position i (R77). -/
def redTree (op : Nat) (org : Nat → Lane) : List Nat → List Lane → Lane
  | [], l => l.getD 0 0
  | h :: hs, l => redTree op org hs ((List.range h).map fun i => redNode op (org i) (l.getD i 0) (l.getD (i + h) 0))

/-- The reduction of row `r`. -/
def redRow (op : Nat) (pc : Word) (t : Tile) (r : Nat) : Lane :=
  redTree op (fun c => originNaN pc (64 * r + c)) [32, 16, 8, 4, 2, 1] ((List.range 64).map fun c => lane t (64 * r + c))

/-- The reduction of column `c`. -/
def redCol (op : Nat) (pc : Word) (t : Tile) (c : Nat) : Lane :=
  redTree op (fun r => originNaN pc (64 * r + c)) [8, 4, 2, 1] ((List.range 16).map fun r => lane t (64 * r + c))

/-- The inclusive scan of one row, from column `c` on, after the value `y` (R78). -/
def scanFrom (op : Nat) (org : Nat → Lane) (y : Lane) : Nat → List Lane → List Lane
  | _, [] => []
  | c, x :: xs =>
    let z := redNode op (org c) y x
    z :: scanFrom op org z (c + 1) xs

/-- The scan of row `r`. -/
def scanRow (op : Nat) (pc : Word) (t : Tile) (r : Nat) : List Lane :=
  let x0 := lane t (64 * r)
  x0 :: scanFrom op (fun c => originNaN pc (64 * r + c)) x0 1 ((List.range 63).map fun c => lane t (64 * r + c + 1))

def execRred (p : BitVec 4) (d a o : BitVec 6) (s : State) : Host.Outcome State Fault Refusal :=
  vbOp (.rred p d a o) p [] [a] d 9 (fun s =>
    let rows := (List.range 16).map fun r => redRow o.toNat s.iss.pc (s.vreg a) r
    fun j => rows.getD (j / 64) 0) s
def execCred (p : BitVec 4) (d a o : BitVec 6) (s : State) : Host.Outcome State Fault Refusal :=
  vbOp (.cred p d a o) p [] [a] d 6 (fun s =>
    let cols := (List.range 64).map fun c => redCol o.toNat s.iss.pc (s.vreg a) c
    fun j => cols.getD (j % 64) 0) s
def execRscan (p : BitVec 4) (d a o : BitVec 6) (s : State) : Host.Outcome State Fault Refusal :=
  vbOp (.rscan p d a o) p [] [a] d 11 (fun s =>
    let t := (List.range 16).flatMap fun r => scanRow o.toNat s.iss.pc (s.vreg a) r
    fun j => lane t j) s

/-! ## Conversion and single lanes (R160 to R162) -/

/-- The kinds of VCVT (R160). -/
def cvtLane (k : Nat) (x : Lane) : Lane :=
  match k with
  | 0 => BitVec.ofInt 32 (f32ToInt false (-(2 ^ 31)) (2 ^ 31 - 1) x)
  | 1 => BitVec.ofInt 32 (f32ToInt true (-(2 ^ 31)) (2 ^ 31 - 1) x)
  | 2 => rneInt x.toInt 0
  | 3 => rtzInt x.toInt
  | 4 => rneInt x.toNat 0
  | 5 => roundTrip fmtBF16 x
  | 6 => roundTrip fmtF16 x
  | 7 => roundTrip fmtE4M3 x
  | _ => roundTrip fmtE5M2 x

def execVcvt (p : BitVec 4) (d a : BitVec 6) (k : BitVec 8) (s : State) : Host.Outcome State Fault Refusal :=
  vbOp (.vcvt p d a k) p [] [a] d 5 (fun s => let x := s.vreg a; fun j => cvtLane k.toNat (lane x j)) s

def execVget (p : BitVec 4) (d : BitVec 5) (a : BitVec 6) (i : BitVec 8) (s : State) :
    Host.Outcome State Fault Refusal :=
  slotOp (.vget p d a i) (some p) { rv := [a], ws := [d], lat := 3 } false (vbWait 1) noCause
    (fun s => (s.resultS 3 d ((lane (s.vreg a) (vxLane (s.immVx i))).signExtend 64)).holdVb 1) s

/-- One lane is written; the others keep their values, and a pending write of vd is not waited for (R162). -/
def execVput (p : BitVec 4) (d : BitVec 6) (a : BitVec 5) (i : BitVec 8) (s : State) :
    Host.Outcome State Fault Refusal :=
  slotOp (.vput p d a i) (some p) { rs := [a], wv := [d], lat := 3, lone := true } false (vbWait 1) noCause
    (fun s => (s.result 3 (.lane (s.cx.phys d.toNat) (vxLane (s.immVx i)) ((s.cx.sreg a).truncate 32))).holdVb 1) s

end Sys2Proof.Machine
end

