-- ==== Sys2Proof/Machine/Transform.lean ====
section
/-! DEFINITION. The transform units of slot XC: transpose, pack and unpack, bit planes, and the narrow format register
(R50, R51, R163 to R168). -/

namespace Sys2Proof.Machine

def xcWait : State → Option (Bool × State) := waitEngine (fun s => s.ico.xcFree) 4

/-- The occupancy of the transform units: 4 cycles (R40, R163). -/
def State.holdXc (s : State) : State := s.onCore s.iss.core fun k => { k with xcFree := s.cycle + 4 }

/-- A transform that writes a whole tile. -/
def xcOp (i : Instr) (p : BitVec 4) (rv : List (BitVec 6)) (rr : List Nat) (d : BitVec 6) (lat : Nat)
    (causes : State → List Cause) (f : State → Nat → Lane) (s : State) : Host.Outcome State Fault Refusal :=
  slotOp i (some p) { rv := rv, wv := [d], rr := rr, lat := lat } false xcWait causes
    (fun s => (s.resultV lat d (tileOf (f s))).holdXc) s

/-- Each 16 × 16 block is transposed in place (R164). -/
def execXtrn (p : BitVec 4) (d a : BitVec 6) (s : State) : Host.Outcome State Fault Refusal :=
  xcOp (.xtrn p d a) p [a] [] d 8 noCause (fun s => let x := s.vreg a
    fun i => let r := i / 64; let c := i % 64
      lane x (64 * (c % 16) + 16 * (c / 16) + r)) s

/-! ## XCVT (R165) -/

/-- A lane whose byte `e` is `f e`. -/
def packBytes (f : Nat → Nat) : Lane :=
  BitVec.ofNat 32 ((List.range 4).foldl (fun t e => t + f e % 256 * 2 ^ (8 * e)) 0)

/-- The byte that a packing kind makes of one lane. -/
def packByte (k : Nat) (x : Lane) : Nat :=
  match k with
  | 0 => (sat x.toInt (-128) 127 % 256).toNat
  | 1 => (sat x.toInt 0 255).toNat
  | 4 => narrow fmtE4M3 x
  | _ => narrow fmtE5M2 x

/-- The lane that an unpacking kind makes of one byte. -/
def unpackByte (k b : Nat) : Lane :=
  match k with
  | 2 => BitVec.ofInt 32 (sext 8 b)
  | 3 => BitVec.ofNat 32 b
  | 6 => widen fmtE4M3 b
  | _ => widen fmtE5M2 b

/-- The NARROW row that PKNR packs, as a number (R165). -/
def packNarrowRow (n : Word) (t : Tile) (r : Nat) : Nat :=
  let q := narrowRange n
  packCodes (nfrWidth n)
    ((List.range 64).map fun j => (sat (lane t (64 * r + j)).toInt q.1 q.2 % 2 ^ nfrWidth n).toNat)

/-- The NARROW row that lanes 0 to 2w − 1 hold, as a number. -/
def narrowRowBits (n : Word) (t : Tile) (r : Nat) : Nat :=
  packCodes 32 ((List.range (2 * nfrWidth n)).map fun j => (lane t (64 * r + j)).toNat)

/-- Lane `c` of row `r` under kind `k`. -/
def xcvtLane (n : Word) (k : Nat) (x : Tile) (r c : Nat) : Lane :=
  if k = 0 ∨ k = 1 ∨ k = 4 ∨ k = 5 then
    if c < 16 then packBytes fun e => packByte k (lane x (64 * r + 4 * c + e)) else 0
  else if k = 8 then BitVec.ofNat 32 (bitsOf (packNarrowRow n x r) (32 * c) 32)
  else if k = 9 then BitVec.ofInt 32 (narrowVal n (bitsOf (narrowRowBits n x r) (nfrWidth n * c) (nfrWidth n)))
  else unpackByte k (laneByte (lane x (64 * r + c / 4)) (c % 4))

def execXcvt (p : BitVec 4) (d a : BitVec 6) (k : BitVec 8) (s : State) : Host.Outcome State Fault Refusal :=
  xcOp (.xcvt p d a k) p [a] [] d 6 noCause (fun s => let x := s.vreg a; let n : Word := s.cx.nfrXc.zeroExtend 64
    fun i => xcvtLane n k.toNat x (i / 64) (i % 64)) s

/-! ## Planes (R166, R167) -/

/-- The 8-bit code of a lane for a plane split (R166). -/
def planeCode (uns : Bool) (x : Lane) : Nat :=
  if uns then (sat x.toInt 0 255).toNat else (sat x.toInt (-128) 127 % 256).toNat

/-- Lane (7 − j, L) of the plane form of two tiles: 16 lanes per patch, two patches per tile (R166). -/
def planeSplitLane (uns : Bool) (x y : Tile) (row l : Nat) : Lane :=
  if 8 ≤ row then 0
  else
    let src := if l < 32 then x else y
    let patch := l / 16 % 2
    BitVec.ofNat 32 ((List.range 32).foldl (fun t b =>
      let byte := 4 * (l % 16) + b / 8
      let r := 8 * patch + byte / 8
      let c := 8 * (byte % 8) + b % 8
      t + bitsOf (planeCode uns (lane src (64 * r + c))) (7 - row) 1 * 2 ^ b) 0)

def execXpls (p : BitVec 4) (d a b : BitVec 6) (s : State) : Host.Outcome State Fault Refusal :=
  xcOp (.xpls p d a b) p [a, b] [0x007] d 7 noCause (fun s => let x := s.vreg a; let y := s.vreg b
    let u := pqUns s.cx.pq
    fun i => planeSplitLane u x y (i / 64) (i % 64)) s

/-- The code whose top planes tile 0 of a plane-form register holds for element (r, c), the lower planes 0. -/
def planeFormCode (x : Tile) (q r c : Nat) : Nat :=
  let byte := r % 8 * 8 + c / 8
  let l := 16 * (r / 8) + byte / 4
  (List.range q).foldl (fun t i => t + bitsOf (lane x (64 * i + l)).toNat (8 * (byte % 4) + c % 8) 1 * 2 ^ (7 - i)) 0

/-- PQ.Q outside 1 to 8 is ILLOP, found at issue (R43, R167). -/
def execXplm (p : BitVec 4) (d a b : BitVec 6) (s : State) : Host.Outcome State Fault Refusal :=
  xcOp (.xplm p d a b) p [a, b] [0x007] d 7
    (fun s => if 1 ≤ pqQ s.cx.pq ∧ pqQ s.cx.pq ≤ 8 then [] else [kILLOP])
    (fun s => let x := s.vreg a; let y := s.vreg b; let q := s.cx.pq
      fun i => lane y i + BitVec.ofInt 32
        (planeReading (pqUns q) (pqCen q) (pqQ q) (planeFormCode x (pqQ q) (i / 64) (i % 64)))) s

/-! ## XFMT (R51, R168) -/

/-- The width field of a written narrow format is 1 to 8 (R51). -/
def nfrWidthOk (v : Word) : Bool := 1 ≤ v.toNat % 16 && v.toNat % 16 ≤ 8

/-- The value that a narrow format register takes: bits [15:0], [7:6] ignored. -/
def nfrValue (v : Word) : BitVec 16 := v.truncate 16 &&& 0xFF3F

/-- A narrow format register takes a value that the third bundle after this one sees (R51). -/
def State.setNfr (s : State) (xc : Bool) (v : Word) : State :=
  s.onCx fun x => { x with nfrPend := x.nfrPend ++ [(xc, nfrValue v, 3)] }

def execXfmt (p : BitVec 4) (g : BitVec 5) (s : State) : Host.Outcome State Fault Refusal :=
  slotOp (.xfmt p g) (some p) { rs := [g] } false noWait
    (fun s => if nfrWidthOk (s.cx.sreg g) then [] else [kILLOP])
    (fun s => s.setNfr true (s.cx.sreg g)) s

end Sys2Proof.Machine
end

