-- ==== Sys2Proof/Machine/Array.lean ====
section
/-! DEFINITION. The matrix arrays: macro-ops and their operands, the sequencer with its WINDOW and LEASE modes, exact
sums, drains, poison, progress and MRESUME, the weight-bank swap and the cycle accounting (R225 to R255). -/

namespace Sys2Proof.Machine

/-! ## The fields of a macro-op (R234, R240) -/

def MxOp.g (o : MxOp) (i : Nat) : Word := wordAt o.group i
/-- B is a plane-major weight tensor: kinds P, MREF and MLUT. -/
def MxOp.planar (o : MxOp) : Bool := o.op != 1 || o.kind == 0
/-- Elements of one segment (R226). -/
def MxOp.segK (o : MxOp) : Nat := if o.op = 1 ∧ o.kind = 2 then 32 else 64
def MxOp.isCompute (o : MxOp) : Bool := o.op == 1 || o.op == 2 || o.op == 3
def MxOp.m (o : MxOp) : Nat := (o.g 6).toNat
def MxOp.q (o : MxOp) : Nat := bitsOf (o.g 5).toNat 0 4
def MxOp.cen (o : MxOp) : Bool := (o.g 5).getLsbD 4
def MxOp.qr (o : MxOp) : Nat := bitsOf (o.g 5).toNat 8 4
def MxOp.pstride (o : MxOp) : Nat := bitsOf (o.g 5).toNat 16 32
def MxOp.aStride (o : MxOp) : Int := (o.g 1).toInt
def MxOp.segStride (o : MxOp) : Int := (o.g 3).toInt

/-- The planes that a segment reads, from the highest down (R236, R238). -/
def MxOp.planes (o : MxOp) : List Nat :=
  if o.op = 2 then (List.range (o.qr - o.q)).map fun i => 7 - o.q - i
  else (List.range o.q).map fun i => 7 - i

/-- Bytes of C row (R243), or of an F32 row. -/
def MxOp.rowBytes (o : MxOp) : Nat := 32 * elemBits o.nfr (o.g 2).toNat

/-! ## Limits (R231, R234, R241, R243) -/

def multOf (n : Nat) (w : Word) : Bool := w.toNat % n == 0

/-- The plane control of R234. -/
def MxOp.planeOk (o : MxOp) : Bool :=
  let w := (o.g 5).toNat
  bitsOf w 48 16 == 0 && bitsOf w 12 4 == 0 && bitsOf w 5 3 == 0 && o.pstride % 64 == 0 &&
  (match o.op with
    | 2 => 1 ≤ o.q && o.q ≤ 7 && o.q < o.qr && o.qr ≤ 8
    | 3 => 1 ≤ o.q && o.q ≤ 2 && o.qr == 0
    | _ => 2 ≤ o.q && o.q ≤ 8 && o.qr == 0) &&
  (o.planes.length ≤ 1 || o.pstride != 0)

/-- The limits of the group, addresses apart. -/
def MxOp.groupOk (o : MxOp) : Bool :=
  let rowsOk (w : Word) : Bool := 16 ≤ w.toNat && w.toNat ≤ 128 && w.toNat % 16 == 0
  match o.op with
  | 4 => true
  | 5 => multOf 64 (o.g 1) && (o.g 2).toNat ≤ 1 && rowsOk (o.g 6) && o.g 3 == 0 && o.g 4 == 0 && o.g 5 == 0 && o.g 7 == 0
  | 6 =>
    let f := (o.g 2).toNat
    let fl := (o.g 5).toNat
    multOf 64 (o.g 1) && ((1 ≤ f && f ≤ 0xB) || f == 0xD) && (o.g 4).toNat < 2 ^ 32 && bitsOf fl 2 6 == 0 && fl < 2 ^ 16 &&
      bitsOf fl 8 8 != 0x80 && rowsOk (o.g 6) && o.g 7 == 0
  | _ =>
    multOf 64 (o.g 1) && multOf 64 (o.g 3) && multOf o.segK (o.g 4) && o.segK ≤ (o.g 4).toNat && (o.g 4).toNat ≤ 8192 &&
      1 ≤ o.m && o.m ≤ 128 && o.g 7 == 0 && (if o.planar then o.planeOk else o.g 5 == 0)

/-- The runs of bytes, by VA, of the A rows of a compute macro-op over all its segments (R235). -/
def MxOp.aSpans (o : MxOp) : List Span :=
  let n := (o.g 4).toNat / o.segK
  (List.range o.m).map fun (r : Nat) => { va := wrap64 ((o.g 0).toNat + r * o.aStride), len := 64 * n }

/-- The runs of one segment of B from offset 0: its planes, or 256 columns (R235). -/
def MxOp.bRuns (o : MxOp) : List (Nat × Nat) :=
  if o.planar then o.planes.map fun j => ((7 - j) * o.pstride, 2048) else [(0, 16384)]

def MxOp.bSpans (o : MxOp) : List Span :=
  (List.range ((o.g 4).toNat / o.segK)).flatMap fun g =>
    o.bRuns.map fun (off, n) => { va := wrap64 ((o.g 2).toNat + g * o.segStride + off), len := n }

/-- The execution faults of several operands in the order of R43: XLATE of any before ACCESS of any, and so on. -/
def orderCauses (ks : List Cause) : List Cause :=
  [0x0D, codeXLATE, codeACCESS, codeUNMAPPED, 0x0C, 0x14].flatMap fun c => ks.filter fun k => k.code == c

/-- The rows of an MLDACC or MDRAIN by VA (R241, R243): under COAT the length comes from the first coat of each row. -/
def State.mxRows (s : State) (o : MxOp) : List Span :=
  let w := findWindow s.cx.windows (o.g 0).toNat
  (List.range (o.g 6).toNat).map fun (r : Nat) =>
    let va := wrap64 ((o.g 0).toNat + r * (o.g 1).toInt)
    if o.op = 6 then { va := va, len := o.rowBytes }
    else if o.g 2 = 1 then { va := va, len := 1024 }
    else
      let sp := s.coatSpan s.iss.core (s.winReq w) w o.nfr va
      { va := va, len := if (match w with
          | none => false
          | some w => !(w.badByte (w.toIa va) va) && w.kindOk va &&
            (match (s.readVa s.iss.core (s.winReq (some w)) w va).1 with
              | .ok b => 1 ≤ coatCode b.coat && coatCode b.coat ≤ 0x0C
              | .fail _ => false)) then 4 * sp.len else 64 }

/-- The execution faults of a macro-op's operands. -/
def State.mxFaults (s : State) (o : MxOp) : List Cause :=
  let acc (base : Word) (sp : List Span) (u : Use) (k : List Nat) : List Cause :=
    accessCauses s.cx.windows s.ico.staging base.toNat sp u k
  let al (v : Word) : List Cause := if v.toNat % 64 = 0 then [] else [kALIGN v.toNat]
  match o.op with
  | 4 => []
  | 5 => orderCauses (al (o.g 0) ++ acc (o.g 0) (s.mxRows o) .read [1])
  | 6 =>
    let rows := s.mxRows o
    let bad := match rows.find? fun sp => !sp.aligned with
      | some sp => [kALIGN sp.va]
      | none => []
    orderCauses (bad ++ al (o.g 3) ++ acc (o.g 0) rows .write [1] ++
      if o.g 3 = 0 then [] else acc (o.g 3) [{ va := (o.g 3).toNat, len := 1024 }] .read [1])
  | _ => orderCauses (al (o.g 0) ++ al (o.g 2) ++ acc (o.g 0) o.aSpans .read [1] ++ acc (o.g 2) o.bSpans .read [1, 2])

/-- ACCESS of a macro-op that names the other core's bank in WINDOW mode (R227). -/
def State.mxModeFault (s : State) (o : MxOp) : List Cause :=
  if o.op != 4 && !(s.pair s.ipair).lease && o.acc != s.iss.core % 2 then [kACCESS 0] else []

/-! ## Translation at issue (R231) -/

/-- The macro-op with the IAs of its operands, its step count, and the sampled context. -/
def State.mxTranslate (s : State) (o : MxOp) : MxOp :=
  let ia (v : Word) : Nat := match findWindow s.cx.windows v.toNat with
    | some w => if w.kind = 2 then w.toIa v.toNat % 2 ^ 24 else s.effIa s.iss.core w v.toNat
    | none => 0
  let kind (v : Word) : Nat := ((findWindow s.cx.windows v.toNat).map Window.kind).getD 0
  match o.op with
  | 4 => { o with steps := 1 }
  | 5 => { o with aIa := ia (o.g 0), steps := (o.g 6).toNat / 16 }
  | 6 => { o with aIa := ia (o.g 0), biasIa := if o.g 3 = 0 then 0 else ia (o.g 3), steps := (o.g 6).toNat / 16 }
  | _ => { o with aIa := ia (o.g 0), bIa := ia (o.g 2), bWbank := kind (o.g 2) == 2, steps := (o.g 4).toNat / o.segK }

/-- IA of a byte at an offset from a base of region 0xA. -/
def mxIa (base : Nat) (off : Int) : Nat := (base + off).toNat

/-- The lowest byte and the end of a list of runs. -/
def spanRange (l : List (Nat × Nat)) : Nat × Nat :=
  (((l.map Prod.fst).min?).getD 0, ((l.map fun x => x.1 + x.2).max?).getD 0)

/-- A byte of C lies in an IA interval (R245). -/
def MxOp.cMeets (o : MxOp) (lo hi : Nat) : Bool :=
  (List.range (o.g 6).toNat).any fun (r : Nat) =>
    let ia := mxIa o.aIa (r * (o.g 1).toInt)
    lo < ia + o.rowBytes && ia < hi

/-- The IA interval of B in the scratchpad. -/
def MxOp.bRange (o : MxOp) : Nat × Nat :=
  spanRange ((List.range o.steps).flatMap fun (g : Nat) =>
    o.bRuns.map fun (off, n) => (mxIa o.bIa (g * o.segStride + off), n))

/-! ## One step: its length and its ports (R236, R240, R241, R244) -/

/-- Cycles of Tkind (R236, R240). -/
def MxOp.tkind (o : MxOp) : Nat :=
  let byPlanes (n : Nat) : Nat := if 5 ≤ n then 64 else if 3 ≤ n then 32 else 16
  match o.op with
  | 1 => if o.kind = 1 then 64 else if o.kind = 2 then 128 else byPlanes o.q
  | 2 => byPlanes (o.qr - o.q)
  | 3 => if o.q = 2 then 8 else 4
  | _ => 8

/-- What a step uses: its length, each bank with the offset and length of its use, and the cycles of the read port. -/
structure StepUse where
  len   : Nat
  banks : List (Nat × Nat × Nat)
  port  : Nat
  deriving DecidableEq, Repr

/-- Bytes moved in each bank by these runs of scratchpad bytes. -/
def bankSum (runs : List (Nat × Nat)) : Tbl Nat :=
  (runs.flatMap fun (ia, n) => ({ va := ia, len := n } : Span).cells 16).foldl (fun t c =>
    let b := bitsOf c.va 16 5
    Tbl.put t b (Tbl.look t b 0 + c.len)) []

def maxTerm (l : List (Nat × Nat × Nat)) : Nat := l.foldl (fun m x => max m x.2.2) 0

/-- The runs by IA that a compute step reads in the scratchpad, and its bytes through the weight bank. -/
def MxOp.aRuns (o : MxOp) (g : Nat) : List (Nat × Nat) :=
  (List.range o.m).map fun (r : Nat) => (mxIa o.aIa (r * o.aStride + 64 * g), 64)
def MxOp.bRunsAt (o : MxOp) (g : Nat) : List (Nat × Nat) :=
  o.bRuns.map fun (off, n) => (mxIa o.bIa (g * o.segStride + off), n)

/-- The row length of row `r` of an MLDACC as its coat stands. -/
def State.ldaccBytes (s : State) (o : MxOp) (r : Nat) : Nat :=
  if o.g 2 = 1 then 1024
  else
    let b := s.blockAt (devicePlace (mxIa o.aIa (r * (o.g 1).toInt)))
    if 1 ≤ coatCode b.coat && coatCode b.coat ≤ 0x0C then 4 * coatRowBytes o.nfr b.coat else 64

/-- What step `k` of a macro-op uses. -/
def State.stepUse (s : State) (o : MxOp) (k : Nat) : StepUse :=
  let rows := (List.range 16).map fun i => 16 * k + i
  match o.op with
  | 4 => { len := 8, banks := [], port := 0 }
  | 5 =>
    let banks := (bankSum (rows.map fun (r : Nat) => (mxIa o.aIa (r * (o.g 1).toInt), s.ldaccBytes o r))).map
      fun (b, n) => (b, 8, ceilDiv n 128)
    { len := 8 + max 16 (maxTerm banks), banks := banks, port := 0 }
  | 6 =>
    let banks := (bankSum (rows.map fun (r : Nat) => (mxIa o.aIa (r * (o.g 1).toInt), o.rowBytes))).map
      fun (b, n) => (b, 8, ceilDiv n 128)
    let bias := bitsOf o.biasIa 16 5
    -- the bias takes its bank for the first eight cycles, before any writes there; of one that crosses into a second bank only
    -- the bank of its first byte is taken (DESIGN CHOICE, log 136: R244 speaks of one bias bank)
    let all := if o.bias.isEmpty && o.biasIa != 0 then
        (bias, 0, 8 + ((banks.find? fun x => x.1 == bias).map fun x => x.2.2).getD 0) :: banks.filter fun x => x.1 != bias
      else banks
    { len := 8 + max 16 (maxTerm banks), banks := all, port := 0 }
  | _ =>
    let sp := o.aRuns k ++ if o.bWbank then [] else o.bRunsAt k
    let banks := (bankSum sp).map fun (b, n) => (b, 0, ceilDiv n 128)
    let wb := if o.bWbank then (o.bRuns.map Prod.snd).sum else 0
    let per := if (s.face (faceOf o.core)).ratio.getLsbD (pairOf o.core % 8) then 128 else 256
    { len := max o.tkind (max (ceilDiv wb per) (maxTerm banks)), banks := banks, port := ceilDiv wb per }

/-! ## Windows of time (R227) -/

/-- The first cycle at or after `t` that belongs to a core of this parity in WINDOW mode; every cycle in LEASE mode. -/
def alignTo (par : Option Nat) (t : Nat) : Nat :=
  match par with
  | none => t
  | some h => if t % 32 / 16 = h then t else if h = 1 then t / 32 * 32 + 16 else (t / 32 + 1) * 32

/-- The first cycle after `k` cycles of the core's own windows from `t`, which lies in one. -/
def advance16 (par : Option Nat) (t k : Nat) : Nat :=
  match par with
  | none => t + k
  | some h =>
    let o := t % 32 - 16 * h + k
    if k = 0 then t
    else if o % 16 = 0 then (t / 32 + o / 16 - 1) * 32 + 16 * h + 16
    else (t / 32 + o / 16) * 32 + 16 * h + o % 16

/-- The parity that a macro-op's steps keep, if its pair is in WINDOW mode. -/
def State.mxPar (s : State) (o : MxOp) : Option Nat := if s.lease o.core then none else some (o.core % 2)

/-- The total length of an uninterruptible drain in its own cycles (R245). -/
def State.drainTotal (s : State) (o : MxOp) : Nat := ((List.range o.steps).map fun k => (s.stepUse o k).len).sum

/-- The bounding interval of two, of which an empty one counts for nothing (R245). -/
def widenRange (a b : Nat × Nat) : Nat × Nat := if a.1 < a.2 then (min a.1 b.1, max a.2 b.2) else b

/-- The B range of a bank as it will stand after the macro-ops of a queue (R230, R245). -/
def rangeAfter (acc : Nat) (r : Nat × Nat) (l : List MxOp) : Nat × Nat :=
  l.foldl (fun r o =>
    if o.acc ≠ acc then r
    else if o.op = 4 ∨ o.op = 5 then (0, 0)
    else if o.isCompute && !o.bWbank then widenRange r o.bRange
    else r) r

/-- C of a drain overlaps a B range (R245). -/
def MxOp.cOver (o : MxOp) (r : Nat × Nat) : Bool := o.op == 6 && r.1 < r.2 && o.cMeets r.1 r.2

/-- C overlaps a B range read into the bank since its last MZERO or MLDACC, as the bank stands now (R245). -/
def State.overlapsB (s : State) (o : MxOp) : Bool :=
  let b := Tbl.look (s.pair (pairOf o.core)).acc o.acc {}
  o.cOver (b.bLo, b.bHi)

/-- C overlaps a B range that will have been read into the bank when the macro-op leaves its queue. -/
def State.willOverlapB (s : State) (o : MxOp) : Bool :=
  let p := s.pair s.ipair
  let b := Tbl.look p.acc o.acc {}
  o.cOver (rangeAfter o.acc (b.bLo, b.bHi) (p.queue (mxQueue s.iss.core (s.cx.run == .booked))))

/-! ## Issue (R230, R231, R242) -/

/-- The macro-op that a slot word makes of the context at the point of issue. -/
def State.mxMake (s : State) (op : Nat) (w : Instr) (c : BitVec 1) (kind : Nat) (g : BitVec 5) (e : BitVec 1)
    (f : BitVec 4) : MxOp :=
  { word := encode w, op := op, acc := c.toNat, kind := kind, group := if op = 4 then [] else s.cx.group g
    nfr := s.cx.nfrMx.zeroExtend 64, pc := s.iss.pc, flagEn := e == 1, flag := f.toNat, core := s.iss.core
    ctx := s.iss.ctx, bid := if s.cx.run = .booked then s.cx.bid else none
    task := (s.taskOf s.cx).map fun t => (t.1, t.2.seq) }

/-- Every cause that a macro-op raises on its own bundle. -/
def State.mxCauses (s : State) (o : MxOp) : List Cause :=
  if !o.groupOk then [kILLOP]
  else
    let t := s.mxTranslate o
    s.mxFaults o ++ s.mxModeFault o ++ if s.willOverlapB t && 512 < s.drainTotal t then [kACCESS (o.g 0).toNat] else []

/-- The macro-op enters its queue (R230). -/
def State.enqueueMx (s : State) (o : MxOp) : State :=
  let t := { s.mxTranslate o with issued := s.cycle }
  let q := mxQueue s.iss.core (s.cx.run == .booked)
  s.onPair s.ipair fun p => p.setQ q (p.queue q ++ [t])

/-- Entries left in the queue that the context's state selects. -/
def State.mxRoom (s : State) : Nat :=
  8 - ((s.pair s.ipair).queue (mxQueue s.iss.core (s.cx.run == .booked))).length

/-- A macro-op with its scalar group. -/
def mxOp (i : Instr) (p : BitVec 4) (op : Nat) (c : BitVec 1) (k : Nat) (g : BitVec 5) (e : BitVec 1) (f : BitVec 4)
    (s : State) : Host.Outcome State Fault Refusal :=
  let o := s.mxMake op i c k g e f
  slotOp i (some p) { rs := if op = 4 then [] else (List.range 8).map fun j => g + BitVec.ofNat 5 j } false
    (waitIf true fun s => s.mxRoom == 0) (fun s => s.mxCauses o) (fun s => s.enqueueMx o) s

def execMma (p : BitVec 4) (c : BitVec 1) (k : BitVec 2) (g : BitVec 5) (e : BitVec 1) (f : BitVec 4) (s : State) :
    Host.Outcome State Fault Refusal := mxOp (.mma p c k g e f) p 1 c k.toNat g e f s

def execMref (p : BitVec 4) (c : BitVec 1) (g : BitVec 5) (e : BitVec 1) (f : BitVec 4) (s : State) :
    Host.Outcome State Fault Refusal := mxOp (.mref p c g e f) p 2 c 0 g e f s

def execMlut (p : BitVec 4) (c : BitVec 1) (g : BitVec 5) (e : BitVec 1) (f : BitVec 4) (s : State) :
    Host.Outcome State Fault Refusal := mxOp (.mlut p c g e f) p 3 c 0 g e f s

def execMzero (p : BitVec 4) (c : BitVec 1) (s : State) : Host.Outcome State Fault Refusal :=
  mxOp (.mzero p c) p 4 c 0 0 0 0 s

def execMldacc (p : BitVec 4) (c : BitVec 1) (g : BitVec 5) (e : BitVec 1) (f : BitVec 4) (s : State) :
    Host.Outcome State Fault Refusal := mxOp (.mldacc p c g e f) p 5 c 0 g e f s

def execMdrain (p : BitVec 4) (c : BitVec 1) (g : BitVec 5) (e : BitVec 1) (f : BitVec 4) (s : State) :
    Host.Outcome State Fault Refusal := mxOp (.mdrain p c g e f) p 6 c 0 g e f s

/-- NFR.MX takes bits [15:0] of the scalar (R51, R242). -/
def execMfmt (p : BitVec 4) (g : BitVec 5) (s : State) : Host.Outcome State Fault Refusal :=
  slotOp (.mfmt p g) (some p) { rs := [g] } false noWait
    (fun s => if nfrWidthOk (s.cx.sreg g) then [] else [kILLOP]) (fun s => s.setNfr false (s.cx.sreg g)) s

/-! ## Progress and MRESUME (R248, R250) -/

/-- A macro-op of a queue with a step in progress counts that step as not yet completed. -/
def MxOp.completed (o : MxOp) (now : Nat) : MxOp :=
  if o.busy.any fun e => now < e then { o with seg := o.seg - 1, rows := o.rows - 16 } else o

/-- The progress record of the context at the point of issue (R248). DESIGN CHOICE (log 133): OP lists no value for an MZERO, so
one in progress is not shown, and one that is first among the held shows its opcode, 4. -/
def State.progress (s : State) : Word :=
  let p := s.pair s.ipair
  let here := ([0, 1].filterMap fun b => (p.queue (mxQueue s.iss.core (b == 1))).head?).find? fun o =>
    o.isOf s.cs && o.done != 0 && o.op != 4
  BitVec.ofNat 64 (match here with
    | some o => progressWord (some (o.completed s.cycle)) false
    | none => progressWord s.cx.held.head? true)

def execMprog (p : BitVec 4) (d : BitVec 5) (s : State) : Host.Outcome State Fault Refusal :=
  slotOp (.mprog p d) (some p) { ws := [d], lat := 2 } false noWait noCause (fun s => s.resultS 2 d s.progress) s

/-- A held macro-op as the resuming context queues it. -/
def State.revive (s : State) (o : MxOp) : MxOp :=
  { o with core := s.iss.core, ctx := s.iss.ctx, bid := if s.cx.run = .booked then s.cx.bid else none, busy := none
           parked := false, stuck := false, bias := []
           task := (s.taskOf s.cx).map fun t => (t.1, t.2.seq) }

/-- The causes of the held macro-ops, each checked again through the context's windows (R250). -/
def State.resumeMxCauses (s : State) : List Cause := s.cx.held.flatMap fun o => s.mxCauses (s.revive o)

/-- The first `n` held macro-ops enter the queue. -/
def State.enterHeld (s : State) (n : Nat) : State :=
  ((s.cx.held.take n).foldl (fun s o => s.enqueueMx (s.revive o)) s).onCx fun x => { x with held := x.held.drop n }

/-- The bundle holds while the queue has no room for the rest; what has room enters (R250). -/
def State.mresumeWait (s : State) : Option (Bool × State) :=
  if s.mxRoom < s.cx.held.length && (s.cx.sleep.resume || s.resumeMxCauses == []) then
    some (true, (s.enterHeld s.mxRoom).onCx fun x => { x with sleep := { x.sleep with resume := true } })
  else none

/-- What the held macro-ops of a core's contexts whose MRESUME has begun find room for enters as entries become free, in booked
ticks and between them (R112, R250). -/
def State.resumeHeld (s : State) (core : Nat) : State :=
  (List.range 4).foldl (fun s k =>
    if (s.ctx (4 * core + k)).sleep.resume && (s.pair (pairOf core)).freeze.isNone then
      { (let t := s.atIssue (4 * core + k); t.enterHeld t.mxRoom) with iss := {} }
    else s) s

def execMresume (p : BitVec 4) (s : State) : Host.Outcome State Fault Refusal :=
  slotOp (.mresume p) (some p) {} false State.mresumeWait (fun s => if s.cx.sleep.resume then [] else s.resumeMxCauses)
    (fun s => (s.enterHeld s.cx.held.length).onCx fun x => { x with sleep := { x.sleep with resume := false } }) s

/-! ## Exact sums (R76, R237) -/

/-- One product of two operand elements. -/
inductive Prod32 where
  | invalid
  | inf (neg : Bool)
  | fin (neg : Bool) (m : Nat) (e : Int)
  deriving DecidableEq, Repr

def prodOf (a b : Lane) : Prod32 :=
  match fv a, fv b with
  | .fin n1 m1 e1, .fin n2 m2 e2 => .fin (n1 ^^ n2) (m1 * m2) (e1 + e2)
  | .inf n1, .inf n2 => .inf (n1 ^^ n2)
  | .inf n1, .fin n2 m _ => if m = 0 then .invalid else .inf (n1 ^^ n2)
  | .fin n1 m _, .inf n2 => if m = 0 then .invalid else .inf (n1 ^^ n2)
  | _, _ => .invalid

/-- rne32 of the exact segment partial × 2^k (R76, R237); `org` is the origin NaN of an invalid sum. -/
def segPartial (org : Lane) (k : Int) (xs : List (Lane × Lane)) : Lane :=
  match (xs.flatMap fun x => [x.1, x.2]).find? isNan with
  | some z => quiet z
  | none =>
    let ps := xs.map fun x => prodOf x.1 x.2
    let hasInf (n : Bool) : Bool := ps.any fun p => p == .inf n
    if ps.contains .invalid || (hasInf false && hasInf true) then org
    else if hasInf false then 0x7F800000
    else if hasInf true then 0xFF800000
    else
      let e0 := ps.foldl (fun (m : Int) p => match p with
        | .fin _ m' e => if m' = 0 then m else min m e
        | _ => m) 0
      let sum := ps.foldl (fun (t : Int) p => match p with
        | .fin n m e => if m = 0 then t else t + atExp n m e e0
        | _ => t) 0
      rneInt sum (e0 + k)

/-! ## Operand blocks (R235) -/

/-- Byte `k` of a block. -/
def blockByte (b : BlockVal) (k : Nat) : Nat := bitsOf b.data (8 * k) 8

/-- The elements of an A block, or of a column of B, with its scale: none where the block is poisoned. -/
def opndBlock (o : MxOp) (weights : Bool) (b : BlockVal) : Option (Int × List Lane) :=
  let n := o.segK
  let code := coatCode b.coat
  if coatPoison b.coat then none
  else if coatZero b.coat then some (0, List.replicate n 0)
  else if o.planar && !weights then
    if code = 8 then
      some (coatE b.coat, (List.range n).map fun k =>
        let v := sext 8 (blockByte b k)
        let sub := nfrSigned o.nfr && nfrSubOn o.nfr && nfrWidth o.nfr == 8
        rneInt (if sub && v == -128 then nfrSubVal o.nfr else v) 0)
    else if code = 9 then some (coatE b.coat, (List.range n).map fun k => rneInt (blockByte b k) 0)
    else none
  else if o.kind = 2 then
    if code = 2 then some (coatE b.coat, (List.range n).map fun k => widen fmtBF16 (bitsOf b.data (16 * k) 16)) else none
  else if code = 4 ∨ code = 5 then
    some (coatE b.coat, (List.range n).map fun k => widen (floatFmt code) (blockByte b k))
  else none

/-- The plane code that plane `j` of a column group must have. -/
def columnCode (uns : Bool) (j : Nat) : Nat := (if uns then 0x28 else 0x18) + (7 - j)

/-- The plane block is poisoned: its coat, or a code other than its position's (R235). -/
def planeBad (uns : Bool) (j : Nat) (b : BlockVal) : Bool :=
  coatPoison b.coat || (!coatZero b.coat && coatCode b.coat != columnCode uns j)

/-- The reading of element (k, i) of a column group: the planes read, with the centring term (R74, R237, R238). -/
def weightAt (o : MxOp) (uns : Bool) (bs : List (Nat × BlockVal)) (k i : Nat) : Int :=
  let half (q : Nat) : Int := if o.cen && q < 8 then 2 ^ (7 - q) else 0
  let mid : Int := if o.op = 2 then half o.qr - half o.q else half o.q
  bs.foldl (fun (t : Int) (j, b) =>
    let w : Int := if j = 7 then (if uns then 128 else -128) else 2 ^ j
    if coatZero b.coat then t else t + w * bitsOf b.data (8 * k + i) 1) mid

/-- The eight columns of a group from its plane blocks: none where one is poisoned. -/
def groupColumns (o : MxOp) (uns : Bool) (bs : List (Nat × BlockVal)) : Option (Int × List (List Lane)) :=
  if bs.any fun (j, b) => planeBad uns j b then none
  else match bs.find? fun x => !coatZero x.2.coat with
    | none => some (0, List.replicate 8 (List.replicate 64 0))
    | some (_, b) =>
      some (coatE b.coat, (List.range 8).map fun i => (List.range 64).map fun k => rneInt (weightAt o uns bs k i) 0)

/-! ## A compute step -/

/-- The place of a B byte of segment `g`: the scratchpad, or the active half at the time of reading (R253). -/
def State.bPlace (s : State) (o : MxOp) (g : Nat) (off : Nat) : Nat :=
  let p := pairOf o.core
  let a : Int := o.bIa + g * o.segStride + off
  if o.bWbank then wbankPlace p (s.pair p).active (a % 2 ^ 24).toNat else devicePlace a.toNat

/-- IA of a place that `bPlace` gives, for APSN. -/
def State.bIaOf (s : State) (o : MxOp) (g : Nat) (off : Nat) : Nat :=
  let p := pairOf o.core
  let a : Int := o.bIa + g * o.segStride + off
  if o.bWbank then 0xB * 2 ^ 48 + p * 2 ^ 25 + (s.pair p).active.toNat * 2 ^ 24 + (a % 2 ^ 24).toNat else a.toNat

/-- The columns of B of a segment: for each, none or the scale and its elements; and the IAs of poisoned blocks. DESIGN CHOICE
(log 134): R235 takes the sign of a column group from the CODE of its plane-7 block, and where that block has no plane CODE (a
zero block, such as coat 0x8000) the group is signed. -/
def State.bColumns (s : State) (o : MxOp) (g : Nat) : List (Option (Int × List Lane)) × List Nat :=
  if o.planar then
    let groups := (List.range 32).map fun h =>
      let top := s.blockAt (s.bPlace o g (64 * h))
      let uns := 0x28 ≤ coatCode top.coat && coatCode top.coat ≤ 0x2F
      let bs := o.planes.map fun j => (j, s.blockAt (s.bPlace o g ((7 - j) * o.pstride + 64 * h)))
      let bad := (bs.filter fun (j, b) => planeBad uns j b).map fun (j, _) => s.bIaOf o g ((7 - j) * o.pstride + 64 * h)
      (match groupColumns o uns bs with
        | some (e, cols) => cols.map fun c => some (e, c)
        | none => List.replicate 8 none, bad)
    (groups.flatMap Prod.fst, groups.flatMap Prod.snd)
  else
    let cols := (List.range 256).map fun n => opndBlock o true (s.blockAt (s.bPlace o g (64 * n)))
    (cols, (cols.zipIdx.filter fun c => c.1.isNone).map fun c => s.bIaOf o g (64 * c.2))

/-- The rows of A of a segment, and the IAs of poisoned blocks. -/
def State.aRows (s : State) (o : MxOp) (g : Nat) : List (Option (Int × List Lane)) × List Nat :=
  let ias := (List.range o.m).map fun (r : Nat) => mxIa o.aIa (r * o.aStride + 64 * g)
  let rows := ias.map fun ia => opndBlock o false (s.blockAt (devicePlace ia))
  (rows, ((rows.zip ias).filter fun x => x.1.isNone).map Prod.snd)

/-- A row of a bank (R225). -/
def AccBank.row (b : AccBank) (p a m : Nat) : List Lane :=
  match Tbl.find b.rows m with
  | some r => r
  | none => if b.cleared then List.replicate 256 0 else (List.range 256).map fun n => Config.freeAcc p a m n

/-- Poisoned blocks set the bank's bit and, where it was clear, the first records its IA (R246). -/
def AccBank.taint (b : AccBank) (bad : List Nat) : AccBank :=
  match bad with
  | [] => b
  | ia :: _ => { b with poison := true, apsn := if b.poison then b.apsn else ia }

/-- LANE of an accumulator cell's origin NaN (R58). -/
def accLane (m n : Nat) : Nat := m % 16 * 64 + n % 64

/-- One segment is added to the bank (R237). Where the cell and the partial are both NaNs, the cell's stays (DESIGN CHOICE,
log 111: R59's operand order is not given for this sum). Of several poisoned blocks read in one step APSN records the first, A
rows before B blocks and each in ascending order (DESIGN CHOICE, log 135: R246 gives no order). What the segment reads of B in
the scratchpad widens the bank's range (R245). -/
def State.compute (s : State) (o : MxOp) (g : Nat) : State :=
  let p := pairOf o.core
  let (rows, badA) := s.aRows o g
  let (cols, badB) := s.bColumns o g
  s.onPair p fun x =>
    let b := Tbl.look x.acc o.acc {}
    let b' := rows.zipIdx.foldl (fun (b : AccBank) (r, m) =>
      let old := b.row p o.acc m
      let new := (old.zip cols).zipIdx.map fun ((z, c), n) =>
        let org := originNaN o.pc (accLane m n)
        let part := match r, c with
          | some (ea, xs), some (eb, ys) => segPartial org (ea + eb) (xs.zip ys)
          | _, _ => org
        fadd org z part
      { b with rows := Tbl.put b.rows m new }) b
    let r := if o.bWbank then (b.bLo, b.bHi) else widenRange (b.bLo, b.bHi) (spanRange (o.bRunsAt g))
    { x with acc := Tbl.put x.acc o.acc { b'.taint (badA ++ badB) with bLo := r.1, bHi := r.2 } }

/-! ## MLDACC and MDRAIN (R241, R243) -/

/-- The blocks of a row of the scratchpad. -/
def State.rowBlocks (s : State) (ia n : Nat) : List BlockVal :=
  (List.range ((ia % 64 + n + 63) / 64)).map fun i => s.blockAt (devicePlace (ia / 64 * 64 + 64 * i))

/-- The block that holds the lowest bit of element `j` of a row that starts at byte `off` of its first block, and the
element's code. -/
def rowElem (bs : List BlockVal) (off w j : Nat) : Option BlockVal × Nat :=
  let at' := 8 * off + j * w
  (bs[at' / 512]?, bitsOf (packCodes 512 (bs.map BlockVal.data)) at' w)

/-- The 256 lanes of a row of MLDACC, and the first poisoned block's number (R65, R241). -/
def ldaccRow (o : MxOp) (bs : List BlockVal) (off r : Nat) : List Lane × Option Nat :=
  let code := (bs.head?.map fun b => coatCode b.coat).getD 0
  let org (n : Nat) : Lane := originNaN o.pc (accLane r n)
  let f32 := o.g 2 == 1
  if !f32 && !(1 ≤ code && code ≤ 0x0C) then
    if bs.head?.any fun b => coatZero b.coat then (List.replicate 256 0, none) else ((List.range 256).map org, some 0)
  else
    let w := if f32 then 32 else elemBits o.nfr (codeFmt code)
    let bad (b : BlockVal) : Bool := coatPoison b.coat || (!f32 && !coatZero b.coat && coatCode b.coat != code)
    ((List.range 256).map fun n =>
      match rowElem bs off w n with
      | (none, _) => 0
      | (some b, x) =>
        if bad b then org n
        else if coatZero b.coat then 0
        else if f32 then BitVec.ofNat 32 x
        else coatLane o.nfr code x (coatE b.coat), bs.findIdx? bad)

/-- Sixteen rows are loaded into the bank; the first step clears its poison bit and its record of B. -/
def State.ldacc (s : State) (o : MxOp) (k : Nat) : State :=
  let p := pairOf o.core
  let rows := (List.range 16).map fun i =>
    let r := 16 * k + i
    let ia := mxIa o.aIa (r * (o.g 1).toInt)
    let z := ldaccRow o (s.rowBlocks ia (s.ldaccBytes o r)) (ia % 64) r
    (r, z.1, (z.2.map fun j => ia / 64 * 64 + 64 * j).toList)
  s.onPair p fun x =>
    let b := Tbl.look x.acc o.acc {}
    let b := if k = 0 then { b with poison := false, bLo := 0, bHi := 0 } else b
    let b := rows.foldl (fun (b : AccBank) (r, v, _) => { b with rows := Tbl.put b.rows r v }) b
    { x with acc := Tbl.put x.acc o.acc (b.taint (rows.flatMap fun z => z.2.2)) }

/-- The codes and the E of one block of C (R243). -/
def drainBlock (n : Word) (f : Nat) (fixe : Option Int) (ys : List Lane) : Int × List Nat :=
  match f with
  | 0x1 => (0, ys.map BitVec.toNat)
  | 0x2 => (0, ys.map (narrow fmtBF16 ·))
  | 0x3 => (0, ys.map (narrow fmtF16 ·))
  | 0x6 => (0, ys.map fun y => (f32ToInt false (-2147483648) 2147483647 y % 2 ^ 32).toNat)
  | _ =>
    let t := storeTarget n false f
    let e := fixe.getD (coatScale t (ys.map fv))
    (e, ys.map (storeCode t e true))

/-- The writes of a row of 256 values from byte `off` of its first block: each block takes the values whose lowest bit
falls in it. -/
def drainRow (n : Word) (f : Nat) (fixe : Option Int) (off : Nat) (ys : List Lane) : List BWrite :=
  let w := elemBits n f
  let blocks := (8 * off + 256 * w + 511) / 512
  let parts := (List.range blocks).map fun i =>
    drainBlock n f fixe ((ys.zipIdx.filter fun y => (8 * off + y.2 * w) / 512 == i).map Prod.fst)
  let bits := packCodes w (parts.flatMap Prod.snd) * 2 ^ (8 * off)
  let mask := (2 ^ (256 * w) - 1) * 2 ^ (8 * off)
  parts.zipIdx.map fun (z, i) =>
    { mask := bitsOf mask (512 * i) 512, data := bitsOf bits (512 * i) 512, coat := some (mkCoat z.1 (fmtCode f)) }

/-- The 256 bias values as F32 payload: those that the first step has read, or those that it reads now (R243, R244). -/
def State.bias (s : State) (o : MxOp) : List Lane :=
  if !o.bias.isEmpty then o.bias
  else if o.biasIa = 0 then List.replicate 256 0
  else (s.rowBlocks o.biasIa 1024).flatMap fun b => (List.range 16).map fun i => BitVec.ofNat 32 (bitsOf b.data (32 * i) 32)

/-- One cell of C (R243). -/
def drainCell (o : MxOp) (m n : Nat) (acc bias : Lane) : Lane :=
  let y := ffma (originNaN o.pc (accLane m n)) acc ((o.g 4).truncate 32) bias
  if (o.g 5).getLsbD 0 && !isNan y && y.msb then 0 else y

/-- The bytes of a block that a mask covers. -/
def maskBytes (m : Nat) : Nat := ((List.range 64).filter fun i => m.testBit (8 * i)).length

/-- Each block is taken by its bank in a cycle of the step, the ninth or a later one: the one by which the bank has moved the
blocks before it (R171, R244). -/
def bankDues (at' : Nat → Nat) : Tbl Nat → List (Nat × BWrite) → List BankWrite
  | _, [] => []
  | t, (ia, w) :: l =>
    let b := bitsOf ia 16 5
    let n := Tbl.look t b 0
    { due := at' (8 + n / 128), place := devicePlace ia, mask := w.mask, data := w.data, coat := w.coat } ::
      bankDues at' (Tbl.put t b (n + maskBytes w.mask)) l

/-- Sixteen rows of the bank are on their way to C. -/
def State.drain (s : State) (o : MxOp) (k : Nat) : State :=
  let p := pairOf o.core
  let b := Tbl.look (s.pair p).acc o.acc {}
  let fixe := if (o.g 5).getLsbD 1 then some (sext 8 (bitsOf (o.g 5).toNat 8 8)) else none
  let bias := s.bias o
  let blocks := (List.range 16).flatMap fun i =>
    let r := 16 * k + i
    let ia := mxIa o.aIa (r * (o.g 1).toInt)
    let ys := ((b.row p o.acc r).zip bias).zipIdx.map fun ((z, c), n) => drainCell o r n z c
    (drainRow o.nfr (o.g 2).toNat fixe (ia % 64) ys).zipIdx.map fun (w, j) => (ia / 64 * 64 + 64 * j, w)
  let at' (n : Nat) : Nat := alignTo (s.mxPar o) (advance16 (s.mxPar o) s.cycle n)
  s.onPair p fun x => { x with out := x.out ++ bankDues at' [] blocks }

/-- The blocks of C that a bank takes in this cycle are written. -/
def State.landDrain (s : State) (p : Nat) : State :=
  let x := s.pair p
  if x.out.isEmpty || x.freeze.isSome then s
  else
    (x.out.filter fun w => w.due ≤ s.cycle).foldl (fun s w =>
        s.writeAt w.place { mask := w.mask, data := w.data, coat := w.coat })
      (s.onPair p fun x => { x with out := x.out.filter fun w => s.cycle < w.due })

def State.landDrains (s : State) : State := (s.pairs.map Prod.fst).foldl State.landDrain s

/-- What keeps an MDRAIN from writing: its bank's poison, or a poisoned bias block (R247). -/
def State.drainPoison (s : State) (o : MxOp) : Option Nat :=
  let b := Tbl.look (s.pair (pairOf o.core)).acc o.acc {}
  if b.poison then some b.apsn
  else if o.biasIa = 0 then none
  else ((s.rowBlocks o.biasIa 1024).findIdx? fun b => coatPoison b.coat).map fun i => o.biasIa + 64 * i

/-- A bank is cleared, with its record of B (R240, R245). -/
def State.mzero (s : State) (o : MxOp) : State :=
  s.onPair (pairOf o.core) fun x =>
    let b := Tbl.look x.acc o.acc {}
    { x with acc := Tbl.put x.acc o.acc { b with rows := [], cleared := true, poison := false, bLo := 0, bHi := 0 } }

/-- The effect of step `k` of a macro-op. -/
def State.stepEffect (s : State) (o : MxOp) (k : Nat) : State :=
  match o.op with
  | 4 => s.mzero o
  | 5 => s.ldacc o k
  | 6 => s.drain o k
  | _ => s.compute o k

/-! ## The sequencer (R210, R211, R227, R228, R232) -/

/-- The calendar rows of a step: the array's, its banks', and the read port's. -/
def State.stepRows (s : State) (o : MxOp) (u : StepUse) : List Nat :=
  let p := pairOf o.core
  (if s.lease o.core then rowArray p 0 else rowArray p (o.core % 2)) ::
    u.banks.map (fun b => rowBank p b.1) ++ if u.port = 0 then [] else [rowWRead p]

/-- The step of a core that starts at cycle `c` would find a bank held by another unit in one of its own cycles of it (R227). -/
def Pair.stepBlocked (x : Pair) (par : Option Nat) (u : StepUse) (c : Nat) : Bool :=
  u.banks.any fun b =>
    let at' (i : Nat) : Nat := alignTo par (advance16 par c (b.2.1 + i))
    decide (at' 0 < Tbl.look x.coreBank b.1 0) ||
      x.bankBusy.any fun h => h.1 == b.1 && (List.range b.2.2).any fun i => h.2.1 ≤ at' i && at' i < h.2.2

/-- The first cycle from `t` on that the step's banks and port are not held by another unit, in the core's windows. -/
def State.stepFrom (s : State) (o : MxOp) (u : StepUse) (t : Nat) : Nat :=
  let p := s.pair (pairOf o.core)
  let par := s.mxPar o
  let a := if u.port = 0 then t else max t p.rdFree
  let at' (i : Nat) : Nat := alignTo par (a + i)
  at' (((List.range 256).find? fun i => !p.stepBlocked par u (at' i)).getD 256)

/-- The end of a step's use of a row, in its core's windows, if it starts at cycle `c` (R210, R236). -/
def State.rowEnd (s : State) (o : MxOp) (u : StepUse) (c row : Nat) : Nat :=
  let p := pairOf o.core
  advance16 (s.mxPar o) c
    (if row = rowWRead p then u.port
     else match u.banks.find? fun b => rowBank p b.1 == row with
      | some b => b.2.1 + b.2.2
      | none => u.len)

/-- A swap tick of the weight bank lies among the ticks of cycles `c` to `e` - 1 (R232, R253). -/
def State.meetsSwap (s : State) (o : MxOp) (u : StepUse) (c e : Nat) : Bool :=
  u.port != 0 && match (s.pair (pairOf o.core)).swap with
    | some z => c / 32 ≤ z.tick && z.tick ≤ (e - 1) / 32
    | none => false

/-- A booked step may start at cycle `c`: every tick that it spans is the task's on every row (R211, R232). -/
def State.rowsOwned (s : State) (o : MxOp) (u : StepUse) (b c : Nat) : Bool :=
  let e := advance16 (s.mxPar o) c u.len
  !s.meetsSwap o u c e && (s.stepRows o u).all fun r => (s.face (faceOf o.core)).ownedCycles b r c (e - 1)

/-- A free step may start at cycle `c`: on every row its last cycle comes before the next tick that is not FREE (R210). -/
def State.rowsFree (s : State) (o : MxOp) (u : StepUse) (c : Nat) : Bool :=
  !s.meetsSwap o u c (s.rowEnd o u c (rowWRead (pairOf o.core))) &&
    (s.stepRows o u).all fun r => (s.face (faceOf o.core)).freeCycles r c (s.rowEnd o u c r - 1)

/-- Ticks after which a booking owns nothing. -/
def Booking.lastTick (b : Booking) : Nat := b.rows.foldl (fun m u => max m (u.first + u.len)) 0

/-- Some cycle from now on lets the step run under booking `b`. -/
def State.stepLater (s : State) (o : MxOp) (b : Nat) : Bool :=
  let u := s.stepUse o o.done
  let last := ((Tbl.find (s.face (faceOf o.core)).bookings b).map Booking.lastTick).getD 0
  let tryAt (t : Nat) : Bool := s.rowsOwned o u b (s.stepFrom o u t)
  tryAt s.cycle || (List.range (last - s.tick)).any fun i => tryAt (32 * (s.tick + 1 + i))

/-- The context has released its bookings: it runs UNBOOK's tick, or no longer under this booking (R112, R208). -/
def State.bidOver (s : State) (c b : Nat) : Bool :=
  (s.ctx c).unbook || (s.ctx c).run != .booked || (s.ctx c).bid != some b

/-- The booking under which a macro-op runs: none once its task's bookings have ended. What UNBOOK or TDONE leaves, the
current tick and HOLD entries, serves the steps that still fit there (R232). -/
def State.mxBid (s : State) (o : MxOp) : Option Nat :=
  let c := 4 * o.core + o.ctx
  o.bid.filter fun b => s.holdsBid c b && (!s.bidOver c b || s.stepLater o b)

/-- The step may start at cycle `c`: its rows are owned by the task, or FREE (R210, R232). -/
def State.rowsAllow (s : State) (o : MxOp) (u : StepUse) (c : Nat) : Bool :=
  match s.mxBid o with
  | some b => s.rowsOwned o u b c
  | none => s.rowsFree o u c

/-- A parked step may start at cycle `c`: the first of a FREE tick that suits it, and where it needs more than one tick, of
the first tick of a free run (R210). -/
def State.unparks (s : State) (o : MxOp) (u : StepUse) (c : Nat) : Bool :=
  let t := c / 32
  c == alignTo (s.mxPar o) (32 * t) &&
    (s.rowEnd o u c 0 ≤ 32 * (t + 1) || (s.stepRows o u).any fun r => t == 0 || !((s.face (faceOf o.core)).isFree r (t - 1)))

/-- The head of a queue could be the next to step: it has waited its 4 cycles and the step before it has ended. -/
def MxOp.isReady (o : MxOp) (now : Nat) : Bool :=
  o.issued + 4 ≤ now && o.busy.all (fun e => e ≤ now) && o.done < o.steps

/-- The number of the half in which a macro-op's steps run. -/
def State.mxHalf (s : State) (o : MxOp) : Nat := if s.lease o.core then 0 else o.core % 2

/-- The head of a queue wants to start its next step in this cycle: it is ready, and the array and its ports are there. -/
def State.stepWants (s : State) (o : MxOp) : Bool :=
  o.isReady s.cycle && !o.stuck && Tbl.look (s.pair (pairOf o.core)).arrFree (s.mxHalf o) 0 ≤ s.cycle &&
    s.stepFrom o (s.stepUse o o.done) s.cycle == s.cycle

/-- The head of a queue may start its next step in this cycle. -/
def State.stepNow (s : State) (o : MxOp) : Bool :=
  let u := s.stepUse o o.done
  s.stepWants o && s.rowsAllow o u s.cycle && (!o.parked || (s.mxBid o).isSome || s.unparks o u s.cycle)

/-- The lease decision of R228 among the free queues: the core whose step starts, and the lease it leaves. -/
def leaseChoice (p : Pair) (ready : Nat → Bool) : Option (Nat × Nat × Nat) :=
  let h := p.holder
  if ready h && p.count < p.leaseMax then some (h, h, p.count)
  else if ready (1 - h) then some (1 - h, 1 - h, 0)
  else if ready h then some (h, h, 0)
  else none

/-- The head of a pair's queue. -/
def State.mxHead (s : State) (p q : Nat) : Option MxOp := ((s.pair p).queue q).head?

/-- A queue is a booked one. -/
def bookedQueue (q : Nat) : Bool := q % 2 == 1

/-- The tick of the lease row is FREE and no step is in progress (R228). -/
def State.leaseTime (s : State) (p : Nat) : Bool :=
  (s.face (p / 8)).isFree (rowArray p 0) s.tick && Tbl.look (s.pair p).arrFree 0 0 ≤ s.cycle

/-- Queue `q` is the one whose step starts in this cycle, with the lease that the decision leaves. DESIGN CHOICE (log 132): R228
decides among free queues; in LEASE mode what a booked queue still holds after its bookings ended are free steps that start with
no lease decision, before those of the free queues. -/
def State.chosen (s : State) (p q : Nat) : Option (MxOp × Option (Nat × Nat)) :=
  match s.mxHead p q with
  | none => none
  | some o =>
    if !(s.pair p).lease || bookedQueue q then
      -- a free queue of the core yields to its booked queue
      if s.stepNow o && (bookedQueue q || !((s.mxHead p (q + 1)).any s.stepNow)) then some (o, none) else none
    else if !s.leaseTime p then none
    else
      let ready (c : Nat) : Bool := (s.mxHead p (2 * c)).any fun o => o.isReady s.cycle
      match leaseChoice (s.pair p) ready with
      | some (c, h, n) => if 2 * c = q then some (o, some (h, n)) else none
      | none => none

/-- The head of a queue is replaced. -/
def Pair.onHead (p : Pair) (q : Nat) (f : MxOp → MxOp) : Pair :=
  p.setQ q (match p.queue q with
    | [] => []
    | h :: t => f h :: t)

/-- A trap of a context that has halted, or has passed its stop edge: its registers and its message (R247), which follows that
of the stop (R412). -/
def State.haltedTrap (s : State) (c code : Nat) (addr : Word) (slot : Nat) : State :=
  let s := s.onCtx c fun x =>
    { x with tcause := BitVec.ofNat 64 code, tpc := x.pc, taddr := addr, tslot := slot }
  let ws := s.stopWords c 1 false false (s.ctx c).pc
  match (s.ctx c).stopping with
  | none => s.message c (s.partOf (coreOf c)) false ws
  | some z => s.onCtx c fun x => { x with stopping := some { z with msgs := z.msgs ++ [(false, ws)] } }

/-- An engine's trap of a context: at its next bundle, or as a message if it has halted. -/
def State.postTrap (s : State) (c code : Nat) (addr : Word) (slot : Nat) (atOnce : Bool) : State :=
  if (s.ctx c).run = .halted ∨ (s.ctx c).run = .stopping then s.haltedTrap c code addr slot
  else s.owe c { code := code, addr := addr, slot := slot, atOnce := atOnce, issued := s.cycle }

/-- A drain that poison stops: it completes with no flag, its context traps, and the next entry starts no earlier than
the next cycle (R247). -/
def State.drainStops (s : State) (p q : Nat) (o : MxOp) (ia : Nat) : State :=
  (s.onPair p fun x =>
    { (x.setQ q (x.queue q).tail) with arrFree := Tbl.put x.arrFree (s.mxHalf o) (s.cycle + 1) }).postTrap
      (4 * o.core + o.ctx) 0x0B (BitVec.ofNat 64 ia) 5 true

/-- The charges of a step (R254). -/
def MxOp.chargeOf (o : MxOp) (u : StepUse) : Charge :=
  if o.isCompute then
    { addr := o.pc, compute := o.tkind, wait := u.len - o.tkind, wload := maxTerm u.banks ≤ u.port }
  else { addr := o.pc, drain := u.len }

/-- What a step that starts at cycle `c` uses: each bank, and the read port as bank 32, with its first cycle and its end
(R236, R244). -/
def State.stepBanks (s : State) (o : MxOp) (u : StepUse) (c : Nat) : List (Nat × Nat × Nat) :=
  let at' := advance16 (s.mxPar o) c
  (u.banks.map fun b => (b.1, at' b.2.1, at' (b.2.1 + b.2.2))) ++ if u.port = 0 then [] else [(32, c, at' u.port)]

/-- A free step that its rows do not let start is parked (R210). -/
def State.parkStep (s : State) (p q : Nat) (o : MxOp) : State :=
  if s.stepWants o && (s.mxBid o).isNone && !o.parked then s.onPair p fun x => x.onHead q fun h => { h with parked := true }
  else s

/-- A step starts: its effect, the time of the array, banks and port, its count and its charges (R232, R236). -/
def State.startStep (s : State) (p q : Nat) (o : MxOp) : State :=
  let k := o.done
  let u := s.stepUse o k
  let par := s.mxPar o
  let last := advance16 par s.cycle u.len
  let half := s.mxHalf o
  let c := o.chargeOf u
  let bias := if o.op = 6 then s.bias o else []
  (s.stepEffect o k).onPair p fun x =>
    let x := x.onHead q fun h =>
      { h with busy := some last, parked := false, bias := bias, solid := if k = 0 then s.overlapsB o else h.solid, seg := if o.op = 5 ∨ o.op = 6 then h.seg else h.seg + 1
               rows := if o.op = 5 ∨ o.op = 6 then h.rows + 16 else h.rows }
    { x with
      arrFree := Tbl.put x.arrFree half last
      arrBank := (s.stepBanks o u s.cycle).foldl (fun t b => Tbl.put t (64 * half + b.1) b.2) x.arrBank
      charges := Tbl.put x.charges half c }

/-- A step of a queue's first macro-op starts, if the sequencer chooses it (R228, R232). -/
def execArrayStep (p q : Nat) (s : State) : Host.Outcome State Fault Refusal :=
  if (s.pair p).freeze.isSome then .next s
  else match s.chosen p q with
  | none => .next (match s.mxHead p q with
    | some o => if (s.pair p).lease && !bookedQueue q || s.stepNow o then s else s.parkStep p q o
    | none => s)
  | some (o, l) =>
    let go := s.stepNow o
    let s := match l with
      | some (h, n) => s.onPair p fun x => { x with holder := h, count := if go && o.done = 0 then n + 1 else n }
      | none => s
    if !go then .next (s.parkStep p q o)
    else match (if o.op = 6 ∧ o.done = 0 then s.drainPoison o else none) with
      | some ia => .next (s.drainStops p q o ia)
      | none => .next (s.startStep p q o)

/-- The cycle after a macro-op's last step: the entry is freed and its flag set (R230, R233). -/
def execMacroopComplete (p q : Nat) (s : State) : Host.Outcome State Fault Refusal :=
  match s.mxHead p q with
  | none => .next s
  | some o =>
    if o.over s.cycle && (s.pair p).freeze.isNone then
      let s := s.onPair p fun x => x.setQ q (x.queue q).tail
      .next (if o.flagEn then s.engineFlag o.core o.flag else s)
    else .next s

/-! ## A booked step that finds no start (R211) -/

/-- The head of a booked queue finds no start: the first row, by its id, that its task does not own where it is ready. -/
def State.stepUnbooked (s : State) (p q : Nat) : Option (Nat × Nat) :=
  match s.mxHead p q with
  | none => none
  | some o =>
    match s.mxBid o with
    | none => none
    | some b =>
      if !(o.isReady s.cycle) || o.stuck || s.stepLater o b then none
      else
        let u := s.stepUse o o.done
        let f := s.face (faceOf o.core)
        let c := s.stepFrom o u s.cycle
        let e := advance16 (s.mxPar o) c u.len
        some (4 * o.core + o.ctx, ((s.stepRows o u).filter fun r => !f.ownedCycles b r c (e - 1)).min?.getD (rowWRead p))

/-- The head of a context's booked queue has found no start: it waits for the trap of its task (R211). -/
def State.stickMx (s : State) (c : Nat) : State :=
  s.onPair (pairOf (coreOf c)) fun x =>
    x.onHead (mxQueue (coreOf c) true) fun o => if o.isOf c then { o with stuck := true } else o

/-! ## WSWAP (R253) -/

/-- The two weight-bank rows of a pair. -/
def wbankRows (p : Nat) : List Nat := [rowWRead p, rowWWrite p]

/-- The controller has accepted the FREE context's request. -/
def Ctx.swapAnswer (x : Ctx) : Option Bool :=
  x.sleep.swap.bind id

/-- The tick lies where a swap may be asked for, and none is pending. -/
def State.swapTickOk (s : State) (t : Word) : Bool :=
  s.tick + 2 ≤ t.toNat && t.toNat ≤ s.tick + 8191 && (s.pair s.ipair).swap.isNone

def State.swapGroupOk (s : State) (g : BitVec 5) : Bool := (List.range 7).all fun i => s.cx.grp g (BitVec.ofNat 5 (i + 1)).toNat == 0

/-- The FREE context's bundle holds until the controller has processed its request (R205, R253). -/
def State.wswapWait (g : BitVec 5) (e : BitVec 1) (f : BitVec 4) (s : State) : Option (Bool × State) :=
  if s.cx.run = .booked || !s.swapGroupOk g then none
  else match s.cx.sleep.swap with
    | some none => some (true, s)
    | some (some _) => none
    | none =>
      if s.swapTickOk (s.cx.grp g 0) then
        some (true, (s.onCx fun x => { x with sleep := { x.sleep with swap := some none } }).onFace s.iface fun x =>
          x.ask (.wswap s.cs (s.cx.grp g 0).toNat (e == 1) f.toNat))
      else none

def State.wswapCauses (g : BitVec 5) (s : State) : List Cause :=
  let t := s.cx.grp g 0
  if !s.swapGroupOk g then [kILLOP]
  else match s.cx.swapAnswer with
    | some true => []
    | some false => [kACCESS t.toNat]
    | none =>
      if !s.swapTickOk t then [kACCESS t.toNat]
      else match s.cx.run, s.cx.bid with
        | .booked, some b =>
          match (wbankRows s.ipair).find? fun r => (s.face s.iface).owner r t.toNat != .bid b with
          | some r => [kOVERRUN 0 r]
          | none => []
        | _, _ => []

/-- A swap that a core asked for is pending: it is done at the first cycle of its tick, and ends one tick later. -/
def State.acceptSwap (s : State) (core t : Nat) (e : Bool) (f : Nat) : State :=
  let p := pairOf core
  let s := s.onPair p fun x => { x with swap := some { tick := t, core := core, flagEn := e, flag := f } }
  (s.schedule (32 * t) (srcArray p) (.weightSwap p)).schedule (32 * (t + 1)) (srcArray p) (.swapDone p)

def execWswap (p : BitVec 4) (g : BitVec 5) (e : BitVec 1) (f : BitVec 4) (s : State) :
    Host.Outcome State Fault Refusal :=
  slotOp (.wswap p g e f) (some p) { rs := (List.range 8).map fun j => g + BitVec.ofNat 5 j } false (State.wswapWait g e f)
    (State.wswapCauses g) (fun s =>
      if s.cx.swapAnswer.isSome then s.onCx fun x => { x with sleep := { x.sleep with swap := none } }
      else s.acceptSwap s.iss.core (s.cx.grp g 0).toNat (e == 1) f.toNat) s

/-- The controller answers a FREE context's WSWAP: both rows FREE at the tick are booked as CTL, and the swap is pending
at once. A request whose context no longer waits is dropped (DEDUCED, log 112). -/
def State.answerSwap (s : State) (c t : Nat) (e : Bool) (g : Nat) : State :=
  let f := faceOf (coreOf c)
  let p := pairOf (coreOf c)
  if (s.ctx c).sleep.swap ≠ some none then s
  else
    let ok := (wbankRows p).all (fun r => (s.face f).isFree r t) && (s.pair p).swap.isNone && s.tick < t
    let s := s.onCtx c fun x => { x with sleep := { x.sleep with swap := some (some ok) } }
    if ok then
      (s.onFace f fun x => { x with ctl := x.ctl ++ (wbankRows p).map fun r => (r, t) }).acceptSwap (coreOf c) t e g
    else s

/-- The first cycle of the swap tick: the halves exchange. -/
def execWeightSwap (p : Nat) (s : State) : Host.Outcome State Fault Refusal :=
  match (s.pair p).swap with
  | some z =>
    if z.tick ≤ s.tick ∧ !z.done then
      .next (s.onPair p fun x => { x with active := !x.active, swap := some { z with done := true } })
    else .next s
  | none => .next s

/-- The first cycle of the tick after: SWAPPEND clears, and the flag is set. -/
def execSwapDone (p : Nat) (s : State) : Host.Outcome State Fault Refusal :=
  match (s.pair p).swap with
  | some z =>
    if z.done ∧ z.tick < s.tick then
      let s := s.onPair p fun x => { x with swap := none }
      .next (if z.flagEn then s.engineFlag z.core z.flag else s)
    else .next s
  | none => .next s

/-! ## Cycle accounting (R254) -/

def sat64 (x : Nat) : Nat := min (x + 1) (2 ^ 64 - 1)

/-- The class of a charged cycle. -/
inductive Class where
  | compute
  | awaitA
  | wload
  | drain
  deriving DecidableEq, Repr

def Acct.charge (a : Acct) (now : Nat) (k : Class) : Acct :=
  let a := { a with stamp := now }
  match k with
  | .compute => { a with compute := sat64 a.compute }
  | .awaitA => { a with awaitA := sat32 a.awaitA }
  | .wload => { a with wload := sat32 a.wload }
  | .drain => { a with drain := sat32 a.drain }

/-- Entries of the spill ring (R255). -/
def Pair.ringSize (x : Pair) : Nat := 2 ^ (x.acctSize + 4)

/-- An entry is written to the spill ring. -/
def State.spill (s : State) (p : Nat) (a : Acct) : State :=
  let x := s.pair p
  let ia := x.acctBase + 32 * (x.acctPtr % x.ringSize)
  let q := engineReq (p / 32) ((s.ownerOf (p / 8)).getD 0)
  ((s.writeBytes q ia (bytesOfWords a.words)).2).onPair p fun x => { x with acctPtr := (x.acctPtr + 1) % 2 ^ 32 }

/-- The entry charged least recently leaves a full table. -/
def State.evictAcct (s : State) (p : Nat) : State :=
  let x := s.pair p
  if x.acct.length < 256 then s
  else
    match (x.acct.map Acct.stamp).min? with
    | none => s
    | some t =>
      match x.acct.findIdx? fun a => a.stamp == t with
      | none => s
      | some i =>
        let a := x.acct.getD i { addr := 0 }
        let s := if x.acctEn then s.spill p a else s.onPair p fun x => { x with acctLost := sat32 x.acctLost }
        s.onPair p fun x => { x with acct := x.acct.eraseIdx i }

/-- One cycle is charged to a bundle address. -/
def State.chargeTo (s : State) (p : Nat) (addr : Word) (k : Class) : State :=
  let s := if (s.pair p).acct.any fun a => a.addr == addr then s else s.evictAcct p
  s.onPair p fun x =>
    { x with busy := x.busy + 1
             acct := if x.acct.any fun a => a.addr == addr then
                 x.acct.map fun a => if a.addr = addr then a.charge s.cycle k else a
               else x.acct ++ [({ addr := addr } : Acct).charge s.cycle k] }

/-- The class of the next cycle of a step in progress, and what is left of it. -/
def Charge.next (c : Charge) : Option (Class × Charge) :=
  if c.compute ≠ 0 then some (.compute, { c with compute := c.compute - 1 })
  else if c.wait ≠ 0 then some (if c.wload then .wload else .awaitA, { c with wait := c.wait - 1 })
  else if c.drain ≠ 0 then some (.drain, { c with drain := c.drain - 1 })
  else none

/-- Why a ready step waits in this cycle: a refresh or swap tick that it would meet, or a bank or port held by another
unit. -/
def State.waitClass (s : State) (o : MxOp) : Option Class :=
  let u := s.stepUse o o.done
  let row := rowWRead (pairOf o.core)
  let e := match s.mxBid o with
    | some _ => s.rowEnd o u s.cycle 0
    | none => s.rowEnd o u s.cycle row
  if !(o.isReady s.cycle) then none
  else if u.port != 0 && (s.meetsSwap o u s.cycle e || (List.range ((e - 1) / 32 - s.tick + 1)).any fun i =>
      (s.face (faceOf o.core)).refreshTick row (s.tick + i)) then some .wload
  else if s.stepFrom o u s.cycle != alignTo (s.mxPar o) s.cycle then some .awaitA
  else none

/-- The half that the cycle belongs to (R254). -/
def State.cycleHalf (s : State) (p : Nat) : Nat := if (s.pair p).lease then 0 else s.cycle % 32 / 16

/-- The cycle that ends is classed for one pair. -/
def State.chargePair (s : State) (p : Nat) : State :=
  let x := s.pair p
  if x.freeze.isSome then s
  else
    let h := s.cycleHalf p
    match (Tbl.find x.charges h).bind Charge.next with
    | some (k, c) =>
      (s.onPair p fun x => { x with charges := Tbl.put x.charges h c }).chargeTo p
        ((Tbl.find x.charges h).map Charge.addr |>.getD 0) k
    | none =>
      let qs := if x.lease then [0, 1, 2, 3] else [2 * h, 2 * h + 1]
      match qs.findSome? fun q => (s.mxHead p q).bind fun o => (s.waitClass o).map fun k => (o, k) with
      | some (o, k) => s.chargeTo p o.pc k
      | none => s

/-- The macro-ops of a pair that complete by the next cycle leave their queues: what `foresee` looks at. -/
def State.nextHeads (s : State) (p : Nat) : State :=
  (List.range 4).foldl (fun s q => match s.mxHead p q with
    | some o => if o.over s.cycle then s.onPair p fun x => x.setQ q (x.queue q).tail else s
    | none => s) { s with cycle := s.cycle + 1 }

/-- The banks that the array of a pair begins to use with a step of the next cycle, whose grant comes before that of a core
that issues now (R172). -/
def State.nextBanks (s : State) (p : Nat) : List (Nat × Nat × Nat) :=
  if (s.pair p).freeze.isSome || (s.pair p).queues.all (fun q => q.2.isEmpty) then []
  else
    let t := s.nextHeads p
    (List.range 4).flatMap fun q => match t.chosen p q with
      | some (o, _) => if t.stepNow o then t.stepBanks o (t.stepUse o o.done) t.cycle else []
      | none => []

/-- The cycle that ends is classed for every pair that has work; a change of array mode takes effect with the next. -/
def State.chargeAll (s : State) : State :=
  s.pairs.foldl (fun s (p, x) =>
    let s := if x.charges.isEmpty && x.queues.all (fun q => q.2.isEmpty) then s else s.chargePair p
    match x.modeNext with
    | some m => s.onPair p fun x => { x with lease := m, modeNext := none }
    | none => s) s

/-- Every entry goes to the ring, and the table is empty (R255). -/
def execAcctFlush (p : Nat) (s : State) : Host.Outcome State Fault Refusal :=
  .next (((s.pair p).acct.foldl (fun s a => s.spill p a) s).onPair p fun x => { x with acct := [] })

/-! ## ACFG (R255) -/

/-- The array of a pair is in use: AMODE may not change. -/
def State.arrayInUse (s : State) (p : Nat) : Bool :=
  (s.face (p / 8)).bookings.any (fun b => b.2.rows.any fun u => arrayRowPair u.row == some (p % 8) && s.tick < u.first + u.len) ||
  (s.pair p).queues.any (fun q => !q.2.isEmpty) ||
  (List.range 8).any fun j => !(s.ctx (8 * p + j)).held.isEmpty

def execAcfgWrite (p : Nat) (v : Word) (s : State) : Host.Outcome State Fault Refusal :=
  let l := bitsOf v.toNat 8 7
  let x := s.pair p
  if v.getLsbD 0 != x.modeNext.getD x.lease && s.arrayInUse p then .next (s.onPair p fun x => { x with acfgErr := true })
  else .next (s.onPair p fun x =>
    { x with acfgErr := false, leaseMax := if l = 0 ∨ 64 < l then 64 else l, modeNext := some (v.getLsbD 0) })

end Sys2Proof.Machine
end

