-- ==== Sys2Proof/Machine/Branch.lean ====
section
/-! DEFINITION. Branches and modulo loops (R21, R41, R134 to R137). -/

namespace Sys2Proof.Machine

/-- PC + 32 × off, the offset under its prefix (R21). -/
def State.target {w : Nat} (s : State) (o : BitVec w) : Word := s.iss.pc + BitVec.ofInt 64 (32 * s.imm o)

/-- The next bundle of the context is the one at `t`; a branch delays it by `delay` cycles (R41). -/
def State.goTo (s : State) (t : Word) (delay : Nat) : State :=
  s.onCx fun x => { x with pc := t, ready := x.ready + delay }

def execBr (p : BitVec 4) (o : BitVec 20) (s : State) : Host.Outcome State Fault Refusal :=
  slotOp (.br p o) (some p) {} false noWait noCause (fun s => s.goTo (s.target o) 2) s

def execCall (p : BitVec 4) (o : BitVec 20) (s : State) : Host.Outcome State Fault Refusal :=
  slotOp (.call p o) (some p) { ws := [31] } false noWait noCause
    (fun s => (s.resultS 1 31 (s.iss.pc + 32)).goTo (s.target o) 2) s

/-- A register target must be a bundle address (R21). -/
def execJr (a : BitVec 5) (p : BitVec 4) (s : State) : Host.Outcome State Fault Refusal :=
  slotOp (.jr a p) (some p) { rs := [a] } false noWait
    (fun s => if (s.cx.sreg a).toNat % 32 = 0 then [] else [kALIGN (s.cx.sreg a).toNat])
    (fun s => s.goTo (s.cx.sreg a) 2) s

/-- The prepared state of a loop: LC, EC, RRB and the stage predicates, in one cycle (R135). -/
def State.loopStart (s : State) (lc ec : Word) : State :=
  let s := ((s.result 1 (.sreg 0x004 lc)).result 1 (.sreg 0x005 ec)).result 1 (.sreg 0x003 0)
  (List.range 8).foldl (fun s j => s.result 1 (.pred (8 + j) (j == 0))) s

/-- RRB − 1 mod ROT; 0 when ROT = 0 (R136). -/
def Ctx.rrbDown (x : Ctx) : Nat := if x.rot = 0 then 0 else (x.rrb + x.rot - 1) % x.rot

/-- The stage predicates. -/
def stagePreds : List (BitVec 4) := [8, 9, 10, 11, 12, 13, 14, 15]

/-- What a special register that holds `v` will hold in the next cycle: a write due then may come first (R38). -/
def Ctx.srNext (x : Ctx) (now num : Nat) (v : Word) : Word :=
  x.inflight.foldl (fun m i => match i.w with
    | .sreg n w => if n = num ∧ i.due = now + 1 then w else m
    | _ => m) v

/-- The updates of a LOOP that rotates: LC, EC and RRB, then the predicate shift (R136, R420). -/
def State.loopTurn (s : State) (lc ec : Word) (live : Bool) : State :=
  (((s.result 1 (.sreg 0x004 lc)).result 1 (.sreg 0x005 ec)).result 1
    (.sreg 0x003 (BitVec.ofNat 64 s.cx.rrbDown))).result 1 (.loopShift live)

/-- LOOP of R136: decided at issue; a taken LOOP delays nothing. -/
def State.loopBody (s : State) (t : Word) : State :=
  let x := s.cx
  if x.lc ≠ 0 then (s.loopTurn (x.lc - 1) (x.srNext s.cycle 0x005 x.ec) true).goTo t 0
  else if 1 < x.ec.toNat then (s.loopTurn (x.srNext s.cycle 0x004 x.lc) (x.ec - 1) false).goTo t 0
  else if x.ec = 1 then s.loopTurn (x.srNext s.cycle 0x004 x.lc) 0 false
  else s

/-- What LOOP asks of the registers: one that rotates also reads and shifts the stage predicates (R42, R136). -/
def Ctx.loopUses (x : Ctx) : Uses :=
  let ps := if x.lc = 0 ∧ x.ec = 0 then [] else stagePreds
  { rr := [0x003, 0x004, 0x005], wr := [0x003, 0x004, 0x005], rp := ps, wp := ps }

def execLoop (p : BitVec 4) (o : BitVec 20) (s : State) : Host.Outcome State Fault Refusal :=
  slotOp (.loop p o) (some p) s.cx.loopUses false noWait noCause (fun s => s.loopBody (s.target o)) s

/-- LOOPSET. LC is an unsigned 64-bit count (R135). DEDUCED (log 123): its `sa` is taken as unsigned too, and the trap on a
negative count belongs to the signed immediate of LOOPSETI. -/
def execLoopset (a b : BitVec 5) (p : BitVec 4) (s : State) : Host.Outcome State Fault Refusal :=
  slotOp (.loopset a b p) (some p) { rs := [a, b], wr := [0x003, 0x004, 0x005], wp := stagePreds } false noWait noCause
    (fun s => s.loopStart (s.cx.sreg a) (s.cx.sreg b)) s

def execLoopseti (e : BitVec 5) (i : BitVec 14) (s : State) : Host.Outcome State Fault Refusal :=
  slotOp (.loopseti e i) none { wr := [0x003, 0x004, 0x005], wp := stagePreds } false noWait noCause
    (fun s => s.loopStart (s.immW i) (e.zeroExtend 64)) s

end Sys2Proof.Machine
end

