-- ==== Sys2Proof/Machine/Copy.lean ====
section
/-! DEFINITION. Copy engines: CPY, CPYSL, CPYMC and CPYCAN, the copy group and its checks, the transforms by value,
zero-elided streams, chunks, tags and their statuses (R256 to R278, R282, R377). -/

namespace Sys2Proof.Machine

/-! ## The copy group (R262) -/

def CopyCmd.g (c : CopyCmd) (i : Nat) : Word := wordAt c.group i
def CopyCmd.rows (c : CopyCmd) : Nat := bitsOf (c.g 4).toNat 32 16
def CopyCmd.rowb (c : CopyCmd) : Nat := bitsOf (c.g 4).toNat 0 32
def CopyCmd.eng (c : CopyCmd) : Nat := bitsOf (c.g 4).toNat 52 2
/-- CPYSL out of staging. -/
def CopyCmd.dir (c : CopyCmd) : Bool := (c.g 4).getLsbD 54
def CopyCmd.pstride (c : CopyCmd) : Nat := bitsOf (c.g 5).toNat 16 48
def CopyCmd.uns (c : CopyCmd) : Bool := (c.g 5).getLsbD 13
def CopyCmd.cen (c : CopyCmd) : Bool := (c.g 5).getLsbD 12
def CopyCmd.q (c : CopyCmd) : Nat := bitsOf (c.g 5).toNat 8 4
def CopyCmd.dfmt (c : CopyCmd) : Nat := bitsOf (c.g 5).toNat 4 4
def CopyCmd.sfmt (c : CopyCmd) : Nat := bitsOf (c.g 5).toNat 0 4
def CopyCmd.aux (c : CopyCmd) : Nat := (c.g 6).toNat

/-- The source rows are COAT rows (R265). -/
def CopyCmd.coated (c : CopyCmd) : Bool := 1 ≤ c.xop && c.xop ≤ 3 && c.sfmt == 0

/-- Bits of a source element: of a plane code under MERGE, and of the largest under COAT. -/
def CopyCmd.sbits (c : CopyCmd) : Nat := if c.xop = 4 then c.q else if c.coated then 32 else elemBits c.nfr c.sfmt
def CopyCmd.dbits (c : CopyCmd) : Nat := elemBits c.nfr c.dfmt

/-- Elements C of a row (R264, R265). -/
def CopyCmd.cols (c : CopyCmd) : Nat :=
  if c.xop = 4 then c.rowb * 8 / c.dbits else if c.coated then c.rowb else c.rowb * 8 / c.sbits

/-- The pairing of formats that R264 and R265 allow. -/
def fmtPairOk (xop s d : Nat) : Bool :=
  let sOk := s != 0xC && s != 0xF
  let dOk := d != 0 && d != 0xC && d != 0xF
  match xop with
  | 0 => s == 0 && d == 0
  | 1 => sOk && dOk && (s == 0xE) == (d == 0xE)
  | 2 => sOk && dOk && (s == 0xE) == (d == 0xE)
  | 3 => sOk && s != 0xE && d == 0
  | 4 => s == 0 && dOk && d != 0xE
  | 5 => s == 0 && d == 0
  | _ => false

/-- The shapes of R264. -/
def CopyCmd.shapeOk (c : CopyCmd) : Bool :=
  match c.xop with
  | 1 => c.rowb * 8 % c.sbits == 0 && c.cols % 64 == 0
  | 2 => c.rowb * 8 % c.sbits == 0 && c.cols % 64 == 0 && c.rows % 16 == 0 && c.rows * c.dbits % 512 == 0
  | 3 => c.rowb * 8 % c.sbits == 0 && c.cols % 64 == 0 && c.rows % 8 == 0
  | 4 => c.rowb * 8 % c.dbits == 0 && c.cols % 64 == 0 && c.rows % 8 == 0
  | _ => true

/-- The fields of PLANE transforms. -/
def CopyCmd.planesOk (c : CopyCmd) : Bool :=
  if c.xop = 3 ∨ c.xop = 4 then 1 ≤ c.q && c.q ≤ 8 && (c.q == 1 || c.pstride != 0) else c.q == 0

/-- A block length in bytes from 64 to 1 MiB. -/
def rowLenOk (n : Nat) : Bool := 64 ≤ n && n ≤ 0x100000 && n % 64 == 0

/-- The limits of the group that every copy shares. -/
def CopyCmd.commonOk (c : CopyCmd) : Bool :=
  ((List.range 4).all fun i => multOf 64 (c.g i)) && bitsOf (c.g 4).toNat 55 9 == 0 && !(c.g 4).getLsbD 51 &&
    bitsOf (c.g 4).toNat 48 3 ≤ 6 && 1 ≤ c.rows && rowLenOk c.rowb && bitsOf (c.g 5).toNat 14 2 == 0 &&
    c.pstride % 64 == 0 && c.g 7 == 0 && fmtPairOk c.xop c.sfmt c.dfmt && c.planesOk && c.shapeOk

/-- A staging name's bits (R271). -/
def nameOk (v : Word) : Bool := v.toNat < 2 ^ 31

/-- PMASK and LT of CPYMC (R272). -/
def CopyCmd.pmask (c : CopyCmd) : Nat := c.aux % 256
def CopyCmd.lt (c : CopyCmd) : Nat := c.aux / 65536

/-- Every limit of the group, by the form of the copy (R262, R264, R265, R271, R272). -/
def CopyCmd.groupOk (c : CopyCmd) : Bool :=
  c.commonOk && match c.kind with
    | .cpymc => !c.dir && c.rows == 1 && 128 ≤ c.rowb && c.rowb ≤ 4096 && c.rowb % 128 == 0 && c.pmask != 0 &&
        c.aux / 256 % 256 == 0
    | .cpysl => (if c.xop = 5 then rowLenOk c.aux else c.aux == 0) && nameOk (if c.dir then c.g 0 else c.g 1)
    | _ => !c.dir && (if c.xop = 5 then rowLenOk c.aux else c.aux == 0)

/-! ## Rows and patches (R264) -/

/-- VA, or staging name, of row `r` of a side. -/
def CopyCmd.rowVa (c : CopyCmd) (src : Bool) (r : Nat) : Nat :=
  if src then wrap64 ((c.g 0).toNat + r * (c.g 2).toInt) else wrap64 ((c.g 1).toNat + r * (c.g 3).toInt)

/-- VA of plane 7 - i of patch (p, h) on a side. -/
def CopyCmd.patchVa (c : CopyCmd) (src : Bool) (p h i : Nat) : Nat :=
  if src then wrap64 ((c.g 0).toNat + i * c.pstride + p * (c.g 2).toInt + 64 * h)
  else wrap64 ((c.g 1).toNat + i * c.pstride + p * (c.g 3).toInt + 64 * h)

def CopyCmd.patchSpans (c : CopyCmd) (src : Bool) : List Span :=
  (List.range (c.rows / 8)).flatMap fun p => (List.range (c.cols / 64)).flatMap fun h =>
    (List.range c.q).map fun i => { va := c.patchVa src p h i, len := 64 }

def CopyCmd.rowSpans (c : CopyCmd) (src : Bool) (n len : Nat) : List Span :=
  (List.range n).map fun r => { va := c.rowVa src r, len := len }

/-- Destination rows and the elements of each, for the transforms by element. -/
def CopyCmd.dstRows (c : CopyCmd) : Nat := if c.xop = 2 then c.cols else c.rows
def CopyCmd.dstElems (c : CopyCmd) : Nat := if c.xop = 2 then c.rows else c.cols

/-- The runs of bytes of a side that are checked at issue (R263, R265). -/
def CopyCmd.sideSpans (c : CopyCmd) (src : Bool) : List Span :=
  if src then
    (if c.xop = 4 then c.patchSpans true else if c.coated then [] else c.rowSpans true c.rows c.rowb)
  else match c.xop with
    | 0 => c.rowSpans false c.rows c.rowb
    | 3 => c.patchSpans false
    | 5 => []
    | _ => c.rowSpans false c.dstRows (c.dstElems * c.dbits / 8)

/-! ## Issue checks (R263, R271, R272) -/

/-- The face that holds a byte of regions 0x9 to 0xB. -/
def deviceFace (ia : Nat) : Nat :=
  match iaRegion ia with
  | 9 => (stagingOf ia).1 / 48
  | 0xA => bitsOf ia 21 8 / 8
  | _ => bitsOf ia 25 8 / 8

/-- A copy may name the byte through this kind of window, and its partition owns the face that it names (R263). -/
def State.copyKindOk (s : State) (part : Nat) (w : Window) (va : Nat) : Bool :=
  let ia := w.toIa va
  let r := iaRegion ia
  match w.kind with
  | 0 => r ≤ 8 || (r ≤ 0xB && s.owns part (deviceFace ia))
  | 1 => r == 0xA
  | 2 => r == 0xB
  | 3 => r == 9 && s.owns part (deviceFace ia)
  | _ => false

/-- XLATE and ACCESS of one side of a copy. -/
def State.copyCauses (s : State) (base : Word) (spans : List Span) (use : Use) : List Cause :=
  if spans.isEmpty then []
  else match findWindow s.cx.windows base.toNat with
  | none => [kXLATE base.toNat]
  | some w =>
    let cells := spans.flatMap fun sp => sp.cells 16
    match cells.find? fun c => w.badByte (w.toIa base.toNat) c.va with
    | some c => [kXLATE c.va]
    | none =>
      if !w.permits use then [kACCESS (((spans.head?).map Span.va).getD 0)]
      else match cells.find? fun c => !s.copyKindOk s.ipart w c.va with
        | some c => [kACCESS c.va]
        | none => []

/-- ACCESS of a staging name on a face that the partition does not own (R271). -/
def State.nameCauses (s : State) (name : Word) : List Cause :=
  if s.owns s.ipart (bitsOf name.toNat 20 11 / 48) then [] else [kACCESS name.toNat]

/-- The issue checks of CPY and CPYSL. -/
def State.cpyCauses (s : State) (c : CopyCmd) : List Cause :=
  if !c.groupOk then [kILLOP]
  else
    let src := if c.kind = .cpysl ∧ c.dir then s.nameCauses (c.g 0) else s.copyCauses (c.g 0) (c.sideSpans true) .read
    let dst := if c.kind = .cpysl ∧ !c.dir then s.nameCauses (c.g 1) else s.copyCauses (c.g 1) (c.sideSpans false) .write
    orderCauses (src ++ dst)

/-- The scratchpad offset at which a multicast lands. -/
def CopyCmd.mcOff (c : CopyCmd) (w : Window) : Nat := w.toIa (c.g 1).toNat % 2 ^ 21

/-- One operand of CPYMC, through a window of this kind (R272, R285). -/
def State.mcSide (s : State) (base : Word) (n kind : Nat) (use : Use) : List Cause :=
  match findWindow s.cx.windows base.toNat with
  | none => [kXLATE base.toNat]
  | some w =>
    let cells := ({ va := base.toNat, len := n } : Span).cells 16
    match cells.find? fun c => w.badByte (w.toIa base.toNat) c.va with
    | some c => [kXLATE c.va]
    | none => if w.permits use && w.kind == kind && iaRegion (w.toIa base.toNat) == 0xA then [] else [kACCESS base.toNat]

/-- The issue checks of CPYMC. DESIGN CHOICE (log 139): R272 does not name the cause for a destination span that crosses a bank;
it is a limit of the group's values, ILLOP. -/
def State.cpymcCauses (s : State) (c : CopyCmd) : List Cause :=
  let span (w : Window) : Bool := c.mcOff w / 65536 == (c.mcOff w + c.rowb - 1) / 65536
  if !c.groupOk || !((findWindow s.cx.windows (c.g 1).toNat).all span) then [kILLOP]
  else orderCauses (s.mcSide (c.g 0) c.rowb 1 .read ++ s.mcSide (c.g 1) c.rowb 4 .write ++
    if s.tick + 2 ≤ c.lt && c.lt ≤ s.tick + 8191 then [] else [kACCESS c.lt])

/-! ## Issue (R257, R260 to R263) -/

/-- The four words of the window that an address finds. -/
def Ctx.windowWords (x : Ctx) (va : Word) : List Word :=
  match (List.range 8).find? fun w => (x.window w).matches va.toNat with
  | some w => (List.range 4).map fun j => Tbl.look x.aw (4 * w + j) 0
  | none => []

/-- The command that a copy instruction makes of the context at the point of issue. -/
def State.copyMake (s : State) (k : CopyKind) (t : BitVec 6) (g : BitVec 5) (xop : Nat) : CopyCmd :=
  { id := s.fresh, kind := k, xop := xop, issued := s.cycle, core := s.iss.core, ctx := s.iss.ctx, tag := t.toNat, pc := s.iss.pc
    bid := if s.cx.run = .booked then s.cx.bid else none, part := s.ipart, group := s.cx.group g
    srcWin := s.cx.windowWords (s.cx.grp g 0), dstWin := s.cx.windowWords (s.cx.grp g 1)
    half := !(s.pair s.ipair).active, nfr := s.cx.nfrXc.zeroExtend 64
    task := (s.taskOf s.cx).map fun t => (t.1, t.2.seq) }

/-- The package number of the engine that a command names on the issuing core's face. -/
def State.engineOf (s : State) (c : CopyCmd) : Nat := 4 * s.iface + c.eng

/-- The tag is busy, or the engine's queue is full (R257, R260). -/
def State.copyWait (c : CopyCmd) (s : State) : Option (Bool × State) :=
  if (Tbl.look s.ico.tags c.tag {}).busy || 64 ≤ (s.engine (s.engineOf c)).queue.length then some (true, s) else none

/-- Bit `t` of a 64-bit mask. -/
def bit64 (t : Nat) : Word := BitVec.ofNat 64 (2 ^ t)

/-- A tag of the issuing core becomes busy, and its bit is cleared in the four contexts of the core (R260). -/
def State.takeTag (s : State) (t : Nat) : State :=
  let s := (List.range 4).foldl (fun s k =>
    s.onCtx (4 * s.iss.core + k) fun x => { x with tags := x.tags &&& ~~~(bit64 t) }) s
  s.onCore s.iss.core fun k => { k with tags := Tbl.put k.tags t { busy := true, ctx := s.iss.ctx } }

/-- A command enters its engine's queue. -/
def State.enqueueCopy (s : State) (c : CopyCmd) : State :=
  ((s.takeTag c.tag).onEngine (s.engineOf c) fun e => { e with queue := e.queue ++ [c] }).bump

/-- The registers of a scalar group. -/
def groupRegs (g : BitVec 5) : List (BitVec 5) := (List.range 8).map fun j => g + BitVec.ofNat 5 j

def execCpy (p : BitVec 4) (t : BitVec 6) (g : BitVec 5) (x : BitVec 9) (s : State) : Host.Outcome State Fault Refusal :=
  let c := s.copyMake .cpy t g x.toNat
  slotOp (.cpy p t g x) (some p) { rs := groupRegs g } false (State.copyWait c) (fun s => s.cpyCauses c)
    (fun s => s.enqueueCopy c) s

def execCpysl (p : BitVec 4) (t : BitVec 6) (g : BitVec 5) (x : BitVec 9) (s : State) : Host.Outcome State Fault Refusal :=
  let c := s.copyMake .cpysl t g x.toNat
  slotOp (.cpysl p t g x) (some p) { rs := groupRegs g } false (State.copyWait c) (fun s => s.cpyCauses c)
    (fun s => s.enqueueCopy c) s

/-- The beats of a multicast begin with tick LT, and it completes with the tick after (R272). -/
def State.enqueueCpymc (s : State) (c : CopyCmd) : State :=
  let e := s.engineOf c
  ((s.enqueueCopy c).schedule (32 * c.lt) (srcCopy e) (.cpymcWrite e c.id)).schedule (32 * (c.lt + 1)) (srcCopy e)
    (.copyComplete e c.id)

def execCpymc (p : BitVec 4) (t : BitVec 6) (g : BitVec 5) (s : State) : Host.Outcome State Fault Refusal :=
  let c := s.copyMake .cpymc t g 0
  slotOp (.cpymc p t g) (some p) { rs := groupRegs g } false (State.copyWait c) (fun s => s.cpymcCauses c)
    (fun s => s.enqueueCpymc c) s

/-- The command may still be cancelled: a multicast whose tick has begun finishes in full (R273). -/
def CopyCmd.canCancel (c : CopyCmd) (tick : Nat) : Bool :=
  c.kind != .coll && (c.kind != .cpymc || tick < c.lt)

/-- The copy that holds a tag of the issuing core is cancelled (R273). -/
def State.cancelCopy (s : State) (t : Nat) : State :=
  (List.range 4).foldl (fun s i =>
    let e := 4 * s.iface + i
    if (s.engine e).queue.any fun c => c.core == s.iss.core && c.tag == t && c.canCancel s.tick then
      s.onEngine e fun y => { y with queue := y.queue.map fun c =>
        if c.core = s.iss.core ∧ c.tag = t ∧ c.canCancel s.tick then { c with cancelled := true } else c }
    else s) s

def execCpycan (p : BitVec 4) (t : BitVec 6) (s : State) : Host.Outcome State Fault Refusal :=
  slotOp (.cpycan p t) (some p) {} false noWait noCause (fun s => s.cancelCopy t.toNat) s

/-! ## Places after issue (R263, R271) -/

/-- The side is a staging name of CPYSL. -/
def CopyCmd.named (c : CopyCmd) (src : Bool) : Bool := c.kind == .cpysl && c.dir == src

def CopyCmd.win (c : CopyCmd) (src : Bool) : Option Window :=
  match (if src then c.srcWin else c.dstWin) with
  | [] => none
  | ws => some (windowOf (wordAt ws 0) (wordAt ws 1) (wordAt ws 2) (wordAt ws 3))

/-- The IA of a byte of a side: a SCRATCH window reaches the own pair's scratchpad, a WBANK window its shadow half. -/
def CopyCmd.ia (c : CopyCmd) (src : Bool) (va : Nat) : Nat :=
  if c.named src then 9 * 2 ^ 48 + va % 2 ^ 31
  else match c.win src with
    | none => 0
    | some w =>
      let ia := w.toIa va
      match w.kind with
      | 1 => 0xA * 2 ^ 48 + pairOf c.core * 2 ^ 21 + ia % 2 ^ 21
      | 2 => 0xB * 2 ^ 48 + pairOf c.core * 2 ^ 25 + c.half.toNat * 2 ^ 24 + ia % 2 ^ 24
      | _ => ia

/-- The pages that a task has renamed (R362). -/
def State.versFor (s : State) (task : Option (Nat × Nat)) : List (Nat × Nat) :=
  match task with
  | none => []
  | some (d, q) => match (s.disp d).tasks.find? fun t => t.seq == q with
    | some t => t.renamed.map fun v => (d * 2 ^ 32 + v.1, v.2)
    | none => []

/-- The request that a copy makes on a side. -/
def State.copyReq (s : State) (c : CopyCmd) (src : Bool) : Req :=
  { dom := domOf c.core, part := c.part, alloc := (c.win src).all Window.alloc, vers := s.versFor c.task, copy := true }

/-- Copy statuses (R278). -/
def stACCESS : Nat := 1
def stSTAGING : Nat := 2
def stUNMAPPED : Nat := 3

/-- The status of a memory-side refusal. -/
def copyFault (code : Nat) : Nat := if code = codeUNMAPPED then stUNMAPPED else stACCESS

/-- A run passes the size that the engine's table gives its slice (R183, R271). -/
def State.pastStaging (s : State) (e ia len : Nat) : Bool :=
  iaRegion ia == 9 && Tbl.look (s.engine e).staging (stagingOf ia).1 0 < (stagingOf ia).2 + len

/-- The stopping status of a row as it is first touched. -/
def State.rowStop (s : State) (e : Nat) (c : CopyCmd) (src : Bool) (sp : Span) : Option Nat :=
  if c.named src then
    let base := if src then (c.g 0).toNat else (c.g 1).toNat
    if sp.va / 2 ^ 20 = base / 2 ^ 20 ∧ !(s.pastStaging e (c.ia src sp.va) sp.len) then none else some stSTAGING
  else match c.win src with
    | none => some stACCESS
    | some w =>
      let base := if src then (c.g 0).toNat else (c.g 1).toNat
      if !w.permits (if src then .read else .write) ||
          (sp.cells 16).any fun x => w.badByte (w.toIa base) x.va || !s.copyKindOk c.part w x.va then some stACCESS
      else if (sp.cells 16).any fun x => s.pastStaging e (c.ia src x.va) x.len then some stSTAGING
      else none

/-! ## Values (R265 to R267) -/

/-- A source value: an F32 lane, an exact value, or bits that are moved. -/
inductive CopyVal where
  | lane (x : Lane)
  | exact (v : Fv)
  | bits (x : Lane)
  deriving DecidableEq, Repr

/-- The value as R71 reads it. -/
def CopyVal.fv : CopyVal → Fv
  | .lane x => Sys2Proof.Machine.fv x
  | .exact v => v
  | .bits x => .fin x.msb x.toInt.natAbs 0

/-- The lane of an element as a value, by the format of its source. -/
def valOf (f : Nat) (x : Lane) : CopyVal :=
  if f = 0xE then .bits x
  else if fmtIsFloat f then .lane x
  else .exact (.fin x.msb x.toInt.natAbs 0)

/-- The code of an exact value in a scaled or unscaled format, rounded once (R69, R71, R265). -/
def exactCode (f : Nat) (t : Target) (e : Int) (v : Fv) : Nat :=
  match v with
  | .fin n m k =>
    match f with
    | 0x1 => (rne32 n m k).toNat
    | 0x2 => fmtBF16.round n m k
    | 0x3 => fmtF16.round n m k
    | 0x6 => (sat (toInt false n m k) (-2147483648) 2147483647 % 2 ^ 32).toNat
    | _ => match t with
      | .flt g => g.round n m (k - e)
      | .int lo hi b => (sat (toInt false n m (k - e)) lo hi % (2 ^ b : Int)).toNat
  | _ => 0

/-- The code of a value in a destination format. -/
def valCode (f : Nat) (t : Target) (e : Int) : CopyVal → Nat
  | .bits x => x.toNat
  | .exact v => exactCode f t e v
  | .lane x =>
    match f with
    | 0x1 => x.toNat
    | 0x2 => narrow fmtBF16 x
    | 0x3 => narrow fmtF16 x
    | 0x6 => (f32ToInt false (-2147483648) 2147483647 x % 2 ^ 32).toNat
    | _ => storeCode t e true x

/-- Formats that a store does not scale (R70, R71). -/
def unscaled (f : Nat) : Bool := f ≤ 3 || f == 6 || f == 0xE

/-- The E of a block that holds these values. -/
def valScale (f : Nat) (t : Target) (vs : List CopyVal) : Int :=
  if unscaled f then 0 else coatScale t (vs.map CopyVal.fv)

/-- Source blocks by VA. -/
abbrev Blocks := Tbl BlockVal

/-- `n` bits from bit `at` of a run of blocks that starts at a VA. -/
def runBits (bs : Blocks) (va at' n : Nat) : Nat :=
  let blk (i : Nat) : Nat := (Tbl.look bs (va + 64 * i) { data := 0, coat := 0 }).data
  bitsOf (blk (at' / 512) + 2 ^ 512 * blk (at' / 512 + 1)) (at' % 512) n

/-- Width of the elements of a COAT row by its first CODE; 0 where that block alone is the row (R65). -/
def coatWidth (nfr : Word) (code : Nat) : Nat := if 1 ≤ code ∧ code ≤ 0xC then elemBits nfr (codeFmt code) else 0

/-- The value of source element (r, k), and whether its block is poisoned (R65, R66, R265, R267). DESIGN CHOICE (log 137): R62
speaks of `the block that holds` an element; one that straddles two blocks takes the coat of the block of its lowest bit. -/
def CopyCmd.srcVal (c : CopyCmd) (bs : Blocks) (r k : Nat) : CopyVal × Bool :=
  let va := c.rowVa true r
  let org := originNaN c.pc (r % 16 * 64 + k % 64)
  let blk (w : Nat) : BlockVal := Tbl.look bs (va + 64 * (k * w / 512)) { data := 0, coat := 0x00FF }
  if c.coated then
    let code := coatCode (blk 0).coat
    let w := coatWidth c.nfr code
    let b := blk w
    if w = 0 then (if coatZero b.coat then (.lane 0, false) else (.lane org, true))
    else if coatPoison b.coat || (!coatZero b.coat && coatCode b.coat != code) then (.lane org, true)
    else if coatZero b.coat then (.lane 0, false)
    else (.lane (coatLane c.nfr code (runBits bs va (k * w) w) (coatE b.coat)), false)
  else
    let w := elemBits c.nfr c.sfmt
    let b := blk w
    let x : Lane :=
      if coatPoison b.coat then poisonLane c.nfr c.pc c.sfmt (r % 16 * 64 + k % 64)
      else if coatZero b.coat then 0
      else elemLane c.nfr c.sfmt (runBits bs va (k * w) w)
    (valOf c.sfmt x, coatPoison b.coat)

/-- The value of element (r, k) under MERGE: the reading of its patch times 2^E (R266). -/
def CopyCmd.mergeVal (c : CopyCmd) (bs : Blocks) (r k : Nat) : CopyVal × Bool :=
  let ps := (List.range c.q).map fun i =>
    Tbl.look bs (c.patchVa true (r / 8) (k / 64) i) { data := 0, coat := 0x00FF }
  let bad := ps.zipIdx.any fun (b, i) => coatPoison b.coat || coatCode b.coat != patchCode c.uns (7 - i)
  let x := (planeLane c.nfr c.uns c.cen ps (r % 8) (k % 64)).toInt
  let e : Int := if bad then 0 else ((ps.find? fun b => !coatZero b.coat).map fun b => coatE b.coat).getD 0
  (.exact (.fin (decide (x < 0)) x.natAbs e), bad)

/-- The value of element `k` of destination row `r`. -/
def CopyCmd.dstVal (c : CopyCmd) (bs : Blocks) (r k : Nat) : CopyVal × Bool :=
  match c.xop with
  | 2 => c.srcVal bs k r
  | 4 => c.mergeVal bs r k
  | _ => c.srcVal bs r k

/-- A block write of a copy: its VA on the destination side, its bytes, the write, and whether it is poisoned. -/
structure CWrite where
  va  : Nat
  len : Nat
  w   : BWrite
  bad : Bool := false
  deriving DecidableEq, Repr

/-- Elements laid side by side from a block boundary: each block takes its E from the elements whose lowest bit it
holds, and is poisoned by any element with a bit in it (R71, R267). DESIGN CHOICE (log 138): a destination row that ends inside a
block writes that block's bytes up to the row's end, with the new coat, and only they count in CBYTES; R258's whole blocks are
those of rows that fill them. -/
def layElems (nfr : Word) (f : Nat) (va : Nat) (vs : List (CopyVal × Bool)) : List CWrite :=
  let w := elemBits nfr f
  let t := storeTarget nfr false f
  let total := vs.length * w
  let blocks := (total + 511) / 512
  let part (i : Nat) : List (CopyVal × Bool) := (vs.zipIdx.filter fun v => v.2 * w / 512 == i).map Prod.fst
  let codes := (List.range blocks).flatMap fun i =>
    let e := valScale f t ((part i).map Prod.fst)
    (part i).map fun v => valCode f t e v.1
  let all := packCodes w codes
  (List.range blocks).map fun i =>
    let e := valScale f t ((part i).map Prod.fst)
    let bad := vs.zipIdx.any fun v => v.1.2 && v.2 * w < 512 * (i + 1) && 512 * i < (v.2 + 1) * w
    let bits := min 512 (total - 512 * i)
    { va := va + 64 * i, len := bits / 8, bad := bad
      w := { mask := 2 ^ bits - 1, data := bitsOf all (512 * i) 512
             coat := some (if bad then 0x00FF else mkCoat e (fmtCode f)) } }

/-! ## Units of work (R258): the least parts of a copy, in ascending order of destination -/

/-- Blocks of a unit of a transform by element: as many as no element leaves. -/
def CopyCmd.unitBlocks (c : CopyCmd) : Nat := if 512 % c.dbits = 0 then 1 else c.dbits
def CopyCmd.unitElems (c : CopyCmd) : Nat := 512 * c.unitBlocks / c.dbits
def CopyCmd.unitsPerRow (c : CopyCmd) : Nat :=
  if c.xop = 0 then c.rowb / 64 else ceilDiv c.dstElems c.unitElems

/-- Units of the whole copy, EXPAND apart. -/
def CopyCmd.units (c : CopyCmd) : Nat :=
  match c.xop with
  | 0 => c.rows * c.unitsPerRow
  | 3 => c.rows / 8 * (c.cols / 64)
  | _ => c.dstRows * c.unitsPerRow

/-- The destination row and the elements of a unit: row, first, one past the last. -/
def CopyCmd.unitAt (c : CopyCmd) (u : Nat) : Nat × Nat × Nat :=
  let k := u % c.unitsPerRow
  (u / c.unitsPerRow, k * c.unitElems, min c.dstElems ((k + 1) * c.unitElems))

/-- The source elements (row, column) of a unit. -/
def CopyCmd.unitCells (c : CopyCmd) (u : Nat) : List (Nat × Nat) :=
  if c.xop = 3 then
    (List.range 512).map fun i => (u / (c.cols / 64) * 8 + i / 64, u % (c.cols / 64) * 64 + i % 64)
  else
    let (r, a, b) := c.unitAt u
    (List.range (b - a)).map fun i => if c.xop = 2 then (a + i, r) else (r, a + i)

/-- A source block as memory has it now: the read of the chunk that follows is the request (R258). -/
def State.peekBlock (s : State) (c : CopyCmd) (va : Nat) : Option BlockVal :=
  match (s.iaRead (s.copyReq c true) (c.ia true va)).1 with
  | .ok b => some b
  | .fail _ => none

/-- A block that an earlier chunk of the unit has read. -/
def CopyCmd.kept (c : CopyCmd) (va : Nat) : Option BlockVal :=
  (Tbl.find c.buf va).map fun b => { data := b.1, coat := b.2 }

/-- The CODE of the first block of a COAT row (R265). -/
def State.rowCode (s : State) (e : Nat) (c : CopyCmd) (r : Nat) : Nat :=
  let va := c.rowVa true r
  match c.kept va with
  | some b => coatCode b.coat
  | none =>
    if (s.rowStop e c true { va := va, len := 64 }).isSome then 0
    else ((s.peekBlock c va).map fun b => coatCode b.coat).getD 0

/-- Width of the source elements of a row. -/
def State.rowWidth (s : State) (e : Nat) (c : CopyCmd) (r : Nat) : Nat :=
  if c.coated then coatWidth c.nfr (s.rowCode e c r) else c.sbits

/-- The blocks that hold element `k` of a row of elements of `w` bits. -/
def cellBlocks (va k w : Nat) : List Nat :=
  let a := k * w / 512
  let b := (k * w + w - 1) / 512
  if w = 0 ∨ a = b then [va + 64 * a] else [va + 64 * a, va + 64 * b]

/-- The VAs of the source blocks of a unit. -/
def State.unitReads (s : State) (e : Nat) (c : CopyCmd) (u : Nat) : List Nat :=
  match c.xop with
  | 0 => [c.rowVa true (u / c.unitsPerRow) + 64 * (u % c.unitsPerRow)]
  | 4 =>
    let (r, a, b) := c.unitAt u
    ((List.range ((b - 1) / 64 - a / 64 + 1)).flatMap fun i => (List.range c.q).map fun j =>
      c.patchVa true (r / 8) (a / 64 + i) j)
  | _ =>
    let cells := c.unitCells u
    let rows := (cells.map Prod.fst).eraseDups
    (rows.flatMap fun r =>
      let w := s.rowWidth e c r
      (if c.coated then [c.rowVa true r] else []) ++
        (cells.filter fun x => x.1 == r).flatMap fun x => cellBlocks (c.rowVa true r) x.2 w).eraseDups

/-- The rows or planes of a unit with their whole length, for the checks made as they are first touched: the source's,
then the destination's. -/
def State.unitRows (s : State) (e : Nat) (c : CopyCmd) (u : Nat) : List (Bool × Span) :=
  let srcRow (r : Nat) : Bool × Span :=
    (true, { va := c.rowVa true r
             len := if c.coated then max 64 (c.cols * s.rowWidth e c r / 8) else c.rowb })
  let dstRow (r : Nat) : Bool × Span := (false, { va := c.rowVa false r, len := c.dstElems * c.dbits / 8 })
  match c.xop with
  | 0 =>
    let r := u / c.unitsPerRow
    [(true, { va := c.rowVa true r, len := c.rowb }), (false, { va := c.rowVa false r, len := c.rowb })]
  | 3 =>
    (((c.unitCells u).map Prod.fst).eraseDups.map srcRow) ++
      (List.range c.q).map fun i => (false, { va := c.patchVa false (u / (c.cols / 64)) (u % (c.cols / 64)) i, len := 64 })
  | 4 => (s.unitReads e c u).map (fun va => (true, { va := va, len := 64 })) ++ [dstRow (c.unitAt u).1]
  | _ => (((c.unitCells u).map Prod.fst).eraseDups.map srcRow) ++ [dstRow (c.unitAt u).1]

/-- The VAs of the destination blocks of a unit. -/
def CopyCmd.unitDests (c : CopyCmd) (u : Nat) : List Nat :=
  match c.xop with
  | 0 => [c.rowVa false (u / c.unitsPerRow) + 64 * (u % c.unitsPerRow)]
  | 3 => (List.range c.q).map fun i => c.patchVa false (u / (c.cols / 64)) (u % (c.cols / 64)) i
  | _ =>
    let (r, a, b) := c.unitAt u
    (List.range (ceilDiv ((b - a) * c.dbits) 512)).map fun i => c.rowVa false r + a * c.dbits / 8 + 64 * i

/-- The planes of a patch of values: one scale for the patch (R75, R266). -/
def CopyCmd.splitUnit (c : CopyCmd) (bs : Blocks) (u : Nat) : List CWrite :=
  let vs := (c.unitCells u).map fun x => c.srcVal bs x.1 x.2
  let t := storeTarget c.nfr c.uns 0xC
  let e := coatScale t (vs.map fun v => v.1.fv)
  let codes := vs.map fun v => valCode 0xC t e v.1
  let bad := vs.any Prod.snd
  (List.range c.q).map fun i =>
    { va := c.patchVa false (u / (c.cols / 64)) (u % (c.cols / 64)) i, len := 64, bad := bad
      w := { mask := 2 ^ 512 - 1, data := packCodes 1 (codes.map fun z => z / 2 ^ (7 - i))
             coat := some (if bad then 0x00FF else mkCoat e (patchCode c.uns (7 - i))) } }

/-- The writes of a unit from its source blocks. -/
def CopyCmd.unitWrites (c : CopyCmd) (bs : Blocks) (u : Nat) : List CWrite :=
  match c.xop with
  | 0 =>
    let va := c.rowVa true (u / c.unitsPerRow) + 64 * (u % c.unitsPerRow)
    [{ va := c.rowVa false (u / c.unitsPerRow) + 64 * (u % c.unitsPerRow), len := 64
       w := BWrite.whole (Tbl.look bs va { data := 0, coat := 0 }) }]
  | 3 => c.splitUnit bs u
  | _ =>
    let (r, a, b) := c.unitAt u
    layElems c.nfr c.dfmt (c.rowVa false r + a * c.dbits / 8) ((List.range (b - a)).map fun i => c.dstVal bs r (a + i))

/-! ## Zero-elided streams (R268, R269) -/

/-- A stream as far as it has been read: the maps and the payload blocks that stand where their CODE allows, and whether
every block does. -/
structure StreamParts where
  nblk  : Nat
  dcode : Nat
  maps  : List BlockVal
  pays  : List BlockVal
  fits  : Bool
  deriving DecidableEq, Repr

/-- The header, the maps and the payload blocks in order (R268). A header that is missing or coded otherwise declares blocks
that no map covers, so that D = 0 differs from NBLK (R269). -/
def streamParts : List BlockVal → StreamParts
  | [] => { nblk := 1, dcode := 0, maps := [], pays := [], fits := true }
  | h :: t =>
    if coatCode h.coat ≠ 0x40 then { nblk := 1, dcode := 0, maps := [], pays := [], fits := false }
    else
      let nblk := bitsOf h.data 0 64
      let nmap := ceilDiv nblk 512
      let maps := (t.take nmap).takeWhile fun b => coatCode b.coat == 0x41
      let pays := if maps.length = nmap then (t.drop nmap).takeWhile fun b => coatCode b.coat == 0x42 else []
      { nblk := nblk, dcode := bitsOf h.data 64 8, maps := maps, pays := pays, fits := maps.length + pays.length == t.length }

/-- The expanded blocks from position `d` on, with `k` payload blocks used: stops where a map or a payload has not been
read. -/
def StreamParts.expand (p : StreamParts) : Nat → Nat → Nat → List BlockVal × Nat × Nat
  | 0, d, k => ([], d, k)
  | n + 1, d, k =>
    if p.nblk ≤ d then ([], d, k)
    else match p.maps[d / 512]? with
      | none => ([], d, k)
      | some m =>
        if bitsOf m.data (d % 512) 1 = 1 then
          match p.pays[k]? with
          | none => ([], d, k)
          | some b =>
            let r := p.expand n (d + 1) (k + 1)
            ({ data := b.data, coat := mkCoat (coatE b.coat) p.dcode } :: r.1, r.2)
        else
          let r := p.expand n (d + 1) k
          ({ data := 0, coat := mkCoat (-128) p.dcode } :: r.1, r.2)

/-- D of R269 once position `d` is the last with `k` payload blocks used. -/
def StreamParts.count (p : StreamParts) (d k : Nat) : Nat := if d = p.nblk then p.nblk + p.pays.length - k else d

/-- A stream decoded whole: its expanded blocks, D and NBLK. -/
structure Expanded where
  blocks : List BlockVal
  d      : Nat
  nblk   : Nat
  deriving DecidableEq, Repr

def expandStream (bs : List BlockVal) : Expanded :=
  let p := streamParts bs
  let r := p.expand (min p.nblk (512 * p.maps.length)) 0 0
  { blocks := r.1, d := p.count r.2.1 r.2.2, nblk := p.nblk }

/-- Source blocks of an EXPAND, and the VA of block `i` in row order. -/
def CopyCmd.streamLen (c : CopyCmd) : Nat := c.rows * (c.rowb / 64)
def CopyCmd.streamVa (c : CopyCmd) (i : Nat) : Nat := c.rowVa true (i / (c.rowb / 64)) + 64 * (i % (c.rowb / 64))

/-- The stream as earlier chunks have read it. -/
def CopyCmd.streamBlocks (c : CopyCmd) : List BlockVal := c.stream.map fun b => { data := b.1, coat := b.2 }

/-- Of the next source blocks those that a chunk reads, and the stream with them: reading ends with the first block whose CODE
does not fit its position (R269). -/
def State.streamReads (s : State) (c : CopyCmd) : List Nat → List BlockVal → List Nat × List BlockVal
  | [], bs => ([], bs)
  | va :: t, bs =>
    match s.peekBlock c va with
    | none => ([va], bs)
    | some b =>
      if (streamParts (bs ++ [b])).fits then
        let r := s.streamReads c t (bs ++ [b])
        (va :: r.1, r.2)
      else ([va], bs ++ [b])

/-- VA of an expanded block. -/
def CopyCmd.expandVa (c : CopyCmd) (i : Nat) : Nat :=
  let per := c.aux / 64
  c.rowVa false (i / per) + 64 * (i % per)

/-- The destination row of an expanded block. -/
def CopyCmd.expandRow (c : CopyCmd) (i : Nat) : Span := { va := c.rowVa false (i / (c.aux / 64)), len := c.aux }

/-! ## Chunks (R258, R259) -/

/-- A chunk: its source and destination blocks by VA, the units that it completes, and the rows that it touches. -/
structure Chunk where
  units : List Nat
  reads : List Nat
  dests : List Nat
  rows  : List (Bool × Span)
  deriving DecidableEq, Repr

/-- The most blocks that a chunk reads, and that it writes (R258). -/
def chunkMost : Nat := 24

/-- The source blocks of a unit that no chunk has read yet. -/
def State.unitMissing (s : State) (e : Nat) (c : CopyCmd) (u : Nat) : List Nat :=
  (s.unitReads e c u).filter fun va => (Tbl.find c.buf va).isNone

/-- The units from `u` on that a chunk completes beside those taken, with their source blocks. -/
def State.takeUnits (s : State) (e : Nat) (c : CopyCmd) : Nat → Nat → List Nat → List Nat → List Nat × List Nat
  | 0, _, us, reads => (us, reads)
  | n + 1, u, us, reads =>
    let more := (reads ++ s.unitMissing e c u).eraseDups
    if c.units ≤ u || chunkMost < more.length || chunkMost < ((us ++ [u]).flatMap c.unitDests).length then (us, reads)
    else s.takeUnits e c n (u + 1) (us ++ [u]) more

/-- The next chunk of a copy: the units whose blocks fit, or the first blocks of a unit that takes more than one chunk to
read. An EXPAND reads on in its stream until 24 expanded blocks are there to be written. -/
def State.chunkOf (s : State) (e : Nat) (c : CopyCmd) : Chunk :=
  if c.xop = 5 then
    let bs := c.streamBlocks
    let ready := ((streamParts bs).expand chunkMost c.done c.taken).1.length
    let n := if c.ended ∨ ready = chunkMost then 0 else min chunkMost (c.streamLen - bs.length)
    let r := s.streamReads c ((List.range n).map fun i => c.streamVa (bs.length + i)) bs
    let out := ((streamParts r.2).expand chunkMost c.done c.taken).1
    { units := (List.range out.length).map (c.done + ·), reads := r.1
      dests := (List.range out.length).map fun i => c.expandVa (c.done + i)
      rows := ((List.range r.1.length).map fun i => (true, ({ va := c.rowVa true ((bs.length + i) / (c.rowb / 64)), len := c.rowb } : Span))).eraseDups }
  else
    let (us, reads) := s.takeUnits e c chunkMost c.done [] []
    if us.isEmpty then
      let reads := (s.unitMissing e c c.done).take chunkMost
      { units := [], reads := reads, dests := []
        rows := (s.unitRows e c c.done).filter fun r => r.1 && reads.any fun va => r.2.va ≤ va && va < r.2.va + r.2.len }
    else
      { units := us, reads := reads, dests := us.flatMap c.unitDests, rows := (us.flatMap (s.unitRows e c)).eraseDups }

/-- The next chunk of a multicast's source (R272). -/
def CopyCmd.sourceChunk (c : CopyCmd) : Chunk :=
  let n := min chunkMost (c.rowb / 64 - c.source.length)
  { units := [], reads := (List.range n).map fun i => c.rowVa true 0 + 64 * (c.source.length + i), dests := [], rows := [] }

/-! ## Rows, links and time (R210, R211, R256 to R259, R377) -/

/-- The face on which a place is counted (R377). -/
def State.faceOfIa (s : State) (q : Req) (ia : Nat) : Nat :=
  if 9 ≤ iaRegion ia ∧ iaRegion ia ≤ 0xB then deviceFace ia else homeSlice (s.homeDom q ia) ia / 48

/-- The link row of a face by which traffic to or from another face goes. -/
def linkRow (face other : Nat) (write : Bool) : Option Nat :=
  if other = face then none
  else if other / 8 ≠ face / 8 then some (if write then rowLink 4 else rowLink 5)
  else if !write then none
  else if other % 4 ≠ face % 4 then some (if face % 4 < other % 4 then rowLink 1 else rowLink 3)
  else some (if face % 8 / 4 < other % 8 / 4 then rowLink 2 else rowLink 0)

/-- The calendar row of a place on the face that holds it: a bank, the weight bank's write port or a staging port. -/
def placeRow (ia : Nat) : Option Nat :=
  match iaRegion ia with
  | 9 => some (rowSlice (stagingOf ia).1)
  | 0xA => some (rowBank (bitsOf ia 21 8) (bitsOf ia 16 5))
  | 0xB => some (rowWWrite (bitsOf ia 25 8))
  | _ => none

/-- The pair and the bank of a place, the write port of a weight bank as bank 33. -/
def placeBank (ia : Nat) : Option (Nat × Nat) :=
  match iaRegion ia with
  | 0xA => some (bitsOf ia 21 8, bitsOf ia 16 5)
  | 0xB => some (bitsOf ia 25 8, 33)
  | _ => none

/-- Every read and write falls in banks of the engine's face (R258). -/
def CopyCmd.isLocal (c : CopyCmd) (e : Nat) (k : Chunk) : Bool :=
  (k.reads.map (c.ia true) ++ k.dests.map (c.ia false)).all fun ia =>
    (iaRegion ia == 0xA || iaRegion ia == 0xB) && deviceFace ia == e / 4

/-- Cycles of the reads of a chunk, and of the whole of one that stays in the face's banks. -/
def Chunk.readLen (k : Chunk) : Nat := max 1 k.reads.length
def Chunk.len (k : Chunk) (isLocal : Bool) : Nat :=
  if isLocal && !k.dests.isEmpty then 8 + max k.readLen k.dests.length else k.readLen

/-- The cycles up to the last block in a list that lies in a place, one block a cycle (R258). -/
def lastIn {α : Type} [BEq α] (x : α) (l : List (Option α)) : Nat :=
  l.zipIdx.foldl (fun m e => if e.1 == some x then e.2 + 1 else m) 0

/-- The banks and write ports that a chunk takes as it starts: pair, bank, first cycle from the start, and cycles. DEDUCED (log
140): its blocks follow one another at one a cycle; it holds a source bank from its first cycle up to that of the last block that
it reads there, and a destination bank in the cycle in which each block lands there. The writes of a chunk that leaves the face's
banks take theirs as they are made. -/
def CopyCmd.chunkBanks (c : CopyCmd) (e : Nat) (k : Chunk) : List (Nat × Nat × Nat × Nat) :=
  let from' := k.reads.map fun va => placeBank (c.ia true va)
  ((from'.filterMap fun x => x).eraseDups.map fun b => (b.1, b.2, 0, lastIn b from')) ++
    if c.isLocal e k then
      k.dests.zipIdx.filterMap fun (va, i) => (placeBank (c.ia false va)).map fun b => (b.1, b.2, 8 + i, 1)
    else []

/-- The rows that a chunk uses (R259): the face of each, the row, and the cycles up to its last one there. The port of another
face that it reads belongs to them; where it writes on another face, the write is held for its row (R258). -/
def State.chunkRows (s : State) (e : Nat) (c : CopyCmd) (k : Chunk) : List (Nat × Nat × Nat) :=
  let face := e / 4
  let near := c.isLocal e k
  let n := k.len near
  let ports (ias : List Nat) (own : Bool) (cells : Nat → Nat) : List (Nat × Nat × Nat) :=
    let rs := ias.map fun ia => (placeRow ia).map fun r => (deviceFace ia, r)
    ((rs.filterMap fun x => x).eraseDups.filter fun r => !own || r.1 == face).map fun r => (r.1, r.2, cells (lastIn r rs))
  let links (src : Bool) (vas : List Nat) : List (Nat × Nat × Nat) :=
    (vas.filterMap fun va => linkRow face (s.faceOfIa (s.copyReq c src) (c.ia src va)) (!src)).eraseDups.map fun r => (face, r, n)
  (face, rowCopy e, n) :: (ports (k.reads.map (c.ia true)) false (fun m => m) ++
    ports (k.dests.map (c.ia false)) true (fun m => if near then 8 + m else n) ++
    links true k.reads ++ links false k.dests)

/-- The flits that a chunk sends over each link row of the engine's face (R377). -/
def State.chunkFlits (s : State) (e : Nat) (c : CopyCmd) (k : Chunk) : List (Nat × Nat) :=
  let via (src : Bool) (va : Nat) : Option Nat := linkRow (e / 4) (s.faceOfIa (s.copyReq c src) (c.ia src va)) (!src)
  let rs := k.reads.filterMap (via true) ++ k.dests.filterMap (via false)
  rs.eraseDups.map fun r => (r, (rs.filter fun x => x == r).length)

/-- Flits that a link row has carried in this tick, and in the next by chunks that run on (R377). -/
def State.flitsUsed (s : State) (f row : Nat) : Nat × Nat :=
  let u := Tbl.look (s.face f).flits row (0, 0, 0)
  if u.1 = s.tick then u.2 else if u.1 + 1 = s.tick then (u.2.2, 0) else (0, 0)

/-- Flits that a link row still carries in this tick (R377). -/
def State.flitsLeft (s : State) (f row : Nat) : Nat := 272 - (s.flitsUsed f row).1

/-- Flits go over a link row in this tick, and others in the next. -/
def State.sendFlits (s : State) (f row n later : Nat) : State :=
  let u := s.flitsUsed f row
  s.onFace f fun x => { x with flits := Tbl.put x.flits row (s.tick, u.1 + n, u.2 + later) }

/-- Of `n` flits, one a cycle from this cycle on, those of this tick (R258). -/
def State.flitsNow (s : State) (n : Nat) : Nat := min n (32 - s.cycle % 32)

/-- The booking under which a command runs: none once its task's bookings have ended (R257). -/
def State.copyBid (s : State) (c : CopyCmd) : Option Nat := c.bid.filter (s.holdsBid (4 * c.core + c.ctx))

/-- The command that is next in its class; a collective's member that has joined is out of the way (R257, R383). -/
def State.copyHead (s : State) (e : Nat) (k : Option Nat) : Option CopyCmd :=
  (s.engine e).queue.find? fun c => s.copyBid c == k && !c.joined

/-- The class that the engine serves in this tick: a booked task's commands, or the free ones. -/
def State.copyClass (s : State) (e : Nat) : Option (Option Nat) :=
  match (s.face (e / 4)).owner (rowCopy e) s.tick with
  | .free => some none
  | .bid b => some (some b)
  | .ctl => none

/-- The rows let a chunk of `n` cycles run from cycle `t` on: under a booking every tick that it spans is the task's on the
rows of the engine's face; otherwise each row is FREE up to the chunk's last cycle on it (R210, R259). -/
def State.chunkRowsAllow (s : State) (b : Option Nat) (e : Nat) (rows : List (Nat × Nat × Nat)) (t n : Nat) : Bool :=
  rows.all fun (f, r, m) =>
    !((wbankRowPair r).any fun p => s.wbankShut (8 * f + p) r t (t + m - 1)) &&
    match b with
    | some b => if f = e / 4 then (s.face f).ownedCycles b r t (t + n - 1) else (s.face f).freeCycles r t (t + m - 1)
    | none => (s.face f).freeCycles r t (t + m - 1)

/-- A bank is free of other units for `n` cycles from cycle `c` on, the write port as bank 33 (R170, R172). -/
def Pair.bankOpen (x : Pair) (b c n : Nat) : Bool :=
  Tbl.look x.coreBank b 0 ≤ c && !x.bankHeld b c n && !x.arrayUses b c n

/-- The banks, write ports and links that a chunk takes are free. -/
def State.chunkPortsFree (s : State) (e : Nat) (c : CopyCmd) (k : Chunk) : Bool :=
  ((c.chunkBanks e k).all fun (p, b, off, n) => (s.pair p).bankOpen b (s.cycle + off) n) &&
    (s.chunkFlits e c k).all fun (r, n) =>
      s.flitsNow n ≤ s.flitsLeft (e / 4) r && n - s.flitsNow n + (s.flitsUsed (e / 4) r).2 ≤ 272

/-- A chunk takes its banks, write ports and links. -/
def State.chunkTakePorts (s : State) (e : Nat) (c : CopyCmd) (k : Chunk) : State :=
  let s := (c.chunkBanks e k).foldl (fun s (p, b, off, n) =>
    s.onPair p fun x => x.holdBank s.cycle b (s.cycle + off) n) s
  (s.chunkFlits e c k).foldl (fun s (r, n) => s.sendFlits (e / 4) r (s.flitsNow n) (n - s.flitsNow n)) s

/-! ## Carrying out a chunk -/

/-- A command of an engine is changed. -/
def State.onCopy (s : State) (e id : Nat) (f : CopyCmd → CopyCmd) : State :=
  s.onEngine e fun y => { y with queue := y.queue.map fun c => if c.id = id then f c else c }

/-- The source blocks are read in order: the first refusal ends the chunk. -/
def State.readCopy (s : State) (c : CopyCmd) : List Nat → Except Nat Blocks × State
  | [] => (.ok [], s)
  | va :: t =>
    match s.iaRead (s.copyReq c true) (c.ia true va) with
    | (.fail code, s) => (.error (copyFault code), s)
    | (.ok b, s) =>
      match s.readCopy c t with
      | (.ok l, s) => (.ok (Tbl.put l va b), s)
      | (.error st, s) => (.error st, s)

/-- The status with which the memory would refuse one of these writes now: a chunk is checked as a whole (R278). -/
def State.writeStop (s : State) (c : CopyCmd) (ws : List CWrite) : Option Nat :=
  (s.iaWrites (s.copyReq c false) (ws.map fun x => (c.ia false x.va, x.w))).1.map copyFault

/-- The writes that wait in the engine: block `i` of a chunk from cycle `t` on (R258). -/
def heldWrites (chunk t : Nat) (near : Bool) (ws : List CWrite) : List OutWrite :=
  ws.zipIdx.map fun (x, i) =>
    { chunk := chunk, due := t + i, near := near, va := x.va, len := x.len, mask := x.w.mask, data := x.w.data, coat := x.w.coat
      bad := x.bad }

/-- What a chunk of a copy by units leaves: the command and the writes. -/
def CopyCmd.afterUnits (c : CopyCmd) (k : Chunk) (bs : Blocks) : CopyCmd × List CWrite :=
  let kept : Blocks := c.buf.map fun (va, b) => (va, { data := b.1, coat := b.2 })
  let all : Blocks := bs.foldl (fun l b => Tbl.put l b.1 b.2) kept
  let done := c.done + k.units.length
  ({ c with done := done, buf := if k.units.isEmpty then all.map fun (va, b) => (va, b.data, b.coat) else []
            finished := c.units ≤ done },
    k.units.flatMap (c.unitWrites all))

/-- What a chunk of an EXPAND leaves: the command, the writes before the first destination row that fails, and its status
(R263, R269). -/
def State.afterStream (s : State) (e : Nat) (c : CopyCmd) (k : Chunk) (bs : Blocks) : CopyCmd × List CWrite × Option Nat :=
  let read := c.streamBlocks ++ k.reads.map fun va => Tbl.look bs va { data := 0, coat := 0x00FF }
  let p := streamParts read
  let (out, d, n) := p.expand chunkMost c.done c.taken
  let part := out.zipIdx.map fun (b, i) => (c.done + i, b)
  let good := part.takeWhile fun (i, _) => s.rowStop e c false (c.expandRow i) == none
  let stop := (part[good.length]?).bind fun (i, _) => s.rowStop e c false (c.expandRow i)
  let ended := c.ended || !p.fits || c.streamLen ≤ read.length
  let spent := ended && (p.expand 1 d n).1.isEmpty
  ({ c with done := d, taken := n, stream := read.map fun b => (b.data, b.coat), ended := ended, stop := stop
            finished := spent || stop.isSome, mismatch := spent && p.count d n != p.nblk },
    good.map fun (i, b) => { va := c.expandVa i, len := 64, w := BWrite.whole b }, stop)

/-- A command meets a stopping status: no chunk follows, and the writes of chunk `n` and of later ones are not made (R278). -/
def CopyCmd.stopAt (c : CopyCmd) (st n : Nat) : CopyCmd :=
  { c with stop := some st, finished := true, out := c.out.filter fun w => w.chunk < n }

/-- A chunk starts in this cycle: its reads, its time and its place in the copy, and the writes that it leaves in the engine. -/
def State.startChunk (s : State) (e : Nat) (c : CopyCmd) (k : Chunk) : State :=
  let near := c.isLocal e k
  let n := k.len near
  let s := (s.chunkTakePorts e c k).onEngine e fun y => { y with free := s.cycle + n }
  let begun (z : CopyCmd) : CopyCmd := { z with started := true, parked := false, chunks := z.chunks + 1, ends := [s.cycle + n] }
  let stopped (s : State) (st : Nat) : State := s.onCopy e c.id fun z => (begun z).stopAt st z.chunks
  match k.rows.findSome? fun (src, sp) => s.rowStop e c src sp with
  | some st => stopped s st
  | none =>
    match s.readCopy c k.reads with
    | (.error st, t) => stopped t st
    | (.ok bs, t) =>
      let (c', ws) := if c.xop = 5 then ((t.afterStream e c k bs).1, (t.afterStream e c k bs).2.1) else c.afterUnits k bs
      match t.writeStop c ws with
      | some st => stopped t st
      | none =>
        let at' := if near then s.cycle + 8 else s.cycle + 8 + k.readLen + Config.farTime s.fresh
        let t := if near then t else t.bump
        t.onCopy e c.id fun _ => begun { c' with out := c'.out ++ heldWrites c.chunks at' near ws }

/-- A chunk of a multicast's source is read in this cycle (R272). -/
def State.startSource (s : State) (e : Nat) (c : CopyCmd) (k : Chunk) : State :=
  let n := k.readLen
  match s.readCopy c k.reads with
  | (.error st, s) => s.onCopy e c.id fun z => { z with stop := some st, finished := true }
  | (.ok bs, t) =>
    (((t.chunkTakePorts e c k).onEngine e fun y => { y with free := s.cycle + n }).onCopy e c.id fun z =>
      { z with parked := false, chunks := z.chunks + 1, ends := [s.cycle + n]
               source := z.source ++ k.reads.map fun va =>
                 let b := Tbl.look bs va { data := 0, coat := 0 }
                 (b.data, b.coat) })

/-- Every load and store that the issuing context issued before the copy has been performed: its first chunk may start
(R274). -/
def State.earlierDone (s : State) (c : CopyCmd) : Bool := 0 < c.chunks || !(s.earlierOut (4 * c.core + c.ctx) c.issued)

/-- The chunk that a command could start next; none when it has nothing to do. -/
def State.nextChunk (s : State) (e : Nat) (c : CopyCmd) : Option Chunk :=
  if c.finished || c.cancelled || c.stuck || !s.earlierDone c then none
  else match c.kind with
    | .coll => none
    | .cpymc => if c.source.length * 64 < c.rowb then some c.sourceChunk else none
    | _ => some (s.chunkOf e c)

/-- Chunks of an engine whose writes are still outstanding (R258). -/
def Engine.chunksOut (y : Engine) : Nat := (y.queue.map fun c => (c.out.map OutWrite.chunk).eraseDups.length).sum

/-- The command that the engine could advance in this cycle, with its chunk. -/
def State.chunkReady (s : State) (e : Nat) : Option (CopyCmd × Chunk) :=
  if s.cycle < (s.engine e).free || 16 ≤ (s.engine e).chunksOut then none
  else match s.copyClass e with
    | none => none
    | some k => (s.copyHead e k).bind fun c => (s.nextChunk e c).map fun h => (c, h)

/-- The rows let the chunk start now; one that was parked starts with a tick (R210). -/
def State.chunkMay (s : State) (e : Nat) (c : CopyCmd) (k : Chunk) : Bool :=
  s.chunkRowsAllow (s.copyBid c) e (s.chunkRows e c k) s.cycle (k.len (c.isLocal e k)) &&
    (!c.parked || (s.copyBid c).isSome || s.cycle % 32 == 0)

/-- A write that waits in an engine may be made: it is due, and its row takes it in this tick (R258). -/
def State.outMay (s : State) (e : Nat) (c : CopyCmd) (w : OutWrite) : Bool :=
  let ia := c.ia false w.va
  w.due ≤ s.cycle && (w.near ||
    ((placeRow ia).all fun r =>
      !((wbankRowPair r).any fun p => s.wbankShut (8 * deviceFace ia + p) r s.cycle s.cycle) &&
      match s.copyBid c with
      | some b => if deviceFace ia = e / 4 then (s.face (e / 4)).owner r s.tick == .bid b else (s.face (deviceFace ia)).isFree r s.tick
      | none => (s.face (deviceFace ia)).isFree r s.tick) &&
    (placeBank ia).all fun (p, b) => (s.pair p).bankOpen b s.cycle 1)

/-- A write of a copy is made: it counts, and a refusal stops the copy (R258, R267, R278, R282). -/
def State.landOut (s : State) (e id : Nat) (w : OutWrite) : State :=
  match (s.engine e).queue.find? fun c => c.id == id && c.out.contains w with
  | none => s
  | some c =>
    if !s.outMay e c w then s
    else
      let ia := c.ia false w.va
      match s.iaWrite (s.copyReq c false) ia { mask := w.mask, data := w.data, coat := w.coat } with
      | (some code, t) => t.onCopy e id fun z => z.stopAt (copyFault code) w.chunk
      | (none, t) =>
        let t := if w.near then t else match placeBank ia with
          | some (p, b) => t.onPair p fun x => x.holdBank s.cycle b s.cycle 1
          | none => t
        (t.onEngine e fun y => { y with bytes := (y.bytes + w.len) % 2 ^ 48 }).onCopy e id fun z =>
          { z with out := z.out.erase w, poisoned := z.poisoned || w.bad }

/-- The writes of an engine that may be made in this cycle are made, in order. -/
def State.landOuts (s : State) (e : Nat) : State :=
  (s.engine e).queue.foldl (fun s c => c.out.foldl (fun s w => s.landOut e c.id w) s) s

/-- Writes that are due are made. Then a chunk starts where its rows and ports let it; a free one that its rows keep back is
parked (R210, R258, R259). -/
def execCopyChunk (e : Nat) (s : State) : Host.Outcome State Fault Refusal :=
  let s := s.landOuts e
  match s.chunkReady e with
  | none => .next s
  | some (c, k) =>
    if !s.chunkMay e c k then
      .next (if c.parked || (s.copyBid c).isSome then s
        else (s.onEngine e fun y => { y with parks := sat32 y.parks }).onCopy e c.id fun z => { z with parked := true })
    else if !s.chunkPortsFree e c k then .next s
    else .next (if c.kind = .cpymc then s.startSource e c k else s.startChunk e c k)

/-- The banks that an engine begins to use in the next cycle, whose grant comes before that of a core that issues now: pair,
bank, first cycle and end (R172). -/
def State.engineSoon (s : State) (e : Nat) : List (Nat × Nat × Nat × Nat) :=
  let t := { s with cycle := s.cycle + 1 }
  let writes := (t.engine e).queue.flatMap fun c => (c.out.filter fun w => !w.near && t.outMay e c w).filterMap fun w =>
    (placeBank (c.ia false w.va)).map fun (p, b) => (p, b, t.cycle, t.cycle + 1)
  writes ++ match t.chunkReady e with
    | some (c, k) =>
      if t.chunkMay e c k && t.chunkPortsFree e c k then
        (c.chunkBanks e k).map fun (p, b, off, n) => (p, b, t.cycle + off, t.cycle + off + n)
      else []
    | none => []

/-- A booked chunk that finds no start from now on: its context and the first row, by its id, that its task does not own (R211). -/
def State.chunkUnbooked (s : State) (e : Nat) : Option (Nat × Nat) :=
  (s.engine e).queue.findSome? fun c =>
    match s.copyBid c with
    | none => none
    | some b =>
      if (s.copyHead e (some b)).map CopyCmd.id ≠ some c.id then none
      else match s.nextChunk e c with
        | none => none
        | some k =>
          let rows := s.chunkRows e c k
          let n := k.len (c.isLocal e k)
          let f := s.face (e / 4)
          let last := ((Tbl.find f.bookings b).map Booking.lastTick).getD 0
          let t := max s.cycle (s.engine e).free
          let own := rows.filter fun r => r.1 == e / 4
          let ok (t : Nat) : Bool := s.chunkRowsAllow (some b) e own t n
          if ok t || (List.range (last - t / 32)).any fun i => ok (32 * (t / 32 + 1 + i)) then none
          else some (4 * c.core + c.ctx, ((own.map fun r => r.2.1).filter fun r => !f.ownedCycles b r t (t + n - 1)).min?.getD (rowCopy e))

/-- The booked copies of a context have found no start: they wait for the trap of their task (R211). -/
def State.stickCopies (s : State) (c : Nat) : State :=
  (List.range 4).foldl (fun s i =>
    let e := 4 * faceOf (coreOf c) + i
    if (s.engine e).queue.any fun x => 4 * x.core + x.ctx == c && x.bid.isSome then
      s.onEngine e fun y =>
        { y with queue := y.queue.map fun x => if 4 * x.core + x.ctx = c && x.bid.isSome then { x with stuck := true } else x }
    else s) s

/-! ## CPYMC's landing (R272) -/

/-- The pairs of the face that a multicast reaches. -/
def CopyCmd.targets (c : CopyCmd) : List Nat :=
  ((List.range 8).filter fun i => c.pmask.testBit i).map fun i => 8 * faceOf c.core + i

/-- The rows that a multicast uses in tick LT. -/
def CopyCmd.landRows (c : CopyCmd) (e off : Nat) : List Nat :=
  rowCopy e :: rowLink (6 + c.eng % 2) :: c.targets.map fun p => rowBank p (off / 65536)

/-- One beat of 128 bytes reaches every target in this cycle. -/
def State.beat (s : State) (e : Nat) (c : CopyCmd) (off b : Nat) : State :=
  let s := c.targets.foldl (fun s p =>
    let s := [0, 1].foldl (fun s i =>
      let x := c.source.getD (2 * b + i) (0, 0)
      s.putBlock (scratchPlace p (off + 128 * b + 64 * i)) { data := x.1, coat := x.2 }) s
    s.onPair p fun y => y.holdBank s.cycle (off / 65536) s.cycle 1) s
  s.onEngine e fun y => { y with bytes := (y.bytes + 128 * c.targets.length) % 2 ^ 48 }

/-- The rows of the landing tick are the task's, or FREE. -/
def State.landAllowed (s : State) (e : Nat) (c : CopyCmd) (off : Nat) : Bool :=
  (c.landRows e off).all fun r => match s.copyBid c with
    | some b => (s.face (e / 4)).owner r s.tick == .bid b
    | none => (s.face (e / 4)).isFree r s.tick

/-- A multicast that is late writes nothing; a booked task whose rows are not its own traps (R211, R272). -/
def State.lateCopy (s : State) (e : Nat) (c : CopyCmd) (off : Nat) : State :=
  let s' := s.onCopy e c.id fun z => { z with stop := some 7, finished := true }
  match s.copyBid c with
  | some b =>
    match (c.landRows e off).find? fun r => (s.face (e / 4)).owner r s.tick != .bid b with
    | some r => s'.owe (4 * c.core + c.ctx)
        { code := 0x10, addr := BitVec.ofNat 64 r, slot := 6, issued := s.cycle }
    | none => s'
  | none => s'

/-- A cycle of tick LT: the first one decides whether the multicast lands, and each writes its beat. -/
def execCpymcWrite (e id : Nat) (s : State) : Host.Outcome State Fault Refusal :=
  match (s.engine e).queue.find? fun c => c.id == id && c.kind == .cpymc with
  | none => .next s
  | some c =>
    let b := s.cycle - 32 * c.lt
    let off := ((c.win false).map fun w => c.mcOff w).getD 0
    if c.cancelled || c.finished || s.cycle < 32 * c.lt || (b != 0 && !c.started) then .next s
    else if b = 0 && (!s.landAllowed e c off || c.source.length * 64 != c.rowb || c.ends.any fun x => s.cycle < x) then
      .next (s.lateCopy e c off)
    else
      let s := (s.beat e c off b).onCopy e c.id fun z => { z with started := true }
      .next (if (b + 1) * 128 < c.rowb then s.schedule (s.cycle + 1) (srcCopy e) (.cpymcWrite e id)
        else s.onCopy e c.id fun z => { z with finished := true })

/-! ## Completion (R260, R261, R274, R278) -/

/-- The copy has nothing more to do. -/
def State.copyOver (s : State) (c : CopyCmd) : Bool :=
  match c.kind with
  | .coll => false
  | .cpymc => c.cancelled || 32 * (c.lt + 1) ≤ s.cycle
  | _ => (c.finished || c.cancelled) && c.out.isEmpty && c.ends.all fun x => x ≤ s.cycle

/-- The status that a copy reports (R278). -/
def CopyCmd.status (c : CopyCmd) : Nat :=
  match c.stop with
  | some st => st
  | none => if c.cancelled then 6 else if c.mismatch then 4 else if c.poisoned then 5 else 0

/-- A tag is set in the context that issued it, and its status recorded (R260). -/
def State.setTag (s : State) (core ctx tag st : Nat) : State :=
  (s.onCtx (4 * core + ctx) fun x => { x with tags := x.tags ||| bit64 tag }).onCore core fun k =>
    { k with tags := Tbl.del k.tags tag, tstat := Tbl.put k.tstat tag (BitVec.ofNat 8 st) }

/-- A command leaves the queue and its tag is set. -/
def State.finishCopy (s : State) (e : Nat) (c : CopyCmd) (st : Nat) : State :=
  (s.setTag c.core c.ctx c.tag st).onEngine e fun y =>
    { y with queue := y.queue.filter fun z => z.id != c.id
             errs := if st = 0 ∨ st = 6 then y.errs else sat32 y.errs }

def execCopyComplete (e id : Nat) (s : State) : Host.Outcome State Fault Refusal :=
  match (s.engine e).queue.find? fun c => c.id == id && s.copyOver c with
  | none => .next s
  | some c => .next (s.finishCopy e c c.status)

/-- The events of a copy engine in this cycle. -/
def State.copyEvents (s : State) (e : Nat) : List Instr :=
  ((s.engine e).queue.filter s.copyOver).map (fun c => .copyComplete e c.id) ++
    (if (s.chunkReady e).isSome || (s.engine e).queue.any (fun c => c.out.any fun w => w.due ≤ s.cycle) then [.copyChunk e]
      else [])

end Sys2Proof.Machine
end

