-- ==== Sys2Proof/Machine/Flash.lean ====
section
/-! DEFINITION. The translation layer of a flash stack: free and open blocks, programs, erases, relocation, collection,
wear levelling, patrol, bad blocks and error injection (R300 to R307).

An activity of the layer is begun by its event, goes on codeword by codeword as the read channel serves it
(CODEWORD_READ, R306), and is ended by its event once nothing is left to read. -/

namespace Sys2Proof.Machine

/-! ## Blocks (R300, R302) -/

/-- The pool of the layer: the 32,768 usable blocks and the spare ones taken so far (PRESUMED: the manual does not say
which of the 36,864 raw blocks are spare; the model takes the lowest-numbered of the rest as spares are used). -/
def Flash.pool (f : Flash) : Nat := 32768 + f.spareUsed

def Flash.block (f : Flash) (b : Nat) : Block := Tbl.look f.blocks b {}
def Flash.onBlock (f : Flash) (b : Nat) (g : Block → Block) : Flash := { f with blocks := Tbl.put f.blocks b (g (f.block b)) }

def Flash.isFree (f : Flash) (b : Nat) : Bool := decide (b < f.pool) && (f.block b).free && !(f.block b).bad

/-- Free blocks. -/
def Flash.freeCount (f : Flash) : Nat :=
  f.pool - (f.blocks.filter fun e => decide (e.1 < f.pool) && (!e.2.free || e.2.bad)).length

/-- The free block that is best by program/erase count: `better` compares a block's count with that of the best so
far; ties go to the lowest number (R302). -/
def Flash.pickFree (f : Flash) (n : Nat) (better : Nat → Nat → Bool) : Option Nat :=
  (List.range f.pool).foldl (fun m b =>
    if !f.isFree b then m
    else match m with
      | none => some b
      | some c => if better (f.blockPe n b) (f.blockPe n c) then some b else m) none

/-- The least-worn free block, which dynamic wear levelling opens, and the most-worn one (R302). -/
def Flash.leastWornFree (f : Flash) (n : Nat) : Option Nat := f.pickFree n fun a b => decide (a < b)
def Flash.mostWornFree (f : Flash) (n : Nat) : Option Nat := f.pickFree n fun a b => decide (b < a)

/-- Data blocks: those that hold data and are not open for programs. -/
def Flash.dataBlocks (f : Flash) : List Nat :=
  (f.blocks.filter fun e => !e.2.free && !e.2.bad && f.openHost != some e.1 && f.openOwn != some e.1).map Prod.fst

/-- The LBAs whose data lie in a block, and the pages of it that hold any (R302, R303). -/
def Flash.lbasOf (f : Flash) (b : Nat) : List Nat := (f.map.filter fun e => e.2 / 4096 == b).map Prod.fst
def Flash.validPages (f : Flash) (b : Nat) : Nat :=
  (((f.map.filter fun e => e.2 / 4096 == b).map fun e => e.2 / 4).eraseDups).length

/-! ## Programs and erases (R301, R302) -/

/-- The block that takes the next program: the open one of its kind, or the least-worn free block, which is opened. -/
def Flash.openBlock (f : Flash) (n : Nat) (own : Bool) : Option (Nat × Flash) :=
  let cur := if own then f.openOwn else f.openHost
  match cur.filter fun b => (f.block b).filled < 4096 && !(f.block b).bad with
  | some b => some (b, f)
  | none => (f.leastWornFree n).map fun b =>
    let f := f.onBlock b fun x => { x with free := false, filled := 0 }
    (b, if own then { f with openOwn := some b } else { f with openHost := some b })

/-- Where a program goes: the block given, or an open one; in the place of a block that has failed another takes the rest
(R302). -/
def Flash.target (f : Flash) (n : Nat) (own : Bool) (dest : Option Nat) : Option (Nat × Flash) :=
  match dest.filter fun b => !(f.block b).bad with
  | some b => if (f.block b).filled < 4096 then some (b, f) else none
  | none => f.openBlock n own

/-- Least cycles of a codeword's reading at 1.6 TB/s, and of the program of a logical block and of a page of a domain at 40 GB/s
(R15, R300). -/
def readCycles : Nat := 5
def blockProgram : Nat := 185
def pageProgram : Nat := 2950

/-- The stack is busy with a program of `n` cycles more (R15). -/
def State.takeProgram (s : State) (d n : Nat) : State :=
  s.onStack d fun f => { f with progFree := max s.cycle f.progFree + n }

/-- One logical block is programmed, and the map switches to it; none where programs complete with an error. An LBA at
or above 2^27 has no map entry (R301). -/
def State.program (s : State) (n lba : Nat) (own : Bool) (dest : Option Nat) (bs : List BlockVal) : Option State :=
  if (s.stack n).lifeEnd then none
  else if 2 ^ 27 ≤ lba then some s
  else match (s.stack n).target n own dest with
  | none => none
  | some (b, f) =>
    let cw := b * 4096 + (f.block b).filled
    let f := f.onBlock b fun x => { x with filled := x.filled + 1 }
    let s := s.setStack n { f with map := Tbl.put f.map lba cw }
    some (bs.zipIdx.foldl (fun s (v, i) => s.putBlock (flashPlace n cw (64 * i)) v) s)

/-- A block is erased: its count rises, it reads zero again and it is free (R302, R303). -/
def State.eraseBlock (s : State) (n b : Nat) : State :=
  let lo := flashPlace n (b * 4096) 0
  let hi := flashPlace n ((b + 1) * 4096) 0
  let s := { s with mem := s.mem.filter fun c => c.1 < lo || hi ≤ c.1
                    coats := s.coats.filter fun c => c.1 < lo / 64 || hi / 64 ≤ c.1 }
  s.onStack n fun f =>
    (f.onBlock b fun x => { x with pe := x.pe + 1, reads := 0, free := true, filled := 0, queued := false }).leaveReloc b

/-- A block joins the grown bad-block table and a spare block takes its place; with the last spare block the stack
reaches its end of life, which the lifetime log records (R302). -/
def State.failBlock (s : State) (n b : Nat) : State :=
  let f := s.stack n
  let left := Config.spareBlocks n - f.spareUsed
  let s := s.setStack n
    ({ (f.onBlock b fun x => { x with bad := true }) with
      grown := f.grown + 1
      spareUsed := if left = 0 then f.spareUsed else f.spareUsed + 1
      lifeEnd := f.lifeEnd || decide (left ≤ 1)
      openHost := f.openHost.filter fun x => x != b
      openOwn := f.openOwn.filter fun x => x != b }.leaveReloc b)
  if left ≤ 1 && !f.lifeEnd then s.logEntry 8 [n] else s

/-- A program or an erase of a block has failed (R302). -/
def execProgramFail (n b : Nat) (s : State) : Host.Outcome State Fault Refusal :=
  if n < 8 ∧ b < (s.stack n).pool ∧ !((s.stack n).block b).bad then .next (s.failBlock n b) else .next s

/-! ## The layer's activities (R302 to R304, R306) -/

/-- The kinds of an activity. -/
def jobReloc : Nat := 0
def jobCollect : Nat := 1
def jobWear : Nat := 2
def jobPatrol : Nat := 3

/-- An activity begins. -/
def Flash.begin (f : Flash) (kind b : Nat) (dest : Option Nat) : Flash :=
  { f with
    job := some { kind := kind, block := b, left := f.lbasOf b, dest := dest }
    lastPage := Tbl.del f.lastPage 2
    openHost := f.openHost.filter fun x => x != b
    openOwn := f.openOwn.filter fun x => x != b }.leaveReloc b

/-- The block that a relocation would take next. -/
def Flash.relocHead (f : Flash) : Option Nat := if f.job.isSome then none else f.relocQ.head?

/-- The data block with the fewest valid pages, while fewer than 64 blocks are free (R302). -/
def Flash.collectHead (f : Flash) : Option Nat :=
  if f.job.isSome || 64 ≤ f.freeCount then none
  else f.dataBlocks.foldl (fun m b => match m with
    | none => some b
    | some c => if f.validPages b < f.validPages c then some b else m) none

/-- The least-worn data block and the block that takes its data, while the spread is above WLDELTA (R302). -/
def Flash.wearHead (f : Flash) (n : Nat) : Option (Nat × Nat) :=
  if f.job.isSome then none
  else match f.dataBlocks with
    | [] => none
    | b :: bs =>
      let least := bs.foldl (fun c d => if f.blockPe n d < f.blockPe n c then d else c) b
      if f.blockPe n least + f.wldelta < f.maxPe n then (f.mostWornFree n).map fun d => (least, d) else none

/-- Cycles of the patrol interval: hours at 1.8 GHz (R304). -/
def Flash.patrolCycles (f : Flash) : Nat := f.patrol * 3600 * 1800000000

/-- A patrol is due. -/
def Flash.patrolDue (f : Flash) (now : Nat) : Bool :=
  f.job.isNone && f.patrol != 0 && decide (f.patrolled + f.patrolCycles ≤ now) && !f.map.isEmpty

/-- The activity of this kind has nothing left to read. -/
def Flash.jobEnds (f : Flash) (kind : Nat) : Option FlashJob :=
  f.job.filter fun j => j.kind == kind && j.left.isEmpty

/-- An activity that has copied everything erases its block; RELOC counts every kind, RELOCRD those of R303. -/
def State.endJob (s : State) (n : Nat) (j : FlashJob) : State :=
  (s.eraseBlock n j.block).onStack n fun f =>
    { f with
      job := none
      reloc := sat32 f.reloc
      relocRd := if j.kind = jobReloc then sat32 f.relocRd else f.relocRd }

def execRelocation (n : Nat) (s : State) : Host.Outcome State Fault Refusal :=
  let f := s.stack n
  match f.jobEnds jobReloc, f.relocHead with
  | some j, _ => .next (s.endJob n j)
  | none, some b => .next (s.setStack n (f.begin jobReloc b none))
  | none, none => .next s

def execGarbageCollection (n : Nat) (s : State) : Host.Outcome State Fault Refusal :=
  let f := s.stack n
  match f.jobEnds jobCollect, f.collectHead with
  | some j, _ => .next (s.endJob n j)
  | none, some b => .next (s.setStack n (f.begin jobCollect b none))
  | none, none => .next s

/-- The most-worn free block is taken out of the pool to receive the data (R302). -/
def execStaticWearLevelling (n : Nat) (s : State) : Host.Outcome State Fault Refusal :=
  let f := s.stack n
  match f.jobEnds jobWear, f.wearHead n with
  | some j, _ => .next (s.endJob n j)
  | none, some (b, d) =>
    .next (s.setStack n ((f.onBlock d fun x => { x with free := false, filled := 0 }).begin jobWear b (some d)))
  | none, none => .next s

/-- A patrol reads every valid page; the codewords are taken from the map as it stands (R304). -/
def execPatrolRead (n : Nat) (s : State) : Host.Outcome State Fault Refusal :=
  let f := s.stack n
  match f.jobEnds jobPatrol with
  | some _ => .next (s.setStack n { f with job := none })
  | none =>
    if f.patrolDue s.cycle then
      .next (s.setStack n { f with job := some { kind := jobPatrol, left := f.map.map Prod.snd }, patrolled := s.cycle })
    else .next s

/-! ## One codeword of an activity (R303 to R306) -/

/-- A patrol read: its block is queued after more than two retries or more than 64 corrected bits (R304). -/
def State.patrolStep (s : State) (n cw : Nat) : Nat × State :=
  if !((s.stack n).map.any fun e => e.2 == cw) then (0, s)
  else
    let r := s.readCodeword n cw 3
    (1 + min r.1.2.1 7, if 2 < r.1.2.1 || (r.1.1 && 64 < r.1.2.2) then r.2.onStack n fun f => f.queueReloc (cw / 4096) else r.2)

/-- A copy of one logical block to its new place; one that does not decode is programmed with POISON coats (R303,
R305). An error of the program ends the activity. -/
def State.moveStep (s : State) (n lba : Nat) (j : FlashJob) : Nat × State :=
  match (Tbl.find (s.stack n).map lba).filter fun cw => cw / 4096 == j.block with
  | none => (0, s)
  | some cw =>
    let r := s.readCodeword n cw 2
    let bs := (List.range 64).map fun i =>
      let b := s.blockAt (flashPlace n cw (64 * i))
      if r.1.1 then b else { b with coat := 0x00FF }
    match r.2.program n lba true j.dest bs with
    | some t => (1 + min r.1.2.1 7, t.takeProgram n blockProgram)
    | none => (1 + min r.1.2.1 7, r.2.onStack n fun f => { f with job := none })

/-- The next codeword of the activity in progress: the reads it took, and the state after it. -/
def State.jobStep (s : State) (n : Nat) : Nat × State :=
  match (s.stack n).job with
  | none => (0, s)
  | some j => match j.left with
    | [] => (0, s)
    | x :: t =>
      let s := s.onStack n fun f => { f with job := some { j with left := t } }
      if j.kind = jobPatrol then s.patrolStep n x else s.moveStep n x j

/-! ## Injection (R307) -/

/-- INJECT: KIND 3 is stored as 0, and the page that now holds LBA becomes the target. -/
def execInjectWrite (n : Nat) (v : Word) (s : State) : Host.Outcome State Fault Refusal :=
  let k := bitsOf v.toNat 56 2
  let lba := bitsOf v.toNat 0 40
  .next (s.onStack n fun f =>
    { f with
      injArm := v.getLsbD 63
      injKind := if k = 3 then 0 else k
      injBits := bitsOf v.toNat 48 8
      injLba := lba
      injPage := (Tbl.find f.map lba).map fun cw => cw / 4 })

end Sys2Proof.Machine
end

