-- ==== Sys2Proof/Machine/Handles.lean ====
section
/-! DEFINITION. Weight handles and the flash port: WHFETCH, WHSTAT, WHDROP and WHWAIT, the port's acceptance of handle
commands, job cards and their stages, the read channel, and the landing of planes (R279 to R281, R290, R305, R306,
R309 to R321). -/

namespace Sys2Proof.Machine

/-! ## Issue (R309, R313, R316 to R318) -/

/-- The package number of a handle that slot XC names (R50). -/
def State.handleOf (s : State) (h : BitVec 9) : Nat := 512 * s.idom + h.toNat

/-- HANDLE for a handle that the issuing context's partition does not hold (R309). -/
def State.handleCauses (s : State) (h : Nat) : List Cause :=
  if (s.handle h).en && (s.handle h).owner == s.ipart then [] else [kFault 0x14 h]

/-- The fields of a destination (R310): FACE, PMASK and DSTOFF. -/
def dstFace (d : Word) : Nat := bitsOf d.toNat 40 8
def dstPairs (d : Word) : Nat := bitsOf d.toNat 32 8
def dstOff (d : Word) : Nat := bitsOf d.toNat 0 32

/-- A destination override keeps the limits of R313. -/
def overrideOk (d : Word) : Bool :=
  d == 0 || (bitsOf d.toNat 48 16 == 0 && dstFace d ≤ 31 && dstPairs d != 0 && dstOff d % 64 == 0 && dstOff d < 2 ^ 24)

/-- The limits of a WHFETCH group (R313). -/
def Ctx.fetchGroupOk (x : Ctx) (g : BitVec 5) : Bool :=
  1 ≤ (x.grp g 1).toNat && (x.grp g 1).toNat ≤ 8 && (x.grp g 2).toNat ≤ 1 && overrideOk (x.grp g 3) &&
    ([4, 5, 6, 7].all fun i => x.grp g i == 0)

/-- The causes of a WHFETCH that its values give (R310, R313). -/
def State.fetchCauses (s : State) (g : BitVec 5) (h : Nat) : List Cause :=
  let va := (s.cx.grp g 0).toNat
  let d := s.cx.grp g 3
  if !s.cx.fetchGroupOk g then [kILLOP]
  else orderCauses ((if va % 64 = 0 then [] else [kALIGN va]) ++
    accessCauses s.cx.windows s.ico.staging va [{ va := va, len := 192 }] .read [0] ++
    (if d = 0 ∨ s.owns s.ipart (dstFace d) then [] else [kACCESS d.toNat]) ++ s.handleCauses h)

/-- A handle command goes to the port; WHFETCH and WHDROP take an entry of the core's queue (R313). -/
def State.sendHandle (s : State) (c : HandleCmd) : State :=
  (s.onStack s.idom fun f => { f with cmds := f.cmds ++ [c] }).onCore s.iss.core fun k =>
    if c.kind = 2 then k else { k with whq := k.whq + 1 }

/-- The core's queue of handle commands is full (R313). -/
def State.whqWait : State → Option (Bool × State) := waitIf true fun s => decide (8 ≤ s.ico.whq)

def State.handleCmd (s : State) (kind h : Nat) : HandleCmd :=
  { kind := kind, c := s.cs, h := h, part := s.ipart, task := (s.taskOf s.cx).map fun t => (t.1, t.2.seq) }

def execWhfetch (p : BitVec 4) (g : BitVec 5) (h : BitVec 9) (s : State) : Host.Outcome State Fault Refusal :=
  let n := s.handleOf h
  slotOp (.whfetch p g h) (some p) { rs := groupRegs g } false State.whqWait (fun s => s.fetchCauses g n)
    (fun s => s.sendHandle { s.handleCmd 0 n with
      descIa := ((findWindow s.cx.windows (s.cx.grp g 0).toNat).map fun w => w.toIa (s.cx.grp g 0).toNat).getD 0
      q := (s.cx.grp g 1).toNat
      prio := s.cx.grp g 2 == 1
      dest := s.cx.grp g 3 }) s

def execWhdrop (p : BitVec 4) (h : BitVec 9) (s : State) : Host.Outcome State Fault Refusal :=
  let n := s.handleOf h
  slotOp (.whdrop p h) (some p) {} false State.whqWait (fun s => s.handleCauses n)
    (fun s => s.sendHandle (s.handleCmd 1 n)) s

/-- WHSTAT asks for word 0 of the record, which the port reads after the context's earlier commands (R316). -/
def State.askStat (s : State) (d : BitVec 5) (h : Nat) : State :=
  let s' := s.onCx fun x => { x with pending := x.pending ++
    [{ id := s.fresh, slot := s.iss.slot, dest := .scalar d.toNat, reissue := false, flash := true }] }
  (s'.sendHandle { s.handleCmd 2 h with id := s.fresh }).bump

def execWhstat (p : BitVec 4) (d : BitVec 5) (h : BitVec 9) (s : State) : Host.Outcome State Fault Refusal :=
  let n := s.handleOf h
  slotOp (.whstat p d h) (some p) { ws := [d], var := true } false noWait (fun s => s.handleCauses n)
    (fun s => s.askStat d n) s

/-- What holds a WHWAIT: an earlier command of the context for the handle, or planes still to land (R317). -/
def State.whWait (h q : Nat) (s : State) : Option (Bool × State) :=
  let x := s.handle h
  if !(s.handleCauses h).isEmpty then none
  else if (s.stack s.idom).cmds.any fun c => c.c == s.cs && c.h == h && c.kind != 2 then some (true, s)
  else if x.st = 0 ∨ x.st = 4 then none
  else if (x.st = 2 ∨ x.st = 3) ∧ q ≤ x.landed then none
  else some (true, s)

/-- HANDLE of a WHWAIT that finds IDLE or ERROR: the handle, and ERR in [23:16] (R317). -/
def State.whWaitCauses (s : State) (h : Nat) : List Cause :=
  let x := s.handle h
  s.handleCauses h ++ (if x.st = 0 ∨ x.st = 4 then [kFault 0x14 (h + (if x.st = 4 then x.err else 0) * 2 ^ 16)] else [])

def execWhwait (n : BitVec 4) (h : BitVec 12) (q : BitVec 4) (s : State) : Host.Outcome State Fault Refusal :=
  ctOp (.whwait n h q) n {} false (State.whWait h.toNat q.toNat) (fun s => s.whWaitCauses h.toNat) id s

/-! ## The descriptor (R310) -/

/-- Stage ids of a STAGES field: the first NSTAGE of six (R279). -/
def stageCount (w : Nat) : Nat := bitsOf w 0 8
def stageIds (w : Nat) : List Nat := (List.range (min 6 (stageCount w))).map fun i => bitsOf w (8 + 4 * i) 4

/-- The descriptor's destination is one that the partition may be given (R310). -/
def State.destOk (s : State) (part foot : Nat) (d : Word) : Bool :=
  dstFace d ≤ 31 && s.owns part (dstFace d) && dstPairs d != 0 && dstOff d + foot ≤ 2 ^ 24

/-- The reserved bits of a descriptor are zero (R310). -/
def descRsvdOk (ws : List Word) : Bool :=
  let w (i : Nat) : Nat := (wordAt ws i).toNat
  bitsOf (w 0) 41 23 == 0 && bitsOf (w 1) 48 16 == 0 && bitsOf (w 2) 12 4 == 0 && bitsOf (w 2) 0 4 == 0 &&
    bitsOf (w 4) 32 32 == 0 && w 5 == 0 && w 6 == 0 && w 7 == 0 &&
    (List.range 8).all fun i => bitsOf (w (8 + 2 * i)) 40 24 == 0

def descWhole (ws : List Word) : Bool := (wordAt ws 0).getLsbD 40
def descNext (ws : List Word) : Nat := bitsOf (wordAt ws 0).toNat 32 8
def descFoot (ws : List Word) : Nat := bitsOf (wordAt ws 4).toNat 0 32

/-- The descriptor is not BADDESC for a fetch of `q` planes to `dest` (R310). -/
def State.descOk (s : State) (part q : Nat) (dest : Word) (ws : List Word) : Bool :=
  descRsvdOk ws &&
    (if descWhole ws then descNext ws == 1
     else 1 ≤ descNext ws && descNext ws ≤ 8 && q ≤ descNext ws && !(stageIds (wordAt ws 0).toNat).contains 3) &&
    s.destOk part (descFoot ws) (wordAt ws 1) && s.destOk part (descFoot ws) dest

/-- Two destination ranges share a byte of a pair (R312). -/
def rangesMeet (d : Word) (foot : Nat) (d' : Word) (foot' : Nat) : Bool :=
  dstFace d == dstFace d' && dstPairs d &&& dstPairs d' != 0 &&
    max (dstOff d) (dstOff d') < min (dstOff d + foot) (dstOff d' + foot')

/-- Another handle holds a byte of the range (R312). -/
def State.rangeHeld (s : State) (h : Nat) (d : Word) (foot : Nat) : Bool :=
  s.handles.any fun e => e.1 != h && e.2.st != 0 && rangesMeet d foot e.2.dest e.2.foot

/-! ## Errors (R319, R320) -/

def errACCESS : Nat := 0x01
def errUNMAPPED : Nat := 0x03
def errLENGTH : Nat := 0x04
def errBADCARD : Nat := 0x08
def errBADCRC : Nat := 0x09
def errUNCORR : Nat := 0x10
def errBADDESC : Nat := 0x11
def errOVERLAP : Nat := 0x12

/-- The handle enters ERROR: its other cards are removed and its owner gets one record (R319). -/
def State.handleError (s : State) (h plane lba err : Nat) : State :=
  let x := s.handle h
  let s := (s.setHandle h { x with st := 4, err := err, lgtc := s.gtcWord, started := x.req }).onStack (h / 512) fun f =>
    { f with cards := f.cards.filter fun c => c.handle != h || c.orphan }
  s.statusRecord (srcFlash (h / 512)) x.owner (recordWords x.owner 0 err 4 s.gtcWord (BitVec.ofNat 64 (h + plane * 2 ^ 16)) (BitVec.ofNat 64 lba)
    0 0 0 0)

/-- The handle is IDLE; its range is free (R312, R318). -/
def Handle.idle (x : Handle) : Handle := { x with st := 0, req := 0, landed := 0, err := 0, started := 0 }

/-! ## Acceptance (R312, R313) -/

/-- A fetch of an IDLE or ERROR handle (R310, R312). -/
def State.newFetch (s : State) (c : HandleCmd) (seq : Nat) : State :=
  let x := s.handle c.h
  let (r, s) := s.readBytes (engineReq (c.descIa / 2 ^ 48 % 8) c.part) c.descIa 192
  let ws := match r with
    | .ok bs => wordsOf 24 bs
    | .error _ => []
  let dest := if c.dest = 0 then wordAt ws 1 else c.dest
  let y : Handle :=
    { x with
      st := 1, req := c.q, landed := 0, started := 0, err := 0, prio := c.prio, desc := c.descIa, dest := dest
      fgtc := s.gtcWord, foot := descFoot ws, seq := seq, words := ws }
  let s := s.setHandle c.h y
  if ws.isEmpty || !s.descOk c.part c.q dest ws then s.handleError c.h 0 0 errBADDESC
  else if s.rangeHeld c.h dest (descFoot ws) then s.handleError c.h 0 0 errOVERLAP
  else s

/-- A fetch of a handle that is PENDING, PARTIAL or READY (R312). -/
def Handle.raise (x : Handle) (q : Nat) (prio : Bool) (seq : Nat) : Handle :=
  if x.st = 3 ∧ q ≤ x.req then x
  else
    let x := { x with req := max x.req q }
    let x := if x.st = 3 then { x with st := if x.req ≤ x.landed then 3 else 2 } else x
    if prio && !x.prio then { x with prio := true, seq := seq } else x

/-- An accepted WHFETCH takes the next value of the port's order counter (R313). -/
def State.acceptFetch (s : State) (c : HandleCmd) : State :=
  let d := c.h / 512
  let seq := ((s.stack d).order + 1) % 2 ^ 48
  let s := s.onStack d fun f => { f with order := seq }
  if (s.handle c.h).st = 0 ∨ (s.handle c.h).st = 4 then s.newFetch c seq
  else s.onHandle c.h fun x => x.raise c.q c.prio seq

/-- An accepted WHDROP: cards that have not started are not read; a card in progress finishes uncounted (R318). -/
def State.acceptDrop (s : State) (h : Nat) : State :=
  let d := h / 512
  if (s.stack d).cards.any fun c => c.handle == h && !c.orphan then
    s.onStack d fun f => { f with cards := f.cards.map fun c => if c.handle = h then { c with dropped := true } else c }
  else s.onHandle h fun x => if x.st = 0 then x else x.idle

/-- The port reads a record for a WHSTAT (R316). -/
def State.acceptStat (s : State) (c : HandleCmd) : State :=
  let v := BitVec.ofNat 64 (s.handle c.h).word0
  ((s.onCtx c.c fun x => { x with pending := x.pending.map fun p =>
      if p.id = c.id then { p with value := v, flash := false } else p }).schedule
    (s.cycle + 1 + Config.extraLatency s.fresh) (srcFlash (c.h / 512)) (.loadResult c.c c.id)).bump

/-- The port of domain `d` accepts the oldest handle command. -/
def execHandleCommandAccept (d : Nat) (s : State) : Host.Outcome State Fault Refusal :=
  match (s.stack d).cmds with
  | [] => .next s
  | c :: t =>
    let s := s.onStack d fun f => { f with cmds := t }
    match c.kind with
    | 0 => .next ((s.onCore (coreOf c.c) fun k => { k with whq := k.whq - 1 }).acceptFetch c)
    | 1 => .next ((s.onCore (coreOf c.c) fun k => { k with whq := k.whq - 1 }).acceptDrop c.h)
    | _ => .next (s.acceptStat c)

/-! ## Job cards (R279, R281, R314) -/

/-- The card of plane 7 - i of a handle. -/
def Handle.card (x : Handle) (h i : Nat) : Card :=
  let w (k : Nat) : Nat := (wordAt x.words k).toNat
  let whole := descWhole x.words
  let e := if whole then 0 else i
  { handle := h, plane := 7 - i, stages := stageIds (w 0), whole := whole
    lba := bitsOf (w (8 + 2 * e)) 0 40
    crc := bitsOf (w (9 + 2 * e)) 32 32
    nblk := bitsOf (w (9 + 2 * e)) 0 32
    face := dstFace x.dest
    pmask := dstPairs x.dest
    dstoff := dstOff x.dest + e * bitsOf (w 2) 32 32
    pstride := bitsOf (w 2) 32 32
    coatv := bitsOf (w 2) 16 16
    dfmt := bitsOf (w 2) 8 4
    sfmt := bitsOf (w 2) 4 4
    ss := bitsOf (w 3) 32 32
    kseg := bitsOf (w 3) 16 16
    ncol := bitsOf (w 3) 0 16 }

/-- The place of a stage in the order of R281: CHECK, EXPAND, CONVERT, PLANE, COAT, SCATTER. -/
def stageRank (id : Nat) : Nat :=
  match id with
  | 1 => 0
  | 2 => 1
  | 4 => 2
  | 3 => 3
  | 5 => 4
  | _ => 5

/-- Ranks rise strictly, so no id appears twice and the order of R281 holds. -/
def risingRanks : List Nat → Bool
  | a :: b :: t => decide (stageRank a < stageRank b) && risingRanks (b :: t)
  | _ => true

/-- The bits set in a mask of eight pairs. -/
def maskPairs (m : Nat) : List Nat := (List.range 8).filter fun i => m.testBit i

/-- The card is not BADCARD (R281). -/
def Card.good (c : Card) (nstage : Nat) : Bool :=
  nstage ≤ 6 && (c.stages.all fun i => 1 ≤ i && i ≤ 6) && risingRanks c.stages &&
    (c.stages.contains 6 || (maskPairs c.pmask).length == 1) &&
    (!c.stages.contains 4 || fmtPairOk 1 c.sfmt c.dfmt)

/-- A card of this handle will finish uncounted: no more are started (R318). -/
def Flash.dropping (f : Flash) (h : Nat) : Bool := f.cards.any fun c => c.handle == h && c.dropped && !c.orphan

/-- Blocks of the last 4,096 card blocks that were partition `p`'s (R314). -/
def Flash.shareOf (f : Flash) (p : Nat) : Nat :=
  (f.window.foldl (fun (acc : Nat × Nat) e =>
    let n := min e.2 (4096 - acc.2)
    (if e.1 = p then acc.1 + n else acc.1, acc.2 + n)) (0, 0)).1

/-- The handles of one class that wait for a card (R314). -/
def State.cardClass (s : State) (d : Nat) (prio share : Bool) : List (Nat × Handle) :=
  s.handles.filter fun e =>
    e.1 / 512 == d && (e.2.st == 1 || e.2.st == 2) && e.2.prio == prio && e.2.started < e.2.req &&
      !(s.stack d).dropping e.1 && (!share || (s.stack d).shareOf e.2.owner < (s.part e.2.owner).fshare * 64)

/-- The handle with the least STARTED, ties by the least SEQ (R314). -/
def leastStarted (l : List (Nat × Handle)) : Option Nat :=
  (l.foldl (fun m e => match m with
    | none => some e
    | some b => if e.2.started < b.2.started || (e.2.started == b.2.started && e.2.seq < b.2.seq) then some e else m)
    (none : Option (Nat × Handle))).map Prod.fst

/-- next_card of R314. -/
def State.nextCard (s : State) (d : Nat) : Option Nat :=
  [(true, true), (false, true), (true, false), (false, false)].findSome? fun (prio, share) =>
    leastStarted (s.cardClass d prio share)

/-- The read-ahead buffer of 4 MiB is full of blocks that have not been written (R315). -/
def Flash.bufferFull (f : Flash) : Bool :=
  65536 ≤ (f.cards.map fun c => c.blocks.length - c.drained).sum

/-- The card that is being read (R314). -/
def Flash.reading (f : Flash) : Option Card := f.cards.find? fun c => c.lands.isNone

/-- The port could start a card in this cycle. -/
def State.cardReady (s : State) (d : Nat) : Option Nat :=
  let f := s.stack d
  if s.cycle < f.chan || f.reading.isSome || f.bufferFull then none else s.nextCard d

/-- The card starts: it keeps the shadow halves as they stand (R315). -/
def execCardStart (d : Nat) (s : State) : Host.Outcome State Fault Refusal :=
  match s.cardReady d with
  | none => .next s
  | some h =>
    let x := s.handle h
    let c := x.card h x.started
    let s := s.setHandle h { x with started := if c.whole then 8 else x.started + 1 }
    if !c.good (stageCount (wordAt x.words 0).toNat) then
      .next ((s.onStack d fun f => { f with lastCard := some { c with status := 0x08 } }).handleError h c.plane 0 errBADCARD)
    else
      let halves := (maskPairs c.pmask).map fun i => (8 * c.face + i, !(s.pair (8 * c.face + i)).active)
      let lands := if c.nblk = 0 then some (s.cycle + Config.cardTime s.fresh) else none
      .next ((s.onStack d fun f =>
        { f with cards := f.cards ++ [{ c with halves := halves, lands := lands }], lastPage := Tbl.del f.lastPage 0 }).bump)

/-! ## The read channel (R290, R305, R306) -/

/-- The source of R306 that the channel serves next: 1 and 3 the current card, 2 a forwarded read, 4 the layer, whose copies also
wait for the program before them (R15). -/
def State.channelSource (s : State) (d : Nat) : Nat :=
  let f := s.stack d
  let own := f.job.any fun j => !j.left.isEmpty && (j.kind == jobPatrol || f.progFree ≤ s.cycle)
  let card := f.reading.filter fun _ => !f.bufferFull
  let demand := card.any fun c => (s.handle c.handle).prio
  if s.cycle < f.chan then 0
  else if own && 15 ≤ f.since then 4
  else if demand then 1
  else if !(s.dom d).fwdQ.isEmpty then 2
  else if card.isSome then 3
  else if own then 4
  else 0

/-- The channel is occupied by one codeword for `n` reads, at no more than 1.6 TB/s (R15, R306). -/
def State.takeChannel (s : State) (d n : Nat) (own : Bool) : State :=
  (s.onStack d fun f =>
    { f with
      chan := s.cycle + n * (readCycles + Config.flashTime s.fresh)
      since := if own then 0 else f.since + 1 }).bump

/-- The newest 4,096 card blocks read, with those of one more codeword (R314). -/
def pushWindow (w : List (Nat × Nat)) (p n : Nat) : List (Nat × Nat) :=
  (((p, n) :: w).foldl (fun (acc : List (Nat × Nat) × Nat) e =>
    if 4096 ≤ acc.2 then acc else (acc.1 ++ [(e.1, min e.2 (4096 - acc.2))], acc.2 + min e.2 (4096 - acc.2))) ([], 0)).1

/-- The card that is being read is changed. -/
def Flash.onReading (f : Flash) (g : Card → Card) : Flash :=
  { f with cards := f.cards.map fun c => if c.lands.isNone then g c else c }

/-- The next codeword of the card (R301, R305): an LBA without data ends its reading. -/
def State.cardRead (s : State) (d : Nat) (c : Card) : State :=
  let lba := c.lba + c.blocks.length / 64
  let n := min 64 (c.nblk - c.blocks.length)
  match (Tbl.find (s.stack d).map lba).filter fun _ => lba < 2 ^ 27 with
  | none =>
    (s.onStack d fun f => f.onReading fun c =>
      { c with unmapped := true, lands := some (s.cycle + Config.cardTime s.fresh) }).bump
  | some cw =>
    let r := s.readCodeword d cw 0
    let bs := (List.range n).map fun i =>
      let b := s.blockAt (flashPlace d cw (64 * i))
      (b.data, if r.1.1 then b.coat else 0x00FF)
    let s := r.2.takeChannel d (1 + min r.1.2.1 7) false
    let f := s.stack d
    let ends := if c.nblk ≤ c.blocks.length + n then some (f.chan + Config.cardTime s.fresh) else none
    (s.setStack d { (f.onReading fun c =>
      { c with
        blocks := c.blocks ++ bs
        uncorr := if r.1.1 then c.uncorr else c.uncorr.orElse fun _ => some lba
        lands := ends }) with window := pushWindow f.window (s.handle c.handle).owner n }).bump

/-- One codeword for the current card or for the layer. -/
def execCodewordRead (d : Nat) (s : State) : Host.Outcome State Fault Refusal :=
  match s.channelSource d, (s.stack d).reading with
  | 1, some c => .next (s.cardRead d c)
  | 3, some c => .next (s.cardRead d c)
  | 4, _ =>
    let r := s.jobStep d
    .next (if r.1 = 0 then r.2 else r.2.takeChannel d r.1 true)
  | _, _ => .next s

/-- The oldest forwarded read is served: a codeword occupies the channel for each of its reads, and a result whose codewords
have been read returns no earlier than R180 lets it (R290, R306). -/
def execForwardedRead (d : Nat) (s : State) : Host.Outcome State Fault Refusal :=
  if s.channelSource d ≠ 2 then .next s
  else match (s.dom d).fwdQ with
  | [] => .next s
  | f :: t =>
    let s := s.onDom d fun x => { x with fwdQ := t }
    let due (least : Nat) : Nat := max least (s.cycle + 1 + Config.extraLatency s.fresh)
    match f with
    | .read n => .next (s.takeChannel d n false)
    | .load c id =>
      let least := (((s.ctx c).pending.find? fun p => p.id == id).map fun p => p.least).getD 0
      .next (((s.onCtx c fun x => { x with pending := x.pending.map fun p =>
          if p.id = id then { p with flash := false } else p }).schedule (due least) (srcFlash d) (.loadResult c id)).bump)
    | .landing core slot =>
      let x := s.landing core slot
      .next (((s.setLanding core slot { x with due := some (due x.least) }).schedule (due x.least) (srcFlash d)
        (.vldtLanded core slot)).bump)

/-! ## Stages (R280) -/

/-- One bit of the CRC-32C, reflected polynomial 0x82F63B78. -/
def crcBit (c : Nat) : Nat := if c % 2 = 1 then (c / 2) ^^^ 0x82F63B78 else c / 2

def crcByte (c : Nat) (b : Byte) : Nat :=
  crcBit (crcBit (crcBit (crcBit (crcBit (crcBit (crcBit (crcBit (c ^^^ b.toNat))))))))

/-- The CRC-32C of a string of bytes. -/
def crc32c (bs : List Byte) : Nat := (bs.foldl crcByte 0xFFFFFFFF) ^^^ 0xFFFFFFFF

/-- The narrow format register of the port: its reset value (DEDUCED: a card names none, R67). -/
def cardNfr : Word := 0x0018

def zeroBlock : BlockVal := { data := 0, coat := 0x00FF }

/-- The elements of an extent under an explicit format, each with whether its block is poisoned (R265). -/
def runVals (f : Nat) (bs : List BlockVal) : List (CopyVal × Bool) :=
  let w := elemBits cardNfr f
  (List.range (bs.length * 512 / w)).map fun k =>
    let b := bs.getD (k * w / 512) zeroBlock
    let lane := k % 1024
    let x : Lane :=
      if coatPoison b.coat then poisonLane cardNfr 0 f lane
      else if coatZero b.coat then 0
      else elemLane cardNfr f (bitsOf b.data (k * w % 512) w)
    (valOf f x, coatPoison b.coat)

/-- The elements of an extent of COAT rows of 64 elements, from bit `at'` on; `r` numbers the rows (R65). -/
def coatVals (bs : List BlockVal) : Nat → Nat → Nat → List (CopyVal × Bool)
  | 0, _, _ => []
  | n + 1, r, at' =>
    if bs.length * 512 ≤ at' then []
    else
      let blk (i : Nat) : BlockVal := bs.getD (i / 512) zeroBlock
      let code := coatCode (blk at').coat
      let w := coatWidth cardNfr code
      let org (k : Nat) : CopyVal := .lane (originNaN 0 (r % 16 * 64 + k))
      if w = 0 then
        ((List.range 64).map fun k => if coatZero (blk at').coat then (CopyVal.lane 0, false) else (org k, true)) ++
          coatVals bs n (r + 1) (at' / 512 * 512 + 512)
      else
        ((List.range 64).map fun k =>
          let b := blk (at' + k * w)
          if coatPoison b.coat || (!coatZero b.coat && coatCode b.coat != code) then (org k, true)
          else if coatZero b.coat then (.lane 0, false)
          else (.lane (coatLane cardNfr code (bitsOf b.data ((at' + k * w) % 512) w) (coatE b.coat)), false)) ++
          coatVals bs n (r + 1) (at' + 64 * w)

/-- CONVERT: the elements are laid out again in DFMT; whether any comes from a poisoned block (R265, R280). -/
def Card.convert (c : Card) (bs : List BlockVal) : List BlockVal × Bool :=
  let vs := if c.sfmt = 0 then coatVals bs (2 * bs.length + 1) 0 0 else runVals c.sfmt bs
  let ws := layElems cardNfr c.dfmt 0 vs
  (ws.map fun w => { data := w.w.data, coat := w.w.coat.getD 0 }, ws.any CWrite.bad)

/-- Byte `i` of an extent; a zero block gives zeros, and so does what lies past its end. -/
def extentByte (bs : List BlockVal) (i : Nat) : Nat :=
  match bs[i / 64]? with
  | none => 0
  | some b => if coatZero b.coat then 0 else bitsOf b.data (8 * (i % 64)) 8

/-- PLANE: the eight planes of each group of eight columns of each segment of 64 rows (R73, R235, R280). R280 takes I8 or N8 rows
and says of which they are no more: the CODE of the extent's first block decides, N8 or else I8 (DESIGN CHOICE, log 142). -/
def Card.toPlanes (c : Card) (bs : List BlockVal) (e : Int) : List (Nat × BlockVal) × Bool :=
  let code := if (bs.head?.map fun b => coatCode b.coat) = some 0x09 then 0x28 else 0x18
  let poison (i : Nat) : Bool := (bs[i / 64]?).any fun b => coatPoison b.coat
  let groups := (List.range c.kseg).flatMap fun g => (List.range (c.ncol / 8)).map fun h => (g, h)
  let at' (g h k : Nat) : Nat := (64 * g + k) * c.ncol + 8 * h
  let bad (g h : Nat) : Bool := (List.range 64).any fun k => poison (at' g h k) || poison (at' g h k + 7)
  let out := groups.flatMap fun (g, h) => (List.range 8).map fun i =>
    let bits := (List.range 64).map fun k =>
      packCodes 1 ((List.range 8).map fun n => extentByte bs (at' g h k + n) / 2 ^ (7 - i))
    (g * c.ss + i * c.pstride + 64 * h,
      { data := packCodes 8 bits, coat := if bad g h then 0x00FF else mkCoat e (code + i) : BlockVal })
  (out, groups.any fun (g, h) => bad g h)

/-- What the stages make of a card's blocks: each output block with its offset, and the findings that go into the
status. -/
structure Staged where
  out      : List (Nat × BlockVal)
  badcrc   : Bool := false
  mismatch : Bool := false
  poisoned : Bool := false
  deriving DecidableEq, Repr

def Card.has (c : Card) (id : Nat) : Bool := c.stages.contains id

/-- COATV on an output block that is neither a zero block nor poisoned (R280). -/
def Card.recoat (c : Card) (b : BlockVal) : BlockVal :=
  if coatPoison b.coat || coatZero b.coat then b else { b with coat := BitVec.ofNat 16 c.coatv }

/-- The whole extent has been read. -/
def Card.full (c : Card) : Bool := !c.unmapped && c.nblk ≤ c.blocks.length

/-- Elements of COAT rows of 64 that lie in `n` bits as a whole, from bit `at'` on (R65). -/
def coatElemsIn (bs : List BlockVal) (n : Nat) : Nat → Nat → Nat
  | 0, _ => 0
  | k + 1, at' =>
    let w := coatWidth cardNfr (coatCode (bs.getD (at' / 512) zeroBlock).coat)
    let next := if w = 0 then at' / 512 * 512 + 512 else at' + 64 * w
    if n < next then 0 else 64 + coatElemsIn bs n k next

/-- Blocks that CONVERT makes of whole elements in `bs`. -/
def Card.converted (c : Card) (bs : List BlockVal) : Nat :=
  let n := 512 * bs.length
  (if c.sfmt = 0 then coatElemsIn bs n (2 * bs.length + 1) 0 else n / elemBits cardNfr c.sfmt) * elemBits cardNfr c.dfmt / 512

/-- Plane blocks whose rows lie in `n` blocks as a whole, in the order in which PLANE writes them. -/
def Card.planesIn (c : Card) (n : Nat) : Nat :=
  8 * (((List.range c.kseg).flatMap fun g => (List.range (c.ncol / 8)).map fun h => (64 * g + 63) * c.ncol + 8 * h + 8).takeWhile
    fun e => e ≤ 64 * n).length

/-- The stages in the order of R281. While the extent has not been read in full, and where an UNMAPPED block ends it, only
the output that the blocks before give stands; so does PLANE's of an expanded stream of another length than declared (R319). -/
def Card.stage (c : Card) : Staged :=
  let bs : List BlockVal := c.blocks.map fun b => { data := b.1, coat := b.2 }
  let badcrc := c.has 1 && c.full && crc32c (bs.flatMap fun b => leBytes 64 b.data) != c.crc
  let x := expandStream bs
  let mismatch := c.has 2 && c.full && x.d != x.nblk
  let bs := if c.has 2 then x.blocks else bs
  let known := if c.has 4 then c.converted bs else bs.length
  let (bs, p1) := if c.has 4 then c.convert bs else (bs, false)
  let e : Int := if c.has 5 then coatE (BitVec.ofNat 16 c.coatv) else 0
  let known := if c.has 3 then c.planesIn known else known
  let (out, p2) :=
    if c.has 3 then c.toPlanes bs e
    else ((if c.has 5 then bs.map c.recoat else bs).zipIdx.map fun (b, i) => (64 * i, b), false)
  { out := if c.full && !(mismatch && c.has 3) then out else out.take known
    badcrc := badcrc, mismatch := mismatch, poisoned := p1 || p2 }

/-! ## Landing (R315, R318, R319) -/

/-- The card's writes, block by block to each target pair: they end at the first half that has become active. -/
def State.cardWrites (s : State) (c : Card) : List (Nat × BlockVal) → State × Bool
  | [] => (s, true)
  | (o, b) :: t =>
    let r := c.halves.foldl (fun (acc : State × Bool) (p, half) =>
      if !acc.2 || (acc.1.pair p).active == half then (acc.1, false)
      else (acc.1.putBlock (wbankPlace p half ((c.dstoff + o) % 2 ^ 24 / 64 * 64)) b, true)) (s, true)
    if r.2 then r.1.cardWrites c t else (r.1, false)

/-- STATUS of a card that has written everything, or of one whose writes were refused (R278). -/
def Card.statusOf (c : Card) (g : Staged) (written : Bool) : Nat :=
  if !written then 0x01
  else if c.unmapped then 0x03
  else if c.uncorr.isSome then 0x0E
  else if g.mismatch then 0x04
  else if g.badcrc then 0x09
  else if g.poisoned then 0x05
  else 0

/-- ERR of the handle for a card's STATUS; with OK and POISONED the plane lands (R278, R319, R320). -/
def statusErr (st : Nat) : Option Nat :=
  if st = 0 ∨ st = 0x05 then none else if st = 0x0E then some errUNCORR else some st

/-- A plane lands (R315). -/
def Handle.land (x : Handle) (whole : Bool) (gtc : Word) : Handle :=
  let n := if whole then 8 else x.landed + 1
  { x with landed := n, lgtc := gtc, st := if x.req ≤ n then 3 else 2 }

/-- The card's last blocks may be written in this cycle. -/
def Card.due (c : Card) (now : Nat) : Bool := c.lands.any fun t => t ≤ now

/-- The oldest card may write in this cycle what it has read: the write-port row of every target pair is FREE
(R252, R315). -/
def State.cardLands (s : State) (d : Nat) : Option Card :=
  (s.stack d).cards.head?.filter fun c =>
    (c.due s.cycle || c.drained < c.blocks.length) && c.halves.all fun (p, _) =>
      (s.face c.face).isFree (rowWWrite p) s.tick && !(s.wbankShut p (rowWWrite p) s.cycle s.cycle) &&
        !(s.pair p).bankHeld 33 s.cycle 1

/-- The oldest card completes with a status: it lands its plane, or its handle ends in ERROR or IDLE (R278, R318, R319). -/
def State.endCard (s : State) (d : Nat) (c : Card) (st : Nat) : State :=
  let s := s.onStack d fun f =>
    { f with cards := f.cards.drop 1, lastCard := some { c with status := st, blocks := [], drained := 0 } }
  if c.orphan then s
  else if c.dropped then
    if (s.stack d).cards.any fun x => x.handle == c.handle && !x.orphan then s else s.onHandle c.handle Handle.idle
  else match statusErr st with
    | some e => s.handleError c.handle c.plane (c.uncorr.getD 0) e
    | none => s.onHandle c.handle fun x => x.land c.whole s.gtcWord

/-- The oldest card writes what its stages give of the blocks read; with the last of them, or with a write that is refused, it
completes. A CHECK mismatch recoats every block that it wrote (R280). -/
def execPlaneLand (d : Nat) (s : State) : Host.Outcome State Fault Refusal :=
  match s.cardLands d with
  | none => .next s
  | some c =>
    let g := c.stage
    let (s, written) := s.cardWrites c (g.out.drop c.wrote)
    let s := c.halves.foldl (fun s (p, _) => s.onPair p fun y => y.holdBank s.cycle 33 s.cycle 1) s
    if written && !c.due s.cycle then
      .next (s.onStack d fun f =>
        { f with cards := { c with wrote := g.out.length, drained := c.blocks.length } :: f.cards.drop 1 })
    else
      let s := if written && g.badcrc then (s.cardWrites c (g.out.map fun (o, b) => (o, { b with coat := 0x00FF }))).1 else s
      .next (s.endCard d c (c.statusOf g written))

end Sys2Proof.Machine
end

