-- ==== Sys2Proof/Machine/Domain.lean ====
section
/-! DEFINITION. The memory side of a domain: promotion, the clock sweeper, demotion, epochs, page commands, L2
maintenance, way partitions and soft errors of SRAM (R184, R190, R286 to R299). -/

namespace Sys2Proof.Machine

/-! ## Frames (R286, R292, R293, R298) -/

/-- Frames of a stack: 64 GiB of 64 KiB (R13). -/
def frameCount : Nat := 2 ^ 20

/-- Frames of stack `d` that hold the table of region `r`. -/
def State.tableFrame (s : State) (d r f : Nat) : Bool :=
  let base := s.ftBase r
  base / 2 ^ 48 % 8 == d && s.ftLen r != 0 && base % 2 ^ 36 / 65536 ≤ f &&
    f ≤ (base % 2 ^ 36 + 16 * s.ftLen r - 1) / 65536

/-- A frame reserved for a frame table or for the translation layer's maps (R293). -/
def State.frameReserved (s : State) (d f : Nat) : Bool :=
  Config.mapFrame d f || (List.range 9).any fun r => s.tableFrame d r f

/-- The index of the page of domain `d`'s own region whose entry names a frame in use: the reverse map of R293. -/
def State.pageOf (s : State) (d f : Nat) : Option Nat :=
  (List.range (s.ftLen d)).find? fun i =>
    let e := s.pteMem d i
    (e.st d == 1 || e.st d == 4) && e.frame == f

/-- A replicated page occupies the frame in stack `d` (R295). -/
def State.replicaOf (s : State) (d f : Nat) : Bool :=
  (List.range (s.ftLen 8)).any fun i =>
    let e := s.pteMem 8 i
    e.st 8 == 3 && e.rmask.testBit d && e.frame == f

/-- The frame holds a version of a renamed page (R362). -/
def State.versionFrame (s : State) (d f : Nat) : Bool := (s.dom d).versions.any fun v => v.2.1 == f

/-- The frame is in use. -/
def State.frameUsed (s : State) (d f : Nat) : Bool :=
  (s.pageOf d f).isSome || s.replicaOf d f || s.versionFrame d f

/-- Frames that partition `p` holds in domain `d`: those of its pages and of its versions (R292, R404). -/
def State.framesHeld (s : State) (p d : Nat) : Nat :=
  let own := (List.range (s.ftLen d)).filter fun i =>
    let e := s.pteMem d i
    (e.st d == 1 || e.st d == 4) && e.owner == p
  let rep := (List.range (s.ftLen 8)).filter fun i =>
    let e := s.pteMem 8 i
    e.st 8 == 3 && e.rmask.testBit d && e.owner == p
  let ver := (s.dom d).versions.filter fun v => (s.pteMem d v.1).owner == p
  own.length + rep.length + ver.length

/-- The partition may hold another frame of the domain. -/
def State.quotaLeft (s : State) (p d : Nat) : Bool := s.framesHeld p d < (s.part p).fquota

/-- A frame is pushed to the ready queue, which holds up to 256; a frame that finds no room stays free and the sweeper
comes back to it (R293). -/
def State.pushFrame (s : State) (d f : Nat) : State :=
  s.onDom d fun x => if 256 ≤ x.ready.length || x.ready.contains f then x else { x with ready := x.ready ++ [f] }

/-! ## Promotion (R292) -/

/-- The entry of a page of domain `d` that waits in flash. -/
def State.inHbf (s : State) (d page : Nat) : Option Pte :=
  (s.peekPte d d page).filter fun e => e.st d == 2

/-- The promotion that the engine serves next: the oldest demand promotion, once there is a frame within the quota for it,
or else the oldest count promotion; nothing passes a demand promotion that waits. A page no longer in flash is
dropped. -/
def State.nextPromotion (s : State) (d : Nat) : Option (Nat × Bool) :=
  let x := s.dom d
  match x.promoQ.find? fun q => q.2 with
  | none => x.promoQ.head?
  | some q => match s.inHbf d q.1 with
    | none => some q
    | some e => if !x.ready.isEmpty && s.quotaLeft e.owner d then some q else none

/-- A promotion leaves the queue, and those of demand that have found no room in it are queued. -/
def State.dropPromotion (s : State) (d page : Nat) : State :=
  s.onDom d fun x =>
    let x := { x with promoQ := x.promoQ.filter fun q => q.1 != page }
    (x.promoWait.filter fun p => p != page).foldl (fun (x : Domain) p => x.askPromotion p true) { x with promoWait := [] }

/-- The writes held for a page are made, in order. -/
def State.applyHeld (s : State) (d page : Nat) : State :=
  let mine (h : HeldWrite) : Bool := iaRegion h.ia == d && iaPage h.ia == page
  let l := (s.dom d).heldW.filter mine
  let s := s.onDom d fun x => { x with heldW := x.heldW.filter fun h => !mine h }
  l.foldl (fun s h =>
    (s.memWrite { dom := d, part := h.part, alloc := false } d h.ia { mask := h.mask, data := h.data, coat := h.coat }).2) s

/-- The page becomes MOVING with the head frame of the ready queue, and its held writes land. Its sixteen codewords are read after
what the read channel is busy with, and keep it busy (R15; DESIGN CHOICE, log 60). -/
def State.startPromotion (s : State) (d page f : Nat) (e : Pte) : State :=
  let s := s.setPte d page (((e.setSt 4).set 41 1 0).setFrame f)
  let s := (s.onDom d fun x =>
    { x with ready := x.ready.drop 1, moves := x.moves ++ [{ page := page, frame := f, demote := false }] }).applyHeld d page
  let t := max s.cycle (s.stack d).chan + 16 * (readCycles + Config.flashTime s.fresh)
  ((s.onStack d fun f => { f with chan := t }).schedule t (srcHbm d) (.promotionDone d)).bump

def execPromotion (d : Nat) (s : State) : Host.Outcome State Fault Refusal :=
  match s.nextPromotion d with
  | none => .next s
  | some (page, demand) =>
    let t := s.dropPromotion d page
    match s.inHbf d page, (s.dom d).ready with
    | none, _ => .next t
    | some e, f :: _ =>
      if demand || s.quotaLeft e.owner d then .next (t.startPromotion d page f e)
      else .next (t.onDom d fun x => { x with promskip := sat32 x.promskip })
    | some _, [] => .next (t.onDom d fun x => { x with promskip := sat32 x.promskip })

/-- The lines of one logical block that have not been copied go to the frame (R292, R305). -/
def State.promoteLba (s : State) (d : Nat) (m : Move) (lba i : Nat) : State :=
  let left := (List.range 64).filter fun k => !m.copied.contains (64 * i + k)
  if left.isEmpty then s
  else
    let (okd, cw, s) := match Tbl.find (s.stack d).map (lba + i) with
      | none => (false, 0, s)
      | some cw =>
        let r := s.forwardRead d cw
        (r.1, cw, r.2)
    let found := (Tbl.find (s.stack d).map (lba + i)).isSome
    left.foldl (fun s k =>
      let b : BlockVal := if found then s.blockAt (flashPlace d cw (64 * k)) else zeroBlock
      s.putBlock (hbmPlace d (m.frame * 65536 + 4096 * i + 64 * k)) (if okd then b else { b with coat := 0x00FF })) s

/-- The last line of the oldest promotion has been copied. -/
def execPromotionDone (d : Nat) (s : State) : Host.Outcome State Fault Refusal :=
  match (s.dom d).moves.find? fun m => !m.demote with
  | none => .next s
  | some m =>
    match s.peekPte d d m.page with
    | none => .next s
    | some e =>
      let s := (List.range 16).foldl (fun s i => s.promoteLba d m e.lba i) s
      let e := (s.pteMem d m.page)
      let s := s.setPte d m.page (((e.setSt 1).setA true).setD m.wrote)
      .next (s.onDom d fun x =>
        { x with moves := x.moves.filter fun k => k != m, promos := (x.promos + 1) % 2 ^ 32 })

/-! ## Sweeping and demotion (R293, R294) -/

/-- A page is written to flash: it becomes MOVING, and the flash write takes its time, after the programs before it (R15). -/
def State.startDemotion (s : State) (d page : Nat) (e : Pte) : State :=
  let s := (s.setPte d page ((e.setSt 4).set 41 1 1)).onDom d fun x =>
    { x with moves := x.moves ++ [{ page := page, frame := e.frame, demote := true }] }
  let s := s.takeProgram d (pageProgram + 16 * Config.flashTime s.fresh)
  (s.schedule (s.stack d).progFree (srcHbm d) (.demotionDone d page)).bump

/-- A demotion is over (R299). -/
def State.countDemotion (s : State) (d : Nat) : State := s.onDom d fun x => { x with demos := (x.demos + 1) % 2 ^ 32 }

/-- The sweeper's step on an HBM page whose A bit does not keep it: none where it skips the page. -/
def State.demoteStep (s : State) (d page : Nat) (e : Pte) : Option State :=
  if e.pin || (e.anon && !(s.part e.owner).spill) then none
  else if e.d || e.anon then some (s.startDemotion d page e)
  else some (((s.setPte d page (e.setSt 2)).pushFrame d e.frame).countDemotion d)

/-- The sweeper runs from the cycle in which READY falls below LOWWM until READY reaches HIGHWM. -/
def Domain.sweeps (x : Domain) : Bool :=
  if x.sweeping then decide (x.ready.length < x.highwm) else decide (x.ready.length < x.lowwm)

/-- One turn of the sweeper's loop. -/
def State.sweepStep (s : State) (d : Nat) : State :=
  let f := (s.dom d).hand
  let s := s.onDom d fun x => { x with hand := (f + 1) % frameCount, sweeping := true }
  match s.pageOf d f with
  | none =>
    if s.frameReserved d f || s.replicaOf d f || s.versionFrame d f then s else s.pushFrame d f
  | some page =>
    let e := s.pteMem d page
    if e.st d ≠ 1 ∨ e.pin then s
    else if e.a then s.setPte d page (e.setA false)
    else (s.demoteStep d page e).getD s

def execSweep (d : Nat) (s : State) : Host.Outcome State Fault Refusal :=
  if (s.dom d).sweeps then
    let t := s.sweepStep d
    .next (t.onDom d fun x => { x with sweeping := decide (x.ready.length < x.highwm) })
  else .next s

/-- The 64 blocks of logical block `i` of a frame. -/
def State.frameLba (s : State) (d f i : Nat) : List BlockVal :=
  (List.range 64).map fun k => s.blockAt (hbmPlace d (f * 65536 + 4096 * i + 64 * k))

/-- The sixteen logical blocks of a frame are programmed; none where a program completes with an error. -/
def State.programFrame (s : State) (d f lba : Nat) : Option State :=
  (List.range 16).foldl (fun acc i => acc.bind fun s => s.program d (lba + i) false none (s.frameLba d f i)) (some s)

/-- The flash write of a demotion is complete; one that a write abandoned is discarded. -/
def execDemotionDone (d page : Nat) (s : State) : Host.Outcome State Fault Refusal :=
  match (s.dom d).moves.find? fun m => m.demote && m.page == page with
  | none => .next s
  | some m =>
    let s := s.onDom d fun x => { x with moves := x.moves.erase m }
    if m.dead then .next s
    else
      let e := s.pteMem d page
      match s.programFrame d m.frame e.lba with
      | some t =>
        .next (((t.setPte d page (((e.setSt 2).setD false).setAnon false)).pushFrame d m.frame).countDemotion d)
      | none => .next (s.setPte d page (e.setSt 1))

/-! ## Epochs (R291) -/

/-- GTC has reached a multiple of EPOCHLEN in this cycle. -/
def State.epochDue (s : State) (d : Nat) : Bool :=
  s.gtc != (s.cycle - 1) * 5 / 9 && s.gtc % (s.dom d).epochlen == 0

def execEpochAdvance (d : Nat) (s : State) : Host.Outcome State Fault Refusal :=
  if s.epochDue d then .next (s.onDom d fun x => { x with epoch := x.epoch + 1 }) else .next s

/-! ## L2 maintenance (R297) -/

/-- A line that the command of partition `p` covers. -/
def State.l2Covers (s : State) (d p : Nat) (key : Nat) (ln : Line) : Bool :=
  lineDom key == d && ln.owner == p && (s.dom d).l2lo ≤ lineIa key && lineIa key ≤ (s.dom d).l2hi

/-- The dirty lines of the range are written back; `drop` says whether the lines are then invalidated, which triggers
their monitors (R332), and `save` whether dirty data are written at all. -/
def State.l2Run (s : State) (d p : Nat) (save drop : Bool) : State :=
  (s.lines.filter fun e => s.l2Covers d p e.1 e.2).foldl (fun s (key, ln) =>
    let s := if save && ln.dirty then s.writeBack key ln else s
    if drop then { s with lines := Tbl.del s.lines key }.trigger key
    else { s with lines := Tbl.put s.lines key { ln with dirty := false } }) s

def execWb (d p : Nat) (s : State) : Host.Outcome State Fault Refusal :=
  .next (if (s.dom d).l2Op = 1 then s.l2Run d p true false else s)
def execWbinv (d p : Nat) (s : State) : Host.Outcome State Fault Refusal :=
  .next (if (s.dom d).l2Op = 2 then s.l2Run d p true true else s)
def execInv (d p : Nat) (s : State) : Host.Outcome State Fault Refusal :=
  .next (if (s.dom d).l2Op = 3 then s.l2Run d p false true else s)

/-- Every line written back has reached its frame: no write of the range is held for a promotion. -/
def Domain.l2Over (x : Domain) : Bool :=
  x.l2Op != 0 && !(x.heldW.any fun h => x.l2lo ≤ h.ia && h.ia / 64 * 64 ≤ x.l2hi)

def execL2cmdDone (d : Nat) (s : State) : Host.Outcome State Fault Refusal :=
  if (s.dom d).l2Over then .next (s.onDom d fun x => { x with l2Op := 0, l2Done := true }) else .next s

/-! ## Page commands (R298) -/

def pgOK : Nat := 0
def pgSTATE : Nat := 1
def pgOWNER : Nat := 2
def pgQUOTA : Nat := 3
def pgBUSY : Nat := 4
def pgBADARG : Nat := 5

/-- Region and index of the page that PGARG0 names. -/
def State.pgPage (s : State) (d : Nat) : Nat × Nat := (iaRegion (s.dom d).pgarg0, iaPage (s.dom d).pgarg0)

/-- STATUS of a page command (R298). -/
def State.pgResult (s : State) (d st : Nat) : State := s.onDom d fun x => { x with pgStatus := st }

/-- What every page command checks first: the page's index and region, its owner, and whether it is MOVING. A page of
another domain's region is BADARG. -/
def State.pgCheck (s : State) (d p : Nat) : Except Nat Pte :=
  let (r, idx) := s.pgPage d
  if (r ≠ d ∧ r ≠ 8) ∨ s.ftLen r ≤ idx then .error pgBADARG
  else match s.peekPte d r idx with
    | none => .error pgBADARG
    | some e =>
      if e.st r ≠ 0 ∧ e.owner ≠ p then .error pgOWNER
      else if e.st r = 4 then .error pgBUSY
      else .ok e

/-- A page command with its own check and effect: `body` gives a status other than OK, or the state it leaves. -/
def State.pgRun (s : State) (d p : Nat) (body : Nat → Nat → Pte → Except Nat State) : Host.Outcome State Fault Refusal :=
  if !(s.dom d).pgBusy then .next s
  else match s.pgCheck d p with
    | .error st => .next (s.pgResult d st)
    | .ok e =>
      let (r, idx) := s.pgPage d
      match body r idx e with
      | .error st => .next (s.pgResult d st)
      | .ok t => .next (t.pgResult d pgOK)

/-- The page's state is one of these. -/
def needSt (r : Nat) (e : Pte) (l : List Nat) (k : Except Nat State) : Except Nat State :=
  if l.contains (e.st r) then k else .error pgSTATE

/-- A frame that a command names is free: neither reserved nor in use. -/
def State.frameFree (s : State) (d f : Nat) : Bool := !s.frameReserved d f && !s.frameUsed d f

/-- A frame that a command takes leaves the ready queue. -/
def State.takeFrame (s : State) (d f : Nat) : State :=
  s.onDom d fun x => { x with ready := x.ready.filter fun g => g != f }

/-- A fresh entry. -/
def freshPte (st p frame lba : Nat) (anon pin : Bool) : Pte :=
  { w0 := st * 2 ^ 61 + pin.toNat * 2 ^ 58 + anon.toNat * 2 ^ 57 + p * 2 ^ 53 + frame, w1 := lba }

def execMaphbm (d p : Nat) (s : State) : Host.Outcome State Fault Refusal :=
  s.pgRun d p fun r idx e => needSt r e (if r = 8 then [] else [0]) <|
    let a := (s.dom d).pgarg1
    let f := bitsOf a.toNat 0 20
    let lba := bitsOf a.toNat 20 40
    if !s.frameFree d f || lba % 16 != 0 then .error pgBADARG
    else if !s.quotaLeft p d then .error pgQUOTA
    else .ok ((s.setPte d idx (freshPte 1 p f lba (a.getLsbD 60) (a.getLsbD 61))).takeFrame d f)

def execMaphbf (d p : Nat) (s : State) : Host.Outcome State Fault Refusal :=
  s.pgRun d p fun r idx e => needSt r e (if r = 8 then [] else [0]) <|
    let lba := bitsOf (s.dom d).pgarg1.toNat 20 40
    if lba % 16 ≠ 0 then .error pgBADARG else .ok (s.setPte d idx (freshPte 2 p 0 lba false false))

/-- Writes held for a page that is unmapped are discarded with it. -/
def State.dropHeld (s : State) (r page : Nat) : State :=
  if r = 8 then s
  else s.onDom r fun x => { x with heldW := x.heldW.filter fun h => iaPage h.ia != page }

/-- The page becomes INVALID and its frame, in each stack that holds it, is pushed. -/
def execUnmap (d p : Nat) (s : State) : Host.Outcome State Fault Refusal :=
  s.pgRun d p fun r idx e => needSt r e [1, 2, 3] <|
    let t := (s.setPte r idx (e.setSt 0)).dropHeld r idx
    .ok (if e.st r = 1 then t.pushFrame d e.frame
      else if e.st r = 3 then (maskPairs e.rmask).foldl (fun s i => s.pushFrame i e.frame) t
      else t)

def execPin (d p : Nat) (s : State) : Host.Outcome State Fault Refusal :=
  s.pgRun d p fun r idx e => needSt r e [1, 2, 3] (.ok (s.setPte r idx (e.set 58 1 1)))
def execUnpin (d p : Nat) (s : State) : Host.Outcome State Fault Refusal :=
  s.pgRun d p fun r idx e => needSt r e [1, 2, 3] (.ok (s.setPte r idx (e.set 58 1 0)))

/-- PROMOTE asks for a demand promotion; the command is complete once it has been asked for. -/
def execPromote (d p : Nat) (s : State) : Host.Outcome State Fault Refusal :=
  s.pgRun d p fun r idx e => needSt r e [2] (.ok (s.onDom d fun x => x.askPromotion idx true))

/-- DEMOTE takes the sweeper's step whatever A says; a page that the sweeper would skip is not in the state required. -/
def execDemote (d p : Nat) (s : State) : Host.Outcome State Fault Refusal :=
  s.pgRun d p fun r idx e => needSt r e [1] <| match s.demoteStep d idx e with
    | some t => .ok t
    | none => .error pgSTATE

/-- The bytes of a frame are zero, with the coats of R63. -/
def State.zeroFrame (s : State) (d f : Nat) : State :=
  let lo := hbmPlace d (f * 65536)
  let hi := lo + 65536
  { s with mem := s.mem.filter fun c => c.1 < lo || hi ≤ c.1
           coats := s.coats.filter fun c => c.1 < lo / 64 || hi / 64 ≤ c.1 }

def execReplicate (d p : Nat) (s : State) : Host.Outcome State Fault Refusal :=
  s.pgRun d p fun r idx e => needSt r e (if r = 8 then [0] else []) <|
    let a := (s.dom d).pgarg1.toNat
    let f := bitsOf a 0 20
    let mask := bitsOf a 20 8
    let prim := bitsOf a 28 3
    if !mask.testBit prim || (maskPairs mask).any fun i => !s.frameFree i f then .error pgBADARG
    else if (maskPairs mask).any fun i => !s.quotaLeft p i then .error pgQUOTA
    else
      let t := (maskPairs mask).foldl (fun s i => (s.zeroFrame i f).takeFrame i f) s
      .ok (t.setPte 8 idx { w0 := 3 * 2 ^ 61 + p * 2 ^ 53 + mask * 2 ^ 45 + prim * 2 ^ 42 + f, w1 := 0 })

/-- INVAL drops the domain's cached entry: the table in memory is read again, and the checks of every page command are
made on what it holds (R286, R298). -/
def execInval (d p : Nat) (s : State) : Host.Outcome State Fault Refusal :=
  if !(s.dom d).pgBusy then .next s
  else
    let (r, idx) := s.pgPage d
    let drop (s : State) : State := s.onDom d fun x => { x with tcache := Tbl.del x.tcache (pteKey r idx) }
    match (drop s).pgCheck d p with
    | .error st => .next (s.pgResult d st)
    | .ok _ => .next ((drop s).pgResult d pgOK)

def execPgcmdDone (d : Nat) (s : State) : Host.Outcome State Fault Refusal :=
  if (s.dom d).pgBusy then .next (s.onDom d fun x => { x with pgBusy := false }) else .next s

/-! ## Way partitions (R182 to R184, R188) -/

/-- Cores and copy engines of the package, each of which has a table of staging sizes (R183). -/
def sizeUnits : Nat := 640

/-- A slice's size is on its way to every core's and every copy engine's table, which get it at different cycles (R184). -/
def State.sendSize (s : State) (n size : Nat) : State :=
  { s with
    sizes := s.sizes ++ (List.range sizeUnits).map fun u =>
      { due := s.cycle + 1 + Config.reachTime (s.fresh + u), unit := u, slice := n, size := size }
    fresh := s.fresh + sizeUnits }

/-- The first cycle in which every table has what is on its way of a slice. -/
def State.sizesDone (s : State) (n : Nat) : Nat := s.sizes.foldl (fun m z => if z.slice = n then max m (z.due + 1) else m) s.cycle

/-- A size reaches a table. -/
def State.landSize (s : State) (z : SizeSend) : State :=
  let put (t : Tbl Nat) : Tbl Nat := if z.size = 0 then Tbl.del t z.slice else Tbl.put t z.slice z.size
  if z.unit < 512 then s.onCore z.unit fun k => { k with staging := put k.staging }
  else s.onEngine (z.unit - 512) fun y => { y with staging := put y.staging }

/-- The sizes that are due reach their tables. -/
def State.landSizes (s : State) : State :=
  if s.sizes.isEmpty then s
  else (s.sizes.filter fun z => z.due ≤ s.cycle).foldl State.landSize { s with sizes := s.sizes.filter fun z => s.cycle < z.due }

/-- Staging bytes `lo` to `hi` - 1 of a slice become zero with coat 0x8000. -/
def State.clearStaging (s : State) (n lo hi : Nat) : State :=
  let a := stagingPlace n lo
  let b := stagingPlace n hi
  { s with mem := s.mem.filter fun c => c.1 < a || b ≤ c.1
           coats := s.coats.filter fun c => c.1 < a / 64 || b / 64 ≤ c.1 }

/-- The lines in ways `lo` to `hi` - 1 of a slice are written back and invalidated. -/
def State.emptyWays (s : State) (n lo hi : Nat) : State :=
  (s.lines.filter fun e => homeSlice (lineDom e.1) (lineIa e.1) == n && lo ≤ e.2.way && e.2.way < hi).foldl
    (fun s (key, ln) =>
      let s := if ln.dirty then s.writeBack key ln else s
      { s with lines := Tbl.del s.lines key }) s

/-- A write of WAYPART: a change begins, or the write is refused (R184). -/
def execWaypartWrite (n : Nat) (v : Word) (s : State) : Host.Outcome State Fault Refusal :=
  let x := s.slice n
  let w := bitsOf v.toNat 0 5
  if x.wNew.isSome || 16 < w then .next (s.setSlice n { x with err := true })
  else
    let s := s.setSlice n { x with err := false, wNew := if w = x.w then none else some w }
    let later (s : State) : State :=
      (s.schedule (s.sizesDone n + 1 + Config.reachTime s.fresh) (srcHbm (n / 192)) (.waypartDone n)).bump
    if w = x.w then .next s
    else if w < x.w then .next (later <| State.renewRet (d := n / 192) ((s.emptyWays n w x.w).clearStaging n (stageSize x.w) (stageSize w)))
    else .next (later (s.sendSize n (stageSize w)))

/-- A grown region has been cleared: its size is sent, and BUSY clears once every table has it. The accesses issued against a
shrunk size have been applied: the data of the region are discarded, and BUSY clears (R184). -/
def execWaypartDone (n : Nat) (s : State) : Host.Outcome State Fault Refusal :=
  let x := s.slice n
  match x.wNew with
  | none => .next s
  | some w =>
    if w < x.w && !x.sent then
      let s := (s.sendSize n (stageSize w)).setSlice n { x with sent := true }
      .next ((s.schedule (s.sizesDone n) (srcHbm (n / 192)) (.waypartDone n)))
    else
      let s := (s.setSlice n { x with w := w, wNew := none, sent := false }).renewRet (n / 192)
      .next (if w < x.w then s else s.clearStaging n (stageSize w) (stageSize x.w))

/-! ## Soft errors (R190) -/

/-- The places of SRAM as SRAM_ERROR names them: scratchpads and staging by their place in memory, a cached line and
the 64 blocks of a landing slot by these numbers. -/
def linePlace (key : Nat) : Nat := 2 ^ 64 + key
def landingPlace (core slot block : Nat) : Nat := 2 ^ 66 + 64 * (32 * core + slot) + block

/-- What a lane of a landing slot holds when its block is poisoned (R66, R175). -/
def Landing.poisonLane (x : Landing) (i : Nat) : Lane :=
  let bad : BlockVal := { data := 0, coat := 0x00FF }
  if x.fmt = 0xC then planeLane x.nfr (pqUns x.pq) (pqCen x.pq) [bad] 0 0
  else if x.fmt = 0 then originNaN x.pc i
  else (explicitRow x.nfr x.pc x.fmt (List.replicate 8 bad) 0 (i / 64 * 64)).getD (i % 64) 0

/-- A block of a LANDED slot, 16 of its converted lanes, is poisoned; a VLAND of it traps with the row's VA unless the
load itself had a poisoned block (DEDUCED, log 106). -/
def Landing.spoil (x : Landing) (block : Nat) : Landing :=
  if x.st ≠ .landed then x
  else
    let lanes := (List.range 1024).map fun i => if i / 16 = block then x.poisonLane i else x.lanes.getD i 0
    let row := if x.fmt = 0xC then x.va else x.va + x.stride * BitVec.ofNat 64 (block / 4)
    { x with lanes := lanes, poison := x.poison <|> some (BitVec.ofNat 64 (row.toNat / 64 * 64)) }

/-- An error is counted in the scratchpad of a pair. -/
def Pair.countError (p : Pair) (unc : Bool) : Pair :=
  if unc then { p with sunc := sat32 p.sunc } else { p with secc := sat32 p.secc }

/-- An error is counted in a slice. -/
def Slice.countError (x : Slice) (unc : Bool) : Slice :=
  if unc then { x with sunc := sat32 x.sunc } else { x with secc := sat32 x.secc }

/-- The unit that holds a place counts the error, and an uncorrectable one poisons the block (landing slots count with
their pair's scratchpad, DEDUCED). -/
def State.sramError (s : State) (place : Nat) (unc : Bool) : State :=
  if landingPlace 0 0 0 ≤ place then
    let n := place - landingPlace 0 0 0
    let core := n / 2048
    let slot := n / 64 % 32
    let s := s.onPair (pairOf core) fun p => p.countError unc
    let x := s.landing core slot
    if unc && x.st == .landed then s.setLanding core slot (x.spoil (n % 64)) else s
  else if linePlace 0 ≤ place then
    let key := place - linePlace 0
    let s := s.onSlice (homeSlice (lineDom key) (lineIa key)) fun x => x.countError unc
    match Tbl.find s.lines key with
    | some ln => if unc then { s with lines := Tbl.put s.lines key { ln with coat := 0x00FF } } else s
    | none => s
  else
    let s := if stagingPlace 0 0 ≤ place then
        s.onSlice ((place - stagingPlace 0 0) / 2 ^ 20) fun x => x.countError unc
      else s.onPair ((place - scratchPlace 0 0) / 2 ^ 21) fun p => p.countError unc
    if unc then { s with coats := coatPut s.coats place 0x00FF } else s

/-- The place lies in a memory that R190 protects. -/
def sramPlace (place : Nat) : Bool :=
  (scratchPlace 0 0 ≤ place && place < scratchPlace 256 0) || (stagingPlace 0 0 ≤ place && place < stagingPlace 1536 0) ||
    (linePlace 0 ≤ place && place < landingPlace 512 0 0)

def execSramError (place : Nat) (unc : Bool) (s : State) : Host.Outcome State Fault Refusal :=
  if !sramPlace place then .next s
  else .next (if unc then s.sramError place unc else (s.sramError place unc).logEntry 4 [place])

end Sys2Proof.Machine
end

