-- ==== Sys2Proof/Machine/Calendar.lean ====
section
/-! DEFINITION. The forward calendar: BOOK and CALQ, the controller's requests, the start of booked tasks, refresh,
compaction, overruns, freezes and slips, and changes of the weight-layer clock ratio and of the thermal allowance
(R198 to R224, R367, R368). -/

namespace Sys2Proof.Machine

/-! ## BOOK and CALQ at issue (R206, R207) -/

/-- Statuses of BOOK and CALQ; NOFIT is `stNOFIT`. -/
def stBADPLAN : Word := 0xFFFFFFFFFFFFFFFE
def stBOOKED : Word := 0xFFFFFFFFFFFFFFFD
def stTABLEFULL : Word := 0xFFFFFFFFFFFFFFFC
def stBUFFER : Word := 0xFFFFFFFFFFFFFFFB
def stNORATIO : Word := 0xFFFFFFFFFFFFFFFA

/-- The window kinds through which a plan may be read. -/
def planKinds : List Nat := [0, 1, 2, 3]

/-- ALIGN, XLATE and ACCESS of `n` bytes at a VA that a controller or dispatcher is to read. -/
def State.readCauses (s : State) (va align n : Nat) : List Cause :=
  (if va % align = 0 then [] else [kALIGN va]) ++
  accessCauses s.cx.windows s.ico.staging va [{ va := va, len := n }] .read planKinds

/-- Words read through the windows of the context at the point of issue. -/
inductive PlanRead where
  | words (ws : List Word)
  /-- a word lies outside every window with R permission -/
  | outside
  /-- memory has refused a word: its cause code and VA -/
  | fault (code va : Nat)
  deriving DecidableEq, Repr

/-- An 8-byte word through the windows. -/
def State.readVaWord (s : State) (va : Nat) : PlanRead × State :=
  match findWindow s.cx.windows va with
  | none => (.outside, s)
  | some w =>
    if s.readCauses va 8 8 ≠ [] then (.outside, s)
    else match s.readVa s.iss.core (s.winReq (some w)) w va with
      | (.ok b, s) => (.words [BitVec.ofNat 64 (bitsOf b.data (8 * (va % 64)) 64)], s)
      | (.fail code, s) => (.fault code va, s)

/-- `n` words from a VA up. -/
def State.readVaWords (s : State) (va : Nat) : Nat → PlanRead × State
  | 0 => (.words [], s)
  | n + 1 =>
    match s.readVaWord va with
    | (.words w, s) =>
      match s.readVaWords ((va + 8) % 2 ^ 64) n with
      | (.words ws, s) => (.words (w ++ ws), s)
      | (r, s) => (r, s)
    | (r, s) => (r, s)

/-- The plan at a VA: its header, then the entries that COUNT names. -/
def State.readVaPlan (s : State) (va : Nat) : PlanRead × State :=
  match s.readVaWords va 2 with
  | (.words h, s) =>
    match s.readVaWords ((va + 16) % 2 ^ 64) (bitsOf (wordAt h 0).toNat 0 8) with
    | (.words e, s) => (.words (h ++ e), s)
    | (r, s) => (r, s)
  | (r, s) => (r, s)

def PlanRead.plan : PlanRead → Option Plan
  | .words ws => some (planOf ws)
  | _ => none

/-- IA of a VA through the windows of the context at the point of issue. -/
def State.vaIa (s : State) (va : Nat) : Nat := ((findWindow s.cx.windows va).map fun w => s.effIa s.iss.core w va).getD 0

/-- A request enters the queue of the issuing core's controller (R205). -/
def State.askCalendar (s : State) (r : CalReq) : State := s.onFace s.iface fun f => f.ask r

/-- A result of a CT instruction that comes back from the package. -/
def ctResult (d : BitVec 5) : Pending := { id := 0, slot := 7, dest := .scalar d.toNat, reissue := false }

/-- Cycles that reading a plan takes. -/
def State.planLatency (s : State) (va : Nat) : Nat :=
  match findWindow s.cx.windows va with
  | some w => s.accessLatency s.iss.core w [va]
  | none => 1

/-- BOOK commits: a BOOKED context is answered at once; a FREE one waits for its controller. -/
def State.doBook (s : State) (d : BitVec 5) (va : Nat) : State :=
  let lat := s.planLatency va
  if s.cx.run = .booked then s.pendLoad s.cs lat none { ctResult d with value := stBOOKED }
  else match s.readVaPlan va with
    | (.fault code v, s) => s.pendLoad s.cs lat none { ctResult d with fault := some (code, BitVec.ofNat 64 v) }
    | (r, s) => (s.onCx fun x => { x with sleep := { x.sleep with book := some (d.toNat, 0) } }).askCalendar
        (.book s.cs r.plan (s.vaIa va))

def execBook (n : BitVec 4) (a d : BitVec 5) (s : State) : Host.Outcome State Fault Refusal :=
  let va := (s.cx.sreg a).toNat
  ctOp (.book n a d) n { rs := [a], ws := [d], var := true } false noWait (fun s => s.readCauses va 16 16)
    (fun s => s.doBook d va) s

/-- CALQ commits: its result is pending until the controller answers. -/
def State.doCalq (s : State) (d : BitVec 5) (va : Nat) : State :=
  let lat := s.planLatency va
  match s.readVaPlan va with
  | (.fault code v, s) => s.pendLoad s.cs lat none { ctResult d with fault := some (code, BitVec.ofNat 64 v) }
  | (r, s) =>
    ((s.onCx fun x => { x with pending := x.pending ++ [{ ctResult d with id := s.fresh }] }).askCalendar
      (.calq s.cs s.fresh r.plan)).bump

def execCalq (n : BitVec 4) (a d : BitVec 5) (s : State) : Host.Outcome State Fault Refusal :=
  let va := (s.cx.sreg a).toNat
  ctOp (.calq n a d) n { rs := [a], ws := [d], var := true } false noWait (fun s => s.readCauses va 16 16)
    (fun s => s.doCalq d va) s

/-! ## ADMISSION (R204 to R207) -/

/-- The answer of R206 for one core: a status, or the start tick and the booking id. -/
def State.admission (s : State) (p : Option Plan) (core : Nat) : Except Word (Nat × Nat × Plan) :=
  match p with
  | none => .error stBADPLAN
  | some p =>
    if !p.good then .error stBADPLAN
    else match (s.face (faceOf core)).freeBid with
      | none => .error stTABLEFULL
      | some b =>
        if !s.halfFree core then .error stBUFFER
        else match s.findStart p (faceOf core) [core] with
          | some (t, _) => .ok (t, b, p)
          | none => .error (if s.ratioOnly p (faceOf core) core then stNORATIO else stNOFIT)

/-- The booking that admission makes of a plan on a core at a start tick. -/
def State.bookingFor (s : State) (p : Plan) (core t : Nat) (base : Word) : Booking :=
  { core := core, ctx := none, part := s.partOf core, start := t, rows := p.uses core t (s.lease core)
    slip := p.policy == 1, slack := p.slack, code := p.code, base := base, ready := s.tick + p.lead, ratio := p.ratio }

/-- A BOOK is processed, unless its context has stopped waiting. -/
def State.processBook (s : State) (c : Nat) (p : Option Plan) (ia : Nat) : State :=
  match (s.ctx c).sleep.book with
  | some (d, 0) =>
    match s.admission p (coreOf c) with
    | .error st => s.onCtx c fun x => { (x.setS d st) with sleep := { x.sleep with book := none } }
    | .ok (t, b, p) =>
      ((s.bookPlan (faceOf (coreOf c)) b
        { s.bookingFor p (coreOf c) t (s.ctx c).pc with ctx := some c, planIa := ia }).preload (coreOf c) b
          (s.coreReq c true) (s.ctx c).windows).onCtx c fun x =>
        { (x.setS d (BitVec.ofNat 64 t)) with sleep := { x.sleep with book := some (d, t) }, bid := some b, fetched := [] }
  | _ => s

/-- The status of a stopped context's BOOK: it keeps no booking, so one that would be admitted is NOFIT (R414). -/
def State.savedStatus (s : State) (c : Nat) (p : Option Plan) : Word :=
  match s.admission p (coreOf c) with
  | .error st => st
  | .ok _ => stNOFIT

/-- The status of a CALQ (R207). -/
def State.calqStatus (s : State) (c : Nat) (p : Option Plan) : Word :=
  match s.admission p (coreOf c) with
  | .error st => st
  | .ok (t, _) => BitVec.ofNat 64 t

/-- A pending result of a context is answered with `v`; nothing else changes. -/
def State.answerPending (s : State) (c id : Nat) (v : Word) : State :=
  ((s.onCtx c fun x => { x with pending := x.pending.map fun q => if q.id = id then { q with value := v } else q }).schedule
    (s.cycle + 1 + Config.extraLatency s.fresh) (srcCore (coreOf c)) (.loadResult c id)).bump

/-! ## TASK_START (R111, R204, R368) -/

/-- A task of a dispatcher by its SEQ. -/
def State.findTask (s : State) (d seq : Nat) : Option Task := (s.disp d).tasks.find? fun t => t.seq == seq

def State.onTaskSeq (s : State) (d seq : Nat) (f : Task → Task) : State :=
  s.onDisp d fun y => { y with tasks := y.tasks.map fun t => if t.seq = seq then f t else t }

/-- VCOUNT and ROT that a TCB asks for (R350). -/
def tcbVcount (ws : List Word) : Nat := 16 * bitsOf (wordAt ws 4).toNat 48 4
def tcbRot (ws : List Word) : Nat := 8 * bitsOf (wordAt ws 4).toNat 52 4

/-- INST of a linear instance number (R119, R359). -/
def tcbInst (ws : List Word) (i : Nat) : Word :=
  let w := (wordAt ws 4).toNat
  let nx := bitsOf w 0 16
  let ny := bitsOf w 16 16
  BitVec.ofNat 64 (i % nx + i / nx % ny * 2 ^ 16 + i / (nx * ny) * 2 ^ 32)

/-- The window set of a queue (R354); an unreadable one gives no window. -/
def State.queueWindows (s : State) (n part d : Nat) : List Word × State :=
  match s.readBytes (engineReq d part) (s.queue n).wset 256 with
  | (.ok bs, s) => (wordsOf 32 bs, s)
  | (.error _, s) => (List.replicate 32 0, s)

def tcbDeadline (ws : List Word) : Nat := bitsOf (wordAt ws 2).toNat 0 48
def tcbNolate (ws : List Word) : Bool := (wordAt ws 2).getLsbD 48

/-- Deadline `a` is earlier than `b` (R365). -/
def deadlineBefore (a b : Nat) : Bool := 2 ^ 47 ≤ (a % 2 ^ 48 + 2 ^ 48 - b % 2 ^ 48) % 2 ^ 48

/-- The task's deadline has passed, and it wants a record of that (R350, R368, R370). -/
def State.isLate (s : State) (t : Task) : Bool :=
  deadlineBefore (tcbDeadline t.tcb) s.gtc && !tcbNolate t.tcb

/-- A status record about a task (R373). -/
def State.taskRecord (s : State) (t : Task) (kind : Nat) : State :=
  s.statusRecord (srcDisp (s.queue (16 * t.part + t.queue)).dom) t.part (recordWords t.part t.queue 0 kind s.gtcWord (BitVec.ofNat 64 t.slot) (BitVec.ofNat 64 t.seq) 0 0 0
    (BitVec.ofNat 64 (tcbDeadline t.tcb)))

/-- The first instance of a task starts: it is RUNNING, with a LATE_DISPATCH record where its deadline has passed. -/
def State.noteDispatch (s : State) (d : Nat) (t : Task) : State :=
  if t.dispatched then s
  else
    let s := s.onTaskSeq d t.seq fun u => { u with dispatched := true }
    if s.isLate t then s.taskRecord t 1 else s

/-- Instance `i` of a task starts on a context, with the state of R368; the context is FREE. -/
def State.startInstance (s : State) (c base d : Nat) (t : Task) (i : Nat) : State :=
  let (aw, s) := s.queueWindows (16 * t.part + t.queue) t.part d
  (s.startCtx c { (s.ctx c).started (wordAt t.tcb 0) t.va base (tcbVcount t.tcb) (tcbRot t.tcb) 0 aw with
    taskid := BitVec.ofNat 64 t.slot, inst := tcbInst t.tcb i }).noteDispatch d t

/-- The context is BOOKED, with its whole slack; its code comes from its buffer half (R113). -/
def Ctx.asBooked (x : Ctx) (bid slack : Nat) : Ctx :=
  { x with run := .booked, bid := some bid, slack := slack, paid := 0, sleep := { x.sleep with book := none }, fetched := []
           fetchMiss := none }

/-- The instance that a task starts next. -/
def Task.nextInst (t : Task) : Nat := (t.yielded.min?).getD t.next

/-- The next instance has been given its place. -/
def Task.started (t : Task) : Task :=
  let i := t.nextInst
  { t with
    next := if t.yielded.isEmpty then t.next + 1 else t.next
    yielded := t.yielded.erase i
    running := t.running ++ [i] }

/-- A task's next instance has been dispatched (R363). -/
def State.noteStarted (s : State) (d seq : Nat) : State :=
  (s.onTaskSeq d seq Task.started).onDisp d fun x => { x with steps := (x.steps + 1) % 2 ^ 48 }

/-- The controller books the start that a dispatcher has found, unless it no longer fits: the dispatcher then queries again in
its next step (R205, R367). -/
def State.bookTask (s : State) (d seq i c base v tick : Nat) : State :=
  let core := coreOf c
  let f := faceOf core
  match s.findTask d seq with
  | none => s
  | some t => match t.plan, (s.face f).freeBid with
    | some p, some b =>
      if t.nextInst = i && s.tick + p.lead ≤ tick && s.halfFree core &&
          (s.face f).admits (p.uses core tick (s.lease core)) p.ratio then
        let (aw, s) := s.queueWindows (16 * t.part + t.queue) t.part d
        ((s.bookPlan f b
          { s.bookingFor p core tick (wordAt t.tcb 0) with
            ctx := some c, part := t.part, task := some (d, seq, i), vbase := base, vcnt := v
            planIa := (wordAt t.tcb 1).toNat }).preload core b (engineReq (domOf core) t.part) (windowSet aw)).noteStarted d seq
      else s
    | _, _ => s

/-- The controller processes the oldest request in its queue. -/
def execAdmission (f : Nat) (s : State) : Host.Outcome State Fault Refusal :=
  match (s.face f).requests with
  | [] => .next s
  | r :: t =>
    let s := s.onFace f fun x => { x with requests := t }
    .next (match r with
      | .book c p ia => s.processBook c p ia
      | .bookSaved c id p => s.answerPending c id (s.savedStatus c p)
      | .calq c id p => s.answerPending c id (s.calqStatus c p)
      | .wswap c t e g => s.answerSwap c t e g
      | .task d seq i c base v tick => s.bookTask d seq i c base v tick
      | .release _ b t k => s.release f b t k
      | .slip _ p => s.then (.slipTest p))

/-- The start tick has come: the task's context becomes BOOKED. -/
def execTaskStart (f bid : Nat) (s : State) : Host.Outcome State Fault Refusal :=
  match Tbl.find (s.face f).bookings bid with
  | none => .next s
  | some b =>
    if b.started || s.cycle < 32 * b.start then .next s
    else
      let s := s.onFace f fun x => { x with bookings := Tbl.put x.bookings bid { b with started := true } }
      .next (match b.ctx, b.task with
        | some c, some (d, seq, i) =>
          match s.findTask d seq with
          | some t => (s.startInstance c b.vbase d t i).onCtx c fun x => x.asBooked bid b.slack
          | none => s
        | some c, none =>
          if b.resume.isSome then s.startRemainder bid b else s.onCtx c fun x => x.asBooked bid b.slack
        | none, _ => s)

/-! ## TICK_START: refresh, passed plans, compaction (R199, R205, R218, R220) -/

/-- The refresh bookings of tick `n` + 8,191: the normal ones follow from `refreshed`, those of double refresh are
listed. -/
def Face.refresh (f : Face) (n : Nat) : Face :=
  let t := n + 8191
  let twice := (List.range 8).filter fun p => f.dblref.getLsbD p && t % 64 == (8 * p + 32) % 64
  { f with
    refreshed := max f.refreshed t
    ctl := (f.ctl.filter fun x => n ≤ x.2) ++ (twice.flatMap wbankRows).map fun r => (r, t) }

/-- Nothing of a face runs under a booking id any more: what its task still has queued is free (R211, R257). -/
def State.forgetBid (s : State) (f b : Nat) : State :=
  let clear (o : Option Nat) : Option Nat := o.filter fun x => x != b
  let s := (List.range 8).foldl (fun s p =>
    if (s.pair (8 * f + p)).queues.any fun q => q.2.any fun o => o.bid == some b then
      s.onPair (8 * f + p) fun x =>
        { x with queues := x.queues.map fun (q, l) => (q, l.map fun o => { o with bid := clear o.bid }) }
    else s) s
  let s := (List.range 4).foldl (fun s e =>
    if (s.engine (4 * f + e)).queue.any fun c => c.bid == some b then
      s.onEngine (4 * f + e) fun y => { y with queue := y.queue.map fun c => { c with bid := clear c.bid } }
    else s) s
  { s with colls := s.colls.map fun (k, c) =>
      (k, { c with members := c.members.map fun m => if faceOf m.core = f then { m with bid := clear m.bid } else m }) }

/-- The ids of plans whose last tick has passed return (R199); their array ticks of the span still count as armed (R222). -/
def State.dropPassed (s : State) (f : Nat) : State :=
  ((s.face f).bookings.filter fun b => !(b.2.rows.any fun u => s.tick < u.first + u.len)).foldl (fun s b =>
    (s.onFace f fun x =>
      { x with bookings := Tbl.del x.bookings b.1, armedPast := x.armedPast ++ b.2.armedIn s.tick }).forgetBid f b.1)
    (s.onFace f fun x => { x with armedPast := x.armedPast.filter fun e => e.2 / 64 == s.tick / 64 })

/-- Insertion by start tick, then core. -/
def insStart (e : Nat × Booking) : List (Nat × Booking) → List (Nat × Booking)
  | [] => [e]
  | h :: t =>
    if h.2.start < e.2.start || (h.2.start == e.2.start && h.2.core ≤ e.2.core) then h :: insStart e t else e :: h :: t

/-- The plans that a compaction step has still to examine, in order. -/
def State.compactList (s : State) (f : Nat) : List (Nat × Booking) :=
  ((s.face f).bookings.filter fun b => s.movable b.2).foldl (fun l b => insStart b l) []

/-- A plan's bookings moved to another start tick. -/
def Booking.moveTo (b : Booking) (t : Nat) : Booking :=
  { b with start := t, rows := b.rows.map fun u => { u with first := u.first + t - b.start } }

/-- The earliest tick from max(n + 2, ready) on to which the plan can move. -/
def State.earlier (s : State) (f bid : Nat) (b : Booking) : Option Nat :=
  let lo := max (s.tick + 2) b.ready
  let x := { s.face f with bookings := Tbl.del (s.face f).bookings bid }
  ((List.range (b.start - lo)).map fun i => lo + i).find? fun t => x.fits (b.moveTo t).rows b.ratio

/-- One plan is examined, and moved where it can. A move frees ticks, so blocked tasks are eligible again (R366). -/
def State.compactOne (s : State) (f bid : Nat) (b : Booking) : State :=
  match s.earlier f bid b with
  | none => s.onFace f fun x => { x with bookings := Tbl.put x.bookings bid { b with examined := true } }
  | some t =>
    (s.onFace f fun x =>
      { x with bookings := Tbl.put x.bookings bid { (b.moveTo t) with examined := true }
               compMoves := (x.compMoves + 1) % 2 ^ 32 }).unblock (f / 4)

/-- The compaction step of a tick: at most four plans (R218). -/
def State.compact (s : State) (f : Nat) : State :=
  if !(s.face f).released then s
  else
    let s := ((s.compactList f).take 4).foldl (fun s (i, b) => s.compactOne f i b) s
    s.onFace f fun x => { x with released := !(s.compactList f).isEmpty }

def execTickStart (f : Nat) (s : State) : Host.Outcome State Fault Refusal :=
  if s.cycle % 32 ≠ 0 then .next s
  else .next (((s.onFace f fun x => x.refresh s.tick).dropPassed f).compact f)

/-! ## Overruns (R112, R211, R395) -/

/-- The last tick of a booking's issue row. -/
def Booking.lastIssue (b : Booking) : Nat :=
  (b.rows.filter fun u => u.row == rowCore b.core).foldl (fun m u => max m (u.first + u.len)) 0

/-- A booked context whose issue ticks are over. -/
def State.issueOver (s : State) (c : Nat) : Bool :=
  (s.ctx c).run == .booked && (match s.bookingOf c with
    | some b => b.lastIssue ≤ s.tick
    | none => true)

/-- A booked task is still issuing after its last core-issue tick. -/
def execIssueend (c : Nat) (s : State) : Host.Outcome State Fault Refusal :=
  if s.issueOver c then .next (s.trapCtx c (kOVERRUN 1 s.tick) 0 (s.ctx c).pc) else .next s

/-- An engine step of a booked task finds no owned start left: it waits, and the task traps at its next bundle, after
which its queued steps are free; those of a task that has ended are free at once. -/
def execUnbooked (c slot row : Nat) (s : State) : Host.Outcome State Fault Refusal :=
  let t := if (s.ctx c).run = .booked then (if slot = 5 then s.stickMx c else s.stickCopies c)
    else s.freeWork c
  .next (if (s.ctx c).run = .booked then t.owe c { code := 0x10, addr := BitVec.ofNat 64 row, slot := slot, issued := s.cycle } else t)

/-! ## Slack and slips (R212 to R215) -/

/-- A wait has found no slack left: the task traps under PAD, and the pair freezes under SLIP. -/
def execSlackExhausted (c : Nat) (s : State) : Host.Outcome State Fault Refusal :=
  let x := s.ctx c
  let p := pairOf (coreOf c)
  if x.run = .booked ∧ x.slack = 0 ∧ x.lateAt = some s.cycle ∧ (s.pair p).freeze = none then
    if (s.bookingOf c).any Booking.slip then
      .next ((s.onPair p fun y => { y with freeze := some { start := s.cycle, c := c, k := 0 } }).askSlip c p)
    else .next (s.trapCtx c (kOVERRUN 3 s.tick) x.heldSlot x.pc)
  else .next s

/-- A run of ticks whose part at tick `t` or later moves by one tick. -/
def RowUse.slipFrom (u : RowUse) (t : Nat) : List RowUse :=
  if u.first + u.len ≤ t then [u]
  else if t ≤ u.first then [{ u with first := u.first + 1 }]
  else [{ u with len := t - u.first }, { u with first := t + 1, len := u.first + u.len - t }]

/-- The tick is FREE or the booking's own. -/
def Face.freeOrOwn (f : Face) (b row t : Nat) : Bool := f.owner row t == .free || f.owner row t == .bid b

/-- Every row of a pair (R215). -/
def pairRows (p : Nat) : List Nat :=
  [rowCore (2 * p), rowCore (2 * p + 1), rowArray p 0, rowArray p 1, rowWRead p, rowWWrite p] ++
    (List.range 32).map (rowBank p)

/-- The test for a slip of one more tick, after `k` that have passed; the freeze began in tick `T`. -/
def State.slipPasses (s : State) (p bid T k : Nat) : Bool :=
  let f := s.face (p / 8)
  match Tbl.find f.bookings bid with
  | none => false
  | some b =>
    (b.rows.all fun u => u.first + u.len ≤ T + k || f.freeOrOwn bid u.row (u.first + u.len)) &&
    (pairRows p).all fun r => (List.range (k + 1)).all fun i => f.freeOrOwn bid r (T + i)

/-- The pair's clock runs again: what has returned meanwhile is written. -/
def State.unfreeze (s : State) (p : Nat) : State := (s.onPair p fun y => { y with freeze := none }).deliverArrived p

/-- The controller tests a slip of one tick more: the bookings move, or the task traps with SLIPFAIL. -/
def execSlipTest (p : Nat) (s : State) : Host.Outcome State Fault Refusal :=
  match (s.pair p).freeze with
  | none => .next s
  | some z =>
    let T := z.start / 32
    if s.cycle ≠ z.start + 32 * z.k then .next s
    else match (s.ctx z.c).run, (s.ctx z.c).bid with
      | .booked, some b =>
        if s.slipPasses p b T z.k then
          .next ((s.onFace (p / 8) fun f =>
            { f with bookings := f.bookings.map fun (i, x) =>
                if i = b then (i, { x with rows := x.rows.flatMap fun u => u.slipFrom (T + z.k), start := x.start + 1 })
                else (i, x) }).onPair p fun y => { y with freeze := some { z with k := z.k + 1 } })
        else
          .next ((s.unfreeze p).trapCtx z.c (kOVERRUN 2 s.tick) (s.ctx z.c).heldSlot (s.ctx z.c).pc)
      | _, _ => .next (s.unfreeze p)

/-- A freeze ends without a trap: it is counted on the face and in the task. -/
def execThaw (p : Nat) (s : State) : Host.Outcome State Fault Refusal :=
  match (s.pair p).freeze with
  | none => .next s
  | some z =>
    if z.k = 0 ∨ s.cycle ≠ z.start + 32 * z.k then .next s
    else
      let s := s.onFace (p / 8) fun f => { f with slips := sat32 f.slips, slipTicks := min (f.slipTicks + z.k) 0xFFFFFFFF }
      let s := s.onTask (s.ctx z.c) fun t => { t with slips := min (t.slips + 1) 15 }
      .next (s.unfreeze p)

/-! ## The weight-layer clock ratio (R221, R224) -/

/-- A change of the pair's ratio is asked for and none is going on. -/
def Face.ratioWanted (f : Face) (p : Nat) : Bool := f.ratioReq.getLsbD p != f.ratio.getLsbD p && !f.ratioPend.getLsbD p

/-- The ticks B and B + 1 of a change asked for in tick `n`: the first that are FREE on both rows, after every booked
weight-bank tick of the pair. -/
def Face.ratioSlot (f : Face) (p n : Nat) : Option Nat :=
  let last := f.bookings.foldl (fun m b =>
    (b.2.rows.filter fun u => (wbankRows p).contains u.row).foldl (fun m u => max m (u.first + u.len)) m) 0
  let lo := max (n + 2) last
  ((List.range (n + 8191 - lo)).map fun i => lo + i).find? fun t =>
    (wbankRows p).all fun r => f.isFree r t && f.isFree r (t + 1)

/-- A change of ratio of pair `p` of face `f` begins: ticks B and B + 1 become CTL. -/
def execWratioChange (f p : Nat) (s : State) : Host.Outcome State Fault Refusal :=
  let x := s.face f
  if !x.ratioWanted p then .next s
  else match x.ratioSlot p s.tick with
    | none => .next s
    | some b =>
      .next (((s.onFace f fun x =>
        { x with ctl := x.ctl ++ (wbankRows p).flatMap fun r => [(r, b), (r, b + 1)]
                 ratioPend := x.ratioPend ||| BitVec.ofNat 8 (2 ^ p)
                 ratioTick := Tbl.put x.ratioTick p b }).unblock (f / 4)).schedule (32 * (b + 1)) (srcCal f)
          (.ratioSwitch f p))

/-- The first cycle of tick B + 1: the ratio changes, and tasks that it kept from fitting are eligible (R366). DEDUCED
(log 125): the change completes, and PEND clears, in this cycle. -/
def execRatioSwitch (f p : Nat) (s : State) : Host.Outcome State Fault Refusal :=
  match Tbl.find (s.face f).ratioTick p with
  | none => .next s
  | some b =>
    if s.cycle < 32 * (b + 1) then .next s
    else .next ((s.onFace f fun x =>
      { x with ratio := x.ratio ^^^ BitVec.ofNat 8 (2 ^ p)
               ratioPend := x.ratioPend &&& ~~~(BitVec.ofNat 8 (2 ^ p))
               ratioTick := Tbl.del x.ratioTick p }).unblock (f / 4))

/-! ## The thermal allowance (R222, R224) -/

/-- The allowance of a pair becomes `v` 64ths, at most 64; if that changes it, blocked tasks are eligible again (R366). -/
def State.setAllow (s : State) (p v : Nat) : State :=
  if min 64 v = (s.face (p / 8)).allow (p % 8) then s
  else (s.onFace (p / 8) fun f =>
    { f with tallow := if 64 ≤ v then Tbl.del f.tallow (p % 8) else Tbl.put f.tallow (p % 8) v }).unblock (p / 32)

def execTallowWrite (p : Nat) (v : Word) (s : State) : Host.Outcome State Fault Refusal :=
  .next (s.setAllow p (min 64 (bitsOf v.toNat 0 7)))

end Sys2Proof.Machine
end

