-- ==== Sys2Proof/Machine/Coll.lean ====
section
/-! DEFINITION. Bit-plane collectives: COLL, PCNT, PWAIT, PCANCEL and PCANCEL.TAG, joining by CID, plane streams and
their landings, cancellation, completion and peer packages (R377 to R401). -/

namespace Sys2Proof.Machine

/-! ## Issue (R382, R389 to R391) -/

/-- The window kinds through which a group descriptor may be read (R382). -/
def collKinds : List Nat := [0, 1]

/-- NMEM of the descriptor as its header holds it when the COLL issues: none where memory does not give it then. -/
def State.issueNmem (s : State) (va : Nat) : Option Nat :=
  match findWindow s.cx.windows va with
  | none => none
  | some w => match (s.readVa s.iss.core (s.winReq (some w)) w va).1 with
    | .ok b => some (bitsOf b.data (8 * (va % 64)) 8)
    | .fail _ => none

/-- The causes of a COLL that its values give (R382). DEDUCED (log 117): the limit NMEM − 1 of ME is that of the header as it
reads at issue, where its NMEM lies in its range; one that breaks it only at the engine's head is BADDESC. -/
def State.collCauses (s : State) (g : BitVec 5) : List Cause :=
  let va := (s.cx.grp g 0).toNat
  let me := (s.cx.grp g 1).toNat
  let where' := orderCauses ((if va % 128 = 0 then [] else [kALIGN va]) ++
    accessCauses s.cx.windows s.ico.staging va [{ va := va, len := 128 }] .read collKinds)
  if 32 ≤ me || 4 ≤ (s.cx.grp g 3).toNat || [4, 5, 6, 7].any fun i => s.cx.grp g i != 0 then [kILLOP]
  else if !where'.isEmpty then where'
  else if (s.issueNmem va).any fun n => 2 ≤ n && n ≤ 32 && n ≤ me then [kILLOP]
  else []

/-- The command of a COLL: its group holds the descriptor's VA, ME and LIMIT, and ENG where a copy's group has it. -/
def State.collMake (s : State) (t : BitVec 6) (g : BitVec 5) (op : Nat) : CopyCmd :=
  let x := s.cx
  { s.copyMake .coll t g op with
    group := [x.grp g 0, x.grp g 1, x.grp g 2, x.grp g 3, BitVec.ofNat 64 ((x.grp g 3).toNat % 4 * 2 ^ 52), 0, 0, 0] }

def execColl (p : BitVec 4) (t : BitVec 6) (g : BitVec 5) (o : BitVec 2) (s : State) : Host.Outcome State Fault Refusal :=
  let c := s.collMake t g o.toNat
  slotOp (.coll p t g o) (some p) { rs := groupRegs g } false (State.copyWait c) (fun s => s.collCauses g)
    (fun s => s.enqueueCopy c) s

/-- A precision counter of a pair (R388). -/
def Pair.counter (p : Pair) (n : Nat) : Counter := Tbl.look p.counters n {}

/-- A counter as PCNT reads it (R388). -/
def Counter.word (c : Counter) : Word :=
  BitVec.ofNat 64 (c.planes + c.qt * 2 ^ 8 + c.armed.toNat * 2 ^ 12 + c.cancelled.toNat * 2 ^ 13 + c.error.toNat * 2 ^ 14 +
    c.done.toNat * 2 ^ 15 + c.core * 2 ^ 17 + c.tag * 2 ^ 18)

/-- ACCESS of a counter number above 255. -/
def counterCauses (v : Word) : List Cause := if v.toNat ≤ 255 then [] else [kACCESS v.toNat]

def execPcnt (p : BitVec 4) (d a : BitVec 5) (s : State) : Host.Outcome State Fault Refusal :=
  slotOp (.pcnt p d a) (some p) { rs := [a], ws := [d], lat := 3 } false noWait (fun s => counterCauses (s.cx.sreg a))
    (fun s => s.resultS 3 d ((s.pair s.ipair).counter (s.cx.sreg a).toNat).word) s

/-- PWAIT still holds on its counter (R390): with q 0 it passes at once, since PLANES ≥ 0. -/
def Counter.holds (c : Counter) (q : Nat) : Bool :=
  !(c.cancelled || c.error || c.done || decide (q ≤ c.planes) || (q == 0 && c.armed))

def execPwait (n : BitVec 4) (a : BitVec 5) (q : BitVec 4) (s : State) : Host.Outcome State Fault Refusal :=
  ctOp (.pwait n a q) n { rs := [a] } false
    (waitIf true fun s => (s.cx.sreg a).toNat ≤ 255 && ((s.pair s.ipair).counter (s.cx.sreg a).toNat).holds q.toNat)
    (fun s => counterCauses (s.cx.sreg a)) id s

/-- The pair's cancel queue is full (R391). -/
def State.cancelFull (s : State) : Bool := 8 ≤ (s.pair s.ipair).cancelQ.length

def State.pushCancel (s : State) (e : CancelEntry) : State :=
  s.onPair s.ipair fun p => { p with cancelQ := p.cancelQ ++ [e] }

def execPcancel (p : BitVec 4) (a : BitVec 5) (s : State) : Host.Outcome State Fault Refusal :=
  slotOp (.pcancel p a) (some p) { rs := [a] } false (waitIf true State.cancelFull)
    (fun s => counterCauses (s.cx.sreg a)) (fun s => s.pushCancel (.tile (s.cx.sreg a).toNat)) s

def execPcancelTag (p : BitVec 4) (t : BitVec 6) (s : State) : Host.Outcome State Fault Refusal :=
  slotOp (.pcancelTag p t) (some p) {} false (waitIf true State.cancelFull) noCause
    (fun s => s.pushCancel (.tag s.iss.core t.toNat)) s

/-! ## The tiles of a collective (R381) -/

def Coll.nmem (c : Coll) : Nat := c.members.length
def Coll.member (c : Coll) (m : Nat) : Member := c.members.getD m {}
def Coll.onMember (c : Coll) (m : Nat) (f : Member → Member) : Coll :=
  { c with members := c.members.zipIdx.map fun (x, i) => if i = m then f x else x }

/-- Tiles that member `m` sends and receives, by OP, ROOT, NMEM and NT. -/
def sendTiles (op root nmem nt m : Nat) : Nat :=
  match op with
  | 1 => if m = root then nt else 0
  | 3 => if m = root then nmem * nt else 0
  | _ => nt
def recvTiles (op root nmem nt m : Nat) : Nat :=
  match op with
  | 2 => if m = root then nmem * nt else 0
  | _ => nt

def Coll.sends (c : Coll) (m : Nat) : Nat := sendTiles c.op c.root c.nmem c.nt m
def Coll.receives (c : Coll) (m : Nat) : Nat := recvTiles c.op c.root c.nmem c.nt m

/-- The members and send tiles that contribute to receive tile `t` of member `m`. -/
def Coll.sources (c : Coll) (m t : Nat) : List (Nat × Nat) :=
  match c.op with
  | 0 => (List.range c.nmem).map fun j => (j, t)
  | 1 => [(c.root, t)]
  | 2 => [(t / c.nt, t % c.nt)]
  | _ => [(c.root, m * c.nt + t)]

/-- The members and receive tiles that send tile `t` of member `m` reaches. -/
def Coll.sinks (c : Coll) (m t : Nat) : List (Nat × Nat) :=
  match c.op with
  | 0 => (List.range c.nmem).map fun j => (j, t)
  | 1 => (List.range c.nmem).map fun j => (j, t)
  | 2 => [(c.root, m * c.nt + t)]
  | _ => [(t / c.nt, t % c.nt)]

def Coll.tile? (c : Coll) (m t : Nat) : Option RTile := c.tiles.find? fun r => r.m == m && r.t == t
def Coll.onTile (c : Coll) (m t : Nat) (f : RTile → RTile) : Coll :=
  { c with tiles := c.tiles.map fun r => if r.m = m ∧ r.t = t then f r else r }

/-- Every member has joined. -/
def Coll.complete (c : Coll) : Bool := c.members.all Member.joined

/-- The collective has ended early (R384, R400). -/
def Coll.lost (c : Coll) : Bool := c.absent || c.peerlost

/-- Send tile `t` of member `m` is wanted: some receiver has not cancelled it (R394). -/
def Coll.wanted (c : Coll) (m t : Nat) : Bool :=
  !c.cancel && (c.sinks m t).any fun r => !((c.tile? r.1 r.2).any fun x => x.cancelled || x.asked)

/-- A plane of a send tile as sent. -/
def Coll.plane? (c : Coll) (m t i : Nat) : Option (List Byte) :=
  (c.sent.find? fun e => e.1 == m && e.2.1 == t && e.2.2.1 == i).map fun e => e.2.2.2

/-! ## Joining (R383, R384) -/

/-- The number of a collective: its partition and CID. -/
def collKey (part cid : Nat) : Nat := part * 2 ^ 48 + cid

/-- A member's entry of a descriptor, from its four words (R380). -/
def memberOf (ws : List Word) : Member :=
  let w := (wordAt ws 0).toNat
  { peer := bitsOf w 8 8, pair := bitsOf w 0 8, cbase := bitsOf w 16 8, lrow := bitsOf w 24 3, loff := bitsOf w 28 16
    pticks := bitsOf w 44 8, sbuf := (wordAt ws 1).toNat, rbuf := (wordAt ws 2).toNat }

/-- A descriptor as read: header words, CID and entries. -/
structure Desc where
  head : List Word
  ents : List (List Word)
  deriving DecidableEq, Repr

def Desc.w0 (d : Desc) : Nat := (wordAt d.head 0).toNat
def Desc.nmem (d : Desc) : Nat := bitsOf d.w0 0 8
def Desc.op (d : Desc) : Nat := bitsOf d.w0 8 2
def Desc.q (d : Desc) : Nat := bitsOf d.w0 10 4
def Desc.uns (d : Desc) : Bool := d.w0.testBit 14
def Desc.nt (d : Desc) : Nat := bitsOf d.w0 16 16
def Desc.root (d : Desc) : Nat := bitsOf d.w0 32 5
def Desc.cid (d : Desc) : Nat := bitsOf (wordAt d.head 1).toNat 0 48
def Desc.members (d : Desc) : List Member := d.ents.map memberOf

/-- The header keeps its ranges and its RSVD bits are zero (R379). -/
def Desc.headOk (d : Desc) : Bool :=
  bitsOf d.w0 37 27 == 0 && !d.w0.testBit 15 && 2 ≤ d.nmem && d.nmem ≤ 32 && 1 ≤ d.q && d.q ≤ 8 && 1 ≤ d.nt &&
    d.nt ≤ 256 && (if d.op = 0 then d.root == 0 else decide (d.root < d.nmem)) &&
    bitsOf (wordAt d.head 1).toNat 48 16 == 0 && (d.head.drop 2).all fun w => w == 0

/-- A buffer of a local member lies in its pair's scratchpad (R380). -/
def bufferOk (ia pair n : Nat) : Bool :=
  ia / 2 ^ 21 == 0xA * 2 ^ 27 + pair && ia % 1024 == 0 && ia % 2 ^ 21 + n ≤ 2 ^ 21

/-- An entry's ranges and RSVD bits, and for a member of this package its pair, buffers and counters (R380, R381). -/
def State.entryOk (s : State) (part : Nat) (d : Desc) (i : Nat) (ws : List Word) : Bool :=
  let w := (wordAt ws 0).toNat
  let x := memberOf ws
  let rx := recvTiles d.op d.root d.nmem d.nt i
  bitsOf w 52 12 == 0 && !w.testBit 27 && wordAt ws 3 == 0 && x.lrow ≤ 4 && x.cbase + rx ≤ 256 &&
    (if x.peer = 0 then
      s.owns part (x.pair / 8) && bufferOk x.sbuf x.pair (1024 * sendTiles d.op d.root d.nmem d.nt i) &&
        bufferOk x.rbuf x.pair (4096 * rx)
    else (Tbl.look (s.part part).peers x.peer 0).getLsbD 63)

/-- The counter is still in use. -/
def Counter.inUse (c : Counter) : Bool := c.armed && !(c.done || c.cancelled || c.error)

/-- The descriptor is not BADDESC for this command (R383); an ME that NMEM no longer covers is BADDESC (DEDUCED, log 117). -/
def State.groupDescOk (s : State) (c : CopyCmd) (d : Desc) : Bool :=
  let me := (c.g 1).toNat
  let x := d.members.getD me {}
  d.headOk && d.op == c.xop && me < d.nmem && d.ents.length == d.nmem &&
    (d.ents.zipIdx.all fun (ws, i) => s.entryOk c.part d i ws) && x.peer == 0 && x.pair == pairOf c.core &&
    ((s.copyBid c).isNone || x.pticks != 0) &&
    (List.range (recvTiles d.op d.root d.nmem d.nt me)).all fun t =>
      !((s.pair x.pair).counter (x.cbase + t)).inUse

/-- The words at a VA through the window that the command's descriptor found: none where the window does not hold them;
a refusal of memory gives its status. -/
def State.descWords (s : State) (c : CopyCmd) (va n : Nat) : Except Nat (List Word) × State :=
  match c.win true with
  | none => (.error 0x0A, s)
  | some w =>
    if n ≠ 0 ∧ (!w.permits .read || (({ va := va, len := 8 * n } : Span).cells 16).any fun z =>
        w.badByte (w.toIa (c.g 0).toNat) z.va) then (.error 0x0A, s)
    else match s.readBytes (s.copyReq c true) (c.ia true va) (8 * n) with
      | (.ok bs, s) => (.ok (wordsOf n bs), s)
      | (.error code, s) => (.error (copyFault code), s)

/-- `n` words in groups of four. -/
def groups4 : Nat → List Word → List (List Word)
  | 0, _ => []
  | n + 1, ws => ws.take 4 :: groups4 n (ws.drop 4)

/-- The descriptor of a command. -/
def State.readDesc (s : State) (c : CopyCmd) : Except Nat Desc × State :=
  let va := (c.g 0).toNat
  match s.descWords c va 16 with
  | (.error st, s) => (.error st, s)
  | (.ok h, s) =>
    let n := bitsOf (wordAt h 0).toNat 0 8
    match s.descWords c ((va + 128) % 2 ^ 64) (4 * n) with
    | (.error st, s) => (.error st, s)
    | (.ok e, s) => (.ok { head := h, ents := groups4 n e }, s)

/-- The collective that the first member to join fixes. -/
def collOf (part : Nat) (d : Desc) : Coll :=
  { part := part, op := d.op, q := d.q, uns := d.uns, nt := d.nt, root := d.root, hdr := wordAt d.head 0, members := d.members }

/-- The entry of a member that joins, with the COLL that it joins by. -/
def memberJoin (x : Member) (c : CopyCmd) (e : Nat) (bid : Option Nat) : Member :=
  { x with joined := true, core := c.core, ctx := c.ctx, tag := c.tag, eng := e, cmd := c.id, limit := c.g 2, bid := bid }

/-- A later collective has armed these counters of a pair. -/
def State.disown (s : State) (pair lo n : Nat) : State :=
  { s with colls := s.colls.map fun (k, c) =>
      (k, { c with tiles := c.tiles.map fun r =>
        let x := c.member r.m
        if x.peer = 0 ∧ x.pair = pair ∧ lo ≤ x.cbase + r.t ∧ x.cbase + r.t < lo + n then { r with owns := false } else r }) }

/-- The receive tiles of a member that joins become zero with coat 0x0006, and its counters are armed (R384, R388). -/
def State.armTiles (s : State) (x : Member) (n q : Nat) : State :=
  let s := (List.range (64 * n)).foldl (fun s i => s.putBlock (scratchPlace x.pair (x.rbuf % 2 ^ 21 + 64 * i))
    { data := 0, coat := 0x0006 }) s
  s.onPair x.pair fun p =>
    { p with counters := (List.range n).foldl (fun t i =>
        Tbl.put t (x.cbase + i) { tag := x.tag, core := x.core % 2, armed := true, qt := q }) p.counters }

/-- A tile is cancelled at its receiver: at once, or when the landing in progress ends (R392). -/
def RTile.cancel (r : RTile) : RTile := if r.busy.isSome then { r with asked := true } else { r with cancelled := true }

/-- The tile has not ended (R392, R396). -/
def RTile.going (r : RTile) (q : Nat) : Bool := r.planes < q && !r.cancelled && !r.failed && !r.mixed && !r.asked

/-- The counter of a receive tile of this package is changed, while it is the tile's. -/
def State.onCounter (s : State) (c : Coll) (r : RTile) (f : Counter → Counter) : State :=
  let x := c.member r.m
  if x.peer = 0 ∧ r.owns then
    s.onPair x.pair fun p => { p with counters := Tbl.put p.counters (x.cbase + r.t) (f (p.counter (x.cbase + r.t))) }
  else s

/-- Receive tiles of a collective are cancelled. -/
def State.cancelTiles (s : State) (k : Nat) (p : RTile → Bool) : State :=
  match s.coll? k with
  | none => s
  | some c =>
    let hit (r : RTile) : Bool := p r && r.going c.q
    let s := s.setColl k { c with tiles := c.tiles.map fun r => if hit r then r.cancel else r }
    (c.tiles.filter fun r => hit r && r.busy.isNone).foldl (fun s r =>
      s.onCounter c r fun z => { z with cancelled := true }) s

/-- The senders of a collective learn of a cancel within 256 cycles (R394). -/
def State.tellSenders (s : State) (k : Nat) : State :=
  match s.coll? k with
  | none => s
  | some c => c.members.zipIdx.foldl (fun s (x, m) =>
      if x.peer = 0 ∧ c.sends m ≠ 0 then
        (s.schedule (s.cycle + 1 + Config.reachTime s.fresh % 255) (srcCopy x.eng) (.senderStop k m)).bump
      else s) s

/-- The whole collective is cancelled (R393). -/
def State.cancelColl (s : State) (k : Nat) : State :=
  match s.coll? k with
  | none => s
  | some c => ((s.setColl k { c with cancel := true }).cancelTiles k fun _ => true).tellSenders k

/-- JOB of an entry of a partition's peer table (R398). -/
def State.peerJob (s : State) (part peer : Nat) : Nat := bitsOf (Tbl.look (s.part part).peers peer 0).toNat 32 16

/-- Where messages of a JOB are kept for a collective that no member of this package has joined, or that is another job's: the
traffic of different jobs is kept apart (R447). -/
def jobKey (k job : Nat) : Nat := (job + 1) * 2 ^ 52 + k

/-- The JOB of each member of a descriptor that is in another package (R398). -/
def State.descJobs (s : State) (part : Nat) (d : Desc) : List Nat :=
  ((d.members.filter fun x => x.peer != 0).map fun x => s.peerJob part x.peer).eraseDups

/-- What members in other packages have sent of a descriptor's collective before any member of this package joined it. -/
def State.early (s : State) (part : Nat) (d : Desc) : List Coll :=
  (s.descJobs part d).filterMap fun j => s.coll? (jobKey (collKey part d.cid) j)

/-- The collective that a descriptor's member joins: the one joined here, or begun by a peer's join, or none (R384). -/
def State.begun (s : State) (part : Nat) (d : Desc) : Option Coll :=
  (s.coll? (collKey part d.cid)).orElse fun _ => (s.early part d).head?

/-- A collective takes over the joins, cancels and ends that came for it before. `job` gives the JOB of each member's entry. -/
def Coll.adopt (c : Coll) (job : Nat → Option Nat) (p : Coll) : Coll :=
  if p.hdr ≠ c.hdr then c
  else
    { c with
      members := c.members.zipIdx.map fun (x, i) =>
        let y := p.member i
        if !x.joined && y.joined && y.job == job i then { x with joined := true, job := y.job, ended := y.ended } else x
      cancel := c.cancel || p.cancel
      tiles := c.tiles ++ p.tiles.filter fun r => (p.member r.m).job == job r.m }

/-- Every unfinished tile ends in error; a landing that is being written ends first (R384, R400). -/
def State.failTiles (s : State) (c : Coll) : State :=
  (c.tiles.filter fun r => r.planes < c.q && !r.cancelled && r.wrote == 0).foldl (fun s r =>
    s.onCounter c r fun z => { z with error := true }) s

/-- Every tile that has not finished has failed. -/
def Coll.failed (c : Coll) : Coll :=
  { c with tiles := c.tiles.map fun r =>
      if r.planes < c.q ∧ !r.cancelled ∧ r.wrote = 0 then { r with failed := true, busy := none } else r }

/-- A member of this package has joined: where the collective has ended early its tiles fail too (R384, R400), and where a cancel has
come before, its senders hear of it (R394). -/
def State.afterJoin (s : State) (k : Nat) : State :=
  match s.coll? k with
  | none => s
  | some c =>
    let s := if c.lost then (s.failTiles c).setColl k c.failed else s
    if c.tiles.any fun r => r.cancelled || r.asked then s.tellSenders k else s

/-- A member joins. -/
def State.join (s : State) (e : Nat) (c : CopyCmd) (d : Desc) : State :=
  let me := (c.g 1).toNat
  let k := collKey c.part d.cid
  let bid := s.copyBid c
  let early := s.early c.part d
  let old := (s.coll? k).getD (collOf c.part d)
  let x := memberJoin (d.members.getD me {}) c e bid
  -- entries of members that have not joined are taken from the newest descriptor
  -- a remote member's join counts with the JOB of its entry in the peer table (R447)
  let remote (y z : Member) : Member :=
    if y.job.any fun j => z.peer != 0 && j == s.peerJob c.part z.peer then { y with peer := z.peer } else z
  let members := (old.members.zip d.members).zipIdx.map fun (y, i) =>
    if i = me then x else if y.1.joined then (if y.1.job.isSome then remote y.1 y.2 else y.1) else y.2
  let n := recvTiles d.op d.root d.nmem d.nt me
  let jobAt (i : Nat) : Option Nat :=
    (d.members[i]?).bind fun z => if z.peer = 0 then none else some (s.peerJob c.part z.peer)
  let new := early.foldl (fun (y : Coll) p => y.adopt jobAt p)
    { old with members := members, tiles := old.tiles ++ (List.range n).map fun t => { m := me, t := t } }
  let s := { s with colls := (s.descJobs c.part d).foldl (fun l j => Tbl.del l (jobKey k j)) s.colls }
  let s := (((s.disown x.pair x.cbase n).setColl k new).armTiles x n d.q).afterJoin k
  let s := s.onCopy e c.id fun z => { z with joined := true, started := true }
  let s := if x.limit = 0 then s else s.schedule (max s.cycle (limitCycle x.limit)) srcFabric (.collAbsent k)
  if c.cancelled || new.cancel then s.cancelColl k else s

/-- The COLL that an engine could let join in this cycle. -/
def State.joinReady (s : State) (e : Nat) : Option CopyCmd :=
  match s.copyClass e with
  | none => none
  | some k => (s.copyHead e k).filter fun c => c.kind == .coll && s.earlierDone c

/-- A COLL at its engine's head reads its descriptor: it joins, or completes alone with BADDESC. -/
def execCollJoin (e id : Nat) (s : State) : Host.Outcome State Fault Refusal :=
  match (s.joinReady e).filter fun c => c.id == id with
  | none => .next s
  | some c =>
    match s.readDesc c with
    | (.error st, s) => .next (s.finishCopy e c st)
    | (.ok d, s) =>
      let same := match s.begun c.part d with
        | none => true
        | some k => k.hdr == wordAt d.head 0 && !(k.member (c.g 1).toNat).joined
      .next (if s.groupDescOk c d && same then s.join e c d else s.finishCopy e c 0x0A)

/-- A LIMIT has passed before every member has joined: the earliest governs. -/
def execCollAbsent (k : Nat) (s : State) : Host.Outcome State Fault Refusal :=
  match s.coll? k with
  | none => .next s
  | some c =>
    if c.complete || c.lost || !(c.members.any fun x => x.joined && x.limit != 0 && x.limit.toNat ≤ s.gtc) then .next s
    else .next ((s.failTiles c).setColl k { c.failed with absent := true })

/-! ## Sending (R385, R387, R394, R395) -/

/-- Byte `i` of the bits of plane `j` of a tile of 1,024 bytes: bit `b` is bit j of element 8i + b (R73). -/
def planeByte (bs : List Nat) (j i : Nat) : Byte :=
  BitVec.ofNat 8 (packCodes 1 ((List.range 8).map fun b => bs.getD (8 * i + b) 0 / 2 ^ j))

/-- The sixteen blocks of send tile `t`. -/
def State.sendBlocks (s : State) (x : Member) (t : Nat) : List BlockVal :=
  (List.range 16).map fun r => s.blockAt (scratchPlace x.pair (x.sbuf % 2 ^ 21 + 1024 * t + 64 * r))

/-- Scale and poisoned blocks of a send tile (R387). -/
def tileScale (uns : Bool) (bs : List BlockVal) : Byte × List Nat :=
  let want := if uns then 0x09 else 0x08
  let live := bs.filter fun b => !coatPoison b.coat && !coatZero b.coat && coatCode b.coat == want
  let e : Byte := ((live.head?).map fun b => BitVec.ofInt 8 (coatE b.coat)).getD 0
  (e, (bs.zipIdx.filter fun (b, _) => coatPoison b.coat ||
    (!coatZero b.coat && (coatCode b.coat != want || BitVec.ofInt 8 (coatE b.coat) != e))).map Prod.snd)

/-- The blocks of a send tile that contribute zeros: zero blocks and poisoned ones (R387). -/
def silentBlocks (bs : List BlockVal) (poisoned : List Nat) : List Nat :=
  (List.range bs.length).filter fun r => poisoned.contains r || (bs[r]?).any fun b => coatZero b.coat

/-- Elements of a send tile as they contribute. -/
def tileElems (bs : List BlockVal) (silent : List Nat) : List Nat :=
  bs.zipIdx.flatMap fun (b, r) => (List.range 64).map fun k => if silent.contains r then 0 else bitsOf b.data (8 * k) 8

/-- Flits that a link row carries in a tick (R377). -/
def tickFlits : Nat := 272

/-- Cycles that a step of `n` flits takes. -/
def stepCycles (n : Nat) : Nat := max 1 (ceilDiv (32 * n) tickFlits)

/-- The booking under which a member sends: none once its task's bookings have ended (R395). -/
def State.memberBid (s : State) (x : Member) : Option Nat := x.bid.filter (s.holdsBid (4 * x.core + x.ctx))

/-- First tick of plane `i` of a booked member, counted from its plan's start tick. -/
def State.planeTick (s : State) (x : Member) (b i : Nat) : Nat :=
  ((Tbl.find (s.face (x.pair / 8)).bookings b).map Booking.start).getD 0 + x.loff + i * x.pticks

/-- A member of this package that has planes to send. -/
def Coll.sending (c : Coll) (m : Nat) : Bool :=
  let x := c.member m
  c.complete && !c.lost && x.peer == 0 && c.sends m != 0 && x.planes < c.q && !(x.stopped && x.flits == 0)

/-- The send tiles of the plane that is being sent, or that is next. -/
def Coll.nextTiles (c : Coll) (m : Nat) : List Nat :=
  let x := c.member m
  if x.flits = 0 then (List.range (c.sends m)).filter fun t => !x.heard.contains t else x.going

/-- What a sender can do in this cycle. -/
inductive SendStep where
  | wait
  /-- a link step of so many flits -/
  | go (flits : Nat)
  /-- its ticks are not its own, or too few: the row -/
  | overrun (row : Nat)
  deriving DecidableEq, Repr

/-- Flits of a link step that starts in this cycle: it carries flits of one tick, so no more than the rest of the tick has time for.
A step whose row is not FREE, or is full, thus waits for the row's next FREE tick (R210, R377). -/
def State.stepFlits (s : State) (f row : Nat) : Nat := min (s.flitsLeft f row) (tickFlits * (32 - s.cycle % 32) / 32)

/-- The link step that a sender could start now (R210, R395). -/
def State.sendStep (s : State) (c : Coll) (m : Nat) : SendStep :=
  let x := c.member m
  let f := s.face (x.pair / 8)
  let row := rowLink x.lrow
  let left := 2 * (c.nextTiles m).length - x.flits
  let n := min left (s.stepFlits (x.pair / 8) row)
  if !(c.sending m) || s.cycle < x.next || left == 0 then .wait
  else match s.memberBid x with
    | some b =>
      let t0 := s.planeTick x b x.planes
      let now := max t0 s.tick
      if s.tick < t0 then .wait
      else if t0 + x.pticks - now < ceilDiv left tickFlits ||
          !((List.range (t0 + x.pticks - now)).all fun i => f.owner row (now + i) == .bid b) then .overrun row
      else if n = 0 then .wait
      else .go n
    | none => if n ≠ 0 && f.freeCycles row s.cycle (s.cycle + stepCycles n - 1) then .go n else .wait

/-- The sender reads its tiles for a plane: coats for the first one, and the plane's bits (R387). -/
def State.readPlane (s : State) (c : Coll) (m : Nat) (tiles : List Nat) : Coll :=
  let x := c.member m
  tiles.foldl (fun c t =>
    let bs := s.sendBlocks x t
    let y := c.member m
    let sc := (y.scales.find? fun e => e.1 == t).getD ((t, tileScale c.uns bs) : Nat × Byte × List Nat)
    let silent := ((y.silent.find? fun e => e.1 == t).map Prod.snd).getD (silentBlocks bs sc.2.2)
    let es := tileElems bs silent
    let c := if y.scales.any fun e => e.1 == t then c
      else c.onMember m fun z => { z with scales := z.scales ++ [sc], silent := z.silent ++ [(t, silent)] }
    { c with sent := c.sent ++ [(m, t, x.planes, (List.range 128).map (planeByte es (7 - x.planes)))] }) c

/-- Plane `i` of every contributor to a receive tile has been sent in full, or delivered. -/
def Coll.gathered (c : Coll) (m t i : Nat) : Bool :=
  (c.sources m t).all fun (j, u) => (c.plane? j u i).isSome && ((c.member j).peer != 0 || i < (c.member j).planes)

/-- The landings of plane `i` that the tiles of one sender make possible are on their way. -/
def State.sendLandings (s : State) (k : Nat) (c : Coll) (m i : Nat) (tiles : List Nat) : State :=
  (tiles.flatMap (c.sinks m)).foldl (fun s (r, t) =>
    let x := c.member r
    if x.peer = 0 ∧ c.gathered r t i then
      (s.schedule (s.cycle + 1 + Config.planeTime s.fresh) srcFabric (.planeLanding k r t (7 - i))).bump
    else s) s

/-- One link step of a sender: the plane's bits are read with its first, and its landings follow its last. -/
def execPlaneSend (k m : Nat) (s : State) : Host.Outcome State Fault Refusal :=
  match s.coll? k with
  | none => .next s
  | some c =>
    let x := c.member m
    match s.sendStep c m with
    | .wait => .next s
    | .overrun row =>
      let s := s.setColl k (c.onMember m fun z => { z with bid := none })
      .next (if (s.ctx (4 * x.core + x.ctx)).run = .booked then
          s.owe (4 * x.core + x.ctx) { code := 0x10, addr := BitVec.ofNat 64 row, slot := 6 }
        else s)
    | .go n =>
      let tiles := c.nextTiles m
      let c := if x.flits = 0 then s.readPlane c m tiles else c
      let last := 2 * tiles.length ≤ x.flits + n
      let next := if (s.memberBid x).isSome then 32 * (s.tick + 1) else s.cycle + stepCycles n
      let c := c.onMember m fun z =>
        if last then { z with planes := z.planes + 1, flits := 0, going := [], next := next }
        else { z with flits := z.flits + n, going := tiles, next := next }
      let s := (s.setColl k c).sendFlits (x.pair / 8) (rowLink x.lrow) n 0
      .next (if last then s.sendLandings k c m x.planes tiles else s)

/-- The booked ticks of planes not started are released, but for those of HOLD entries (R394). -/
def RowUse.without (u : RowUse) (row lo hi : Nat) : List RowUse :=
  if u.row ≠ row ∨ u.hold ∨ u.first + u.len ≤ lo ∨ hi ≤ u.first then [u]
  else (if u.first < lo then [{ u with len := lo - u.first }] else []) ++
    (if hi < u.first + u.len then [{ u with first := hi, len := u.first + u.len - hi }] else [])

def State.freePlanes (s : State) (c : Coll) (m : Nat) : State :=
  let x := c.member m
  match s.memberBid x with
  | none => s
  | some b =>
    let i := x.planes + (if x.flits = 0 then 0 else 1)
    let lo := max (s.tick + 1) (s.planeTick x b i)
    let hi := s.planeTick x b c.q
    let cut := fun (y : Booking) => { y with rows := y.rows.flatMap fun u => u.without (rowLink x.lrow) lo hi }
    let free := fun (f : Face) =>
      Face.noteRelease { f with bookings := f.bookings.map fun (n, y) => if n = b then (n, cut y) else (n, y) }
    if (Tbl.find (s.face (x.pair / 8)).bookings b).any fun y => (cut y).rows != y.rows then
      (s.onFace (x.pair / 8) free).unblock (x.pair / 32)
    else s

/-- Nothing that a sender has left is wanted. -/
def Coll.stops (c : Coll) (m : Nat) : Bool :=
  (c.member m).peer == 0 && !(c.member m).stopped && (c.member m).planes < c.q &&
    (List.range (c.sends m)).all fun t => !c.wanted m t

/-- A cancel has reached a sender: it starts no further plane of the tiles that no receiver wants, and one that has no other
tile stops (R394). -/
def execSenderStop (k m : Nat) (s : State) : Host.Outcome State Fault Refusal :=
  match s.coll? k with
  | none => .next s
  | some c =>
    let hears (z : Member) : Member := { z with heard := (List.range (c.sends m)).filter fun t => !c.wanted m t }
    if c.stops m then .next ((s.freePlanes c m).setColl k (c.onMember m fun z => { hears z with stopped := true }))
    else .next (s.setColl k (c.onMember m hears))

/-! ## Landing (R378, R385 to R388) -/

/-- Cells that a landing writes before its tick ends: one of 128 bytes in each cycle (R170, R378, R385). -/
def State.cellsNow (s : State) (r : RTile) : Nat := min (32 - r.wrote) (32 - s.cycle % 32)

/-- The banks in which cells `w` to `w + n - 1` of receive tile `t` lie: each with its first cycle from now and its cycles. -/
def cellBanks (x : Member) (t w n : Nat) : List (Nat × Nat × Nat) :=
  let o := x.rbuf % 2 ^ 21 + 4096 * t
  let split := min 4096 (65536 - o % 65536) / 128
  let a := min (w + n) split - min w split
  (if a = 0 then [] else [(o / 65536, 0, a)]) ++ if n = a then [] else [((o + 4095) / 65536, a, n - a)]

/-- The banks that the landing's next writes need. -/
def State.landingBanks (s : State) (x : Member) (r : RTile) : List (Nat × Nat × Nat) := cellBanks x r.t r.wrote (s.cellsNow r)

/-- The banks take the member's writes in this tick: FREE, or booked to its own task (R378). -/
def State.banksTake (s : State) (x : Member) (r : RTile) : Bool :=
  (s.landingBanks x r).all fun b => match (s.face (x.pair / 8)).owner (rowBank x.pair b.1) s.tick with
    | .free => true
    | .ctl => false
    | .bid b => s.memberBid x == some b

/-- The weight of the i-th plane sent (R386). -/
def planeWeight (uns : Bool) (i : Nat) : Int := if i = 0 ∧ !uns then -128 else 2 ^ (7 - i)

/-- Contributors whose bit of element `e` is 1. -/
def countBits (ps : List (List Byte)) (e : Nat) : Nat := (ps.filter fun p => (p.getD (e / 8) 0).getLsbD (e % 8)).length

/-- A block of a receive tile with a plane's contributions added. -/
def landBlock (ps : List (List Byte)) (w : Int) (b : Nat) (old coat : Nat) : BlockVal :=
  { data := packCodes 32 ((List.range 16).map fun i =>
      ((bitsOf old (32 * i) 32 + w * countBits ps (16 * b + i)) % 2 ^ 32).toNat)
    coat := BitVec.ofNat 16 coat }

/-- The tile's scale, whether the scales of its contributors disagree, and its poisoned rows. -/
def Coll.tileInfo (c : Coll) (m t : Nat) : Byte × Bool × List Nat :=
  let l := (c.sources m t).filterMap fun (j, u) => (c.member j).scales.find? fun e => e.1 == u
  let e : Byte := ((l.head?).map fun x => x.2.1).getD 0
  (e, l.any fun x => x.2.1 != e, (l.flatMap fun x => x.2.2).eraseDups)

/-- A plane's contribution goes into the blocks of its next cells, which no other access reaches until their banks are free again
(R171, R378, R385). -/
def State.writeCells (s : State) (c : Coll) (r : RTile) : State :=
  let x := c.member r.m
  let i := r.planes
  let (e, mixed, bad) := c.tileInfo r.m r.t
  let ps := (c.sources r.m r.t).filterMap fun (j, u) => c.plane? j u i
  let place (b : Nat) : Nat := scratchPlace x.pair (x.rbuf % 2 ^ 21 + 4096 * r.t + 64 * b)
  ((List.range (2 * s.cellsNow r)).map (2 * r.wrote + ·)).foldl (fun s b =>
    s.putBlock (place b) (landBlock ps (planeWeight c.uns i) b (s.blockAt (place b)).data
      (if mixed || bad.contains (b / 4) then 0x00FF else e.toNat * 256 + 0x06))) s

/-- A plane has landed in every block of its tile: the counter advances. With the collective ended early, a tile that has planes
left fails. -/
def State.endLanding (s : State) (k : Nat) (c : Coll) (r : RTile) : State :=
  let i := r.planes
  let (_, mixed, bad) := c.tileInfo r.m r.t
  let fails := c.lost && decide (i + 1 < c.q)
  let r' := { r with planes := i + 1, busy := none, wrote := 0, asked := false, cancelled := r.asked, failed := fails
                     mixed := mixed, poisoned := bad }
  let s := s.onCounter c r fun z =>
    { z with planes := i + 1, done := z.done || c.q ≤ i + 1, error := z.error || mixed || fails
             cancelled := z.cancelled || r'.cancelled }
  let s := s.setColl k (c.onTile r.m r.t fun _ => r')
  if r'.cancelled || !(r.came.contains (i + 1)) then s
  else s.schedule (s.cycle + 1) srcFabric (.planeLanding k r.m r.t (7 - (i + 1)))

/-- A landing's writes of this tick may begin in this cycle: the banks are the member's and no other unit has them (R172, R378). -/
def State.landingMay (s : State) (x : Member) (r : RTile) : Bool :=
  s.banksTake x r && (s.landingBanks x r).all fun b => (s.pair x.pair).bankOpen b.1 (s.cycle + b.2.1) b.2.2

/-- The writes of a landing in this tick: they hold their banks until the last of them. -/
def State.landCells (s : State) (k : Nat) (c : Coll) (r : RTile) : State :=
  let x := c.member r.m
  let n := s.cellsNow r
  ((s.writeCells c r).onPair x.pair fun p =>
      (s.landingBanks x r).foldl (fun p b => p.holdBank s.cycle b.1 (s.cycle + b.2.1) b.2.2) p).setColl k
    (c.onTile r.m r.t fun r => { r with busy := some (s.cycle + n), wrote := r.wrote + n })

/-- The banks that the landings of a collective begin to use in the next cycle (R172): pair, bank, first cycle and end. -/
def State.collSoon (s : State) (c : Coll) : List (Nat × Nat × Nat × Nat) :=
  let t := { s with cycle := s.cycle + 1 }
  c.tiles.flatMap fun r =>
    let x := c.member r.m
    if x.peer = 0 && r.wrote < 32 && r.busy.any (fun z => z ≤ t.cycle) && t.landingMay x r then
      (t.landingBanks x r).map fun b => (x.pair, b.1, t.cycle + b.2.1, t.cycle + b.2.1 + b.2.2)
    else []

/-- A plane of a receive tile has come, begins to land when the one before it has landed, is written, tick by tick, when its banks
take it, and ends. -/
def execPlaneLanding (k m t j : Nat) (s : State) : Host.Outcome State Fault Refusal :=
  match s.coll? k with
  | none => .next s
  | some c =>
    match c.tile? m t with
    | none => .next s
    | some r =>
      let i := 7 - j
      let x := c.member m
      let again (s : State) (at' : Nat) : State := s.schedule at' srcFabric (.planeLanding k m t j)
      if 7 < j ∨ x.peer ≠ 0 ∨ c.q ≤ i ∨ !c.gathered m t i ∨ (c.lost ∧ r.wrote = 0) ∨ r.cancelled ∨ r.failed ∨ i < r.planes then .next s
      else match r.busy with
        | some z =>
          if i ≠ r.planes then .next (s.setColl k (c.onTile m t fun r => { r with came := r.came ++ [i] }))
          else if s.cycle < z then .next s
          else if 32 ≤ r.wrote then .next (s.endLanding k c r)
          else if !s.banksTake x r then .next (again s (32 * (s.tick + 1)))
          else if !s.landingMay x r then .next (again s (s.cycle + 1))
          else .next (again (s.landCells k c r) (s.cycle + s.cellsNow r))
        | none =>
          if i ≠ r.planes then .next (s.setColl k (c.onTile m t fun r => { r with came := r.came ++ [i] }))
          else
            let z := s.cycle + 1 + Config.planeTime s.fresh
            .next (again (s.setColl k (c.onTile m t fun r => { r with busy := some z })).bump z)

/-! ## Cancelling (R391 to R394) -/

/-- The receive tile of this package that a pair's counter belongs to. -/
def State.tileOfCounter (s : State) (p n : Nat) : Option (Nat × RTile) :=
  s.colls.findSome? fun (k, c) => (c.tiles.find? fun r =>
    let x := c.member r.m
    r.owns && x.peer == 0 && x.pair == p && x.cbase + r.t == n).map fun r => (k, r)

/-- The COLL that holds a tag of a core, with its engine. -/
def State.collTag (s : State) (core tag : Nat) : Option (Nat × CopyCmd) :=
  ((List.range 4).map fun i => 4 * faceOf core + i).findSome? fun e =>
    ((s.engine e).queue.find? fun c => c.kind == .coll && c.core == core && c.tag == tag).map fun c => (e, c)

/-- The collective that a COLL has joined. -/
def State.joinedBy (s : State) (c : CopyCmd) : Option Nat :=
  (s.colls.find? fun (_, y) => y.members.any fun x => x.joined && x.peer == 0 && x.cmd == c.id && x.core == c.core).map Prod.fst

/-- The oldest entry of a pair's cancel queue is processed. -/
def execCancelProcess (p : Nat) (s : State) : Host.Outcome State Fault Refusal :=
  match (s.pair p).cancelQ with
  | [] => .next s
  | z :: t =>
    let s := s.onPair p fun y => { y with cancelQ := t }
    .next (match z with
      | .tile n => match s.tileOfCounter p n with
        | some (k, r) => (s.cancelTiles k fun x => x.m == r.m && x.t == r.t).tellSenders k
        | none => s
      | .tag core tag => match s.collTag core tag with
        | none => s
        | some (e, c) => match s.joinedBy c with
          | some k => s.cancelColl k
          | none => s.onCopy e c.id fun x => { x with cancelled := true })

/-! ## Completion (R396, R397) -/

/-- The member has nothing more to send. -/
def Coll.sentAll (c : Coll) (m : Nat) : Bool :=
  let x := c.member m
  if x.peer ≠ 0 then x.ended else c.sends m == 0 || (x.flits == 0 && (c.q ≤ x.planes || x.stopped))

/-- The receive tile shows how it has ended (R396); one of mixed scales still takes the planes that have been sent. -/
def Coll.tileOver (c : Coll) (r : RTile) : Bool :=
  r.busy.isNone && (c.q ≤ r.planes || r.cancelled || r.failed || (r.mixed && !c.gathered r.m r.t r.planes))

/-- The collective is complete at every member, or has ended early. -/
def Coll.over (c : Coll) : Bool :=
  (c.lost && c.tiles.all fun r => r.wrote == 0) || (c.complete && (List.range c.nmem).all c.sentAll && c.tiles.all fun r => (c.member r.m).peer != 0 || c.tileOver r)

/-- The status of a member (R397). -/
def Coll.status (c : Coll) (m : Nat) : Nat :=
  let mine := c.tiles.filter fun r => r.m == m
  if c.absent then 0x0B
  else if c.peerlost then 0x0D
  else if c.cancel || mine.any RTile.cancelled then 0x06
  else if mine.any RTile.mixed then 0x0C
  else if mine.any fun r => !r.poisoned.isEmpty then 0x05
  else 0

/-- The tags of every member of this package are set in one step. -/
def execCollComplete (k : Nat) (s : State) : Host.Outcome State Fault Refusal :=
  match s.coll? k with
  | none => .next s
  | some c =>
    if !c.over then .next s
    else .next (c.members.zipIdx.foldl (fun s (x, m) =>
      if x.joined ∧ x.peer = 0 then
        match (s.engine x.eng).queue.find? fun z => z.id == x.cmd with
        | some z => s.finishCopy x.eng z (c.status m)
        | none => s
      else s) { s with colls := Tbl.del s.colls k })

/-! ## Peer packages (R398 to R400)

The port hands over each message as one event, which begins with the JOB by which it came, in two bytes (R398, R447). `j` from 0
to 7 is a whole plane of one send tile, whose bits are followed by two bytes that name its poisoned blocks; 8 is a join, whose
bits are the header's first word; 9 a cancel of receive tile `t`; 10 a cancel of the collective; 11 says that the member's tiles
have ended and been sent. -/

/-- A message of this JOB is the member's of a collective that a member of this package has joined: the member's entry of the peer
table has that JOB (R398, R447). -/
def State.jobOk (s : State) (c : Coll) (m job : Nat) : Bool :=
  (c.member m).peer != 0 && s.peerJob c.part (c.member m).peer == job

/-- The collective that a message of a JOB belongs to: the one joined here, where the member's JOB is this one, or what this JOB has
sent of that CID so far. -/
def State.peerKey (s : State) (k m job : Nat) : Nat :=
  if (s.coll? k).any fun c => s.jobOk c m job then k else jobKey k job

/-- A remote member joins; the first join of a collective fixes its header. -/
def State.remoteJoin (s : State) (job k m : Nat) (bits : List Byte) : State :=
  let w := leNat (bits.take 8)
  let d : Desc := { head := [BitVec.ofNat 64 w], ents := List.replicate (bitsOf w 0 8) [0x100, 0, 0, 0] }
  let c := (s.coll? (s.peerKey k m job)).getD (collOf (k / 2 ^ 48) d)
  if c.hdr = BitVec.ofNat 64 w ∧ m < c.nmem ∧ !(c.member m).joined then
    s.setColl (s.peerKey k m job) (c.onMember m fun x => { x with joined := true, job := some job, peer := max 1 x.peer })
  else s

/-- The planes in hand let these tiles land. -/
def State.remotePlane (s : State) (k : Nat) (c : Coll) (m t i : Nat) (scale : Byte) (bits : List Byte) : State :=
  let c := if (c.member m).scales.any fun e => e.1 == t then c
    else c.onMember m fun x =>
      { x with scales := x.scales ++ [(t, scale, (List.range 16).filter fun r => (leNat (bits.drop 128)).testBit r)] }
  let c := { c with sent := c.sent ++ [(m, t, i, bits.take 128)] }
  (s.setColl k c).sendLandings k c m i [t]

def execPeerPacket (k m t j : Nat) (scale : Byte) (msg : List Byte) (s : State) : Host.Outcome State Fault Refusal :=
  let job := leNat (msg.take 2)
  let bits := msg.drop 2
  if j = 8 then .next (s.remoteJoin job k m bits)
  else
    let k := s.peerKey k m job
    match s.coll? k with
    | none => .next s
    | some c =>
      if (c.member m).peer = 0 || !(c.member m).joined || c.lost then .next s
      else if j = 9 then
        .next ((s.setColl k { c with tiles := c.tiles ++ [{ m := m, t := t, cancelled := true }] }).tellSenders k)
      else if j = 10 then .next (s.cancelColl k)
      else if j = 11 then .next (s.setColl k (c.onMember m fun x => { x with ended := true }))
      else if j < 8 ∧ t < c.sends m ∧ 7 - j < c.q ∧ (c.plane? m t (7 - j)).isNone then
        .next (s.remotePlane k c m t (7 - j) scale bits)
      else .next s

/-- The port finds a peer unreachable: the collective ends at every local member. -/
def execPeerlost (k : Nat) (s : State) : Host.Outcome State Fault Refusal :=
  match s.coll? k with
  | none => .next s
  | some c =>
    if c.lost || !(c.members.any fun x => x.peer != 0) then .next s
    else .next ((s.failTiles c).setColl k { c.failed with peerlost := true })

end Sys2Proof.Machine
end

