-- ==== Sys2Proof/Machine/Shake.lean ====
section
/-! DEFINITION. SHAKE256, the hash that the start and the extend operation name (R432, R436): Keccak-f[1600] on 25 lanes of
64 bits, rate 136 bytes. The manual names the function; its definition is PRESUMED from FIPS 202 (log 113). -/

namespace Sys2Proof.Machine

/-- The lanes of a Keccak state, lane (x, y) at 5y + x. -/
abbrev Lanes := List Word

def Lanes.at (l : Lanes) (x y : Nat) : Word := l.getD (5 * (y % 5) + x % 5) 0

/-- The lanes that a function of (x, y) gives. -/
def lanesOf (f : Nat → Nat → Word) : Lanes := (List.range 25).map fun i => f (i % 5) (i / 5)

/-- Step theta. -/
def keccakTheta (l : Lanes) : Lanes :=
  let c := (List.range 5).map fun x => l.at x 0 ^^^ l.at x 1 ^^^ l.at x 2 ^^^ l.at x 3 ^^^ l.at x 4
  lanesOf fun x y => l.at x y ^^^ c.getD ((x + 4) % 5) 0 ^^^ (c.getD ((x + 1) % 5) 0).rotateLeft 1

/-- The rotations of step rho, by 5y + x. -/
def keccakRho : List Nat :=
  [0, 1, 62, 28, 27, 36, 44, 6, 55, 20, 3, 10, 43, 25, 39, 41, 45, 15, 21, 8, 18, 2, 61, 56, 14]

/-- Steps rho and pi. -/
def keccakPi (l : Lanes) : Lanes :=
  lanesOf fun x y =>
    let u := (x + 3 * y) % 5
    (l.at u x).rotateLeft (keccakRho.getD (5 * x + u) 0)

/-- Step chi. -/
def keccakChi (l : Lanes) : Lanes := lanesOf fun x y => l.at x y ^^^ (~~~(l.at (x + 1) y) &&& l.at (x + 2) y)

/-- The constants of step iota. -/
def keccakIota : List Word :=
  [0x0000000000000001, 0x0000000000008082, 0x800000000000808A, 0x8000000080008000, 0x000000000000808B, 0x0000000080000001,
   0x8000000080008081, 0x8000000000008009, 0x000000000000008A, 0x0000000000000088, 0x0000000080008009, 0x000000008000000A] ++
  [0x000000008000808B, 0x800000000000008B, 0x8000000000008089, 0x8000000000008003, 0x8000000000008002, 0x8000000000000080,
   0x000000000000800A, 0x800000008000000A, 0x8000000080008081, 0x8000000000008080, 0x0000000080000001, 0x8000000080008008]

/-- One round. -/
def keccakRound (l : Lanes) (k : Word) : Lanes :=
  let r := keccakChi (keccakPi (keccakTheta l))
  lanesOf fun x y => if x = 0 ∧ y = 0 then r.at 0 0 ^^^ k else r.at x y

/-- The permutation. -/
def keccakF (l : Lanes) : Lanes := keccakIota.foldl keccakRound l

/-- Bytes that one application of the permutation takes in. -/
def shakeRate : Nat := 136

/-- The message with its padding: the domain bits 1111, a first and a last 1. -/
def shakePad (bs : List Byte) : List Byte :=
  let k := shakeRate - bs.length % shakeRate
  bs ++ if k = 1 then [0x9F] else [0x1F] ++ List.replicate (k - 2) 0 ++ [0x80]

/-- A block is added to the state, which is then permuted. -/
def shakeAbsorb (l : Lanes) (block : List Byte) : Lanes :=
  keccakF (lanesOf fun x y => l.at x y ^^^ BitVec.ofNat 64 (leNat ((block.drop (8 * (5 * y + x))).take 8)))

/-- `n` blocks of a padded message. -/
def shakeBlocks : Nat → List Byte → List (List Byte)
  | 0, _ => []
  | n + 1, bs => bs.take shakeRate :: shakeBlocks n (bs.drop shakeRate)

/-- The first 512 bits of output, as a little-endian number. -/
def shake256 (bs : List Byte) : BitVec 512 :=
  let m := shakePad bs
  let l := (shakeBlocks (m.length / shakeRate) m).foldl shakeAbsorb (List.replicate 25 0)
  BitVec.ofNat 512 (leNat ((l.take 8).flatMap fun w => leBytes 8 w.toNat))

end Sys2Proof.Machine
end

