-- ==== Sys2Proof/Machine/Task.lean ====
section
/-! DEFINITION. Tasks: SPAWN, the dependence table, renaming, the dispatcher's steps, the end of an instance, completion
and the registers of the queues (R350 to R375). -/

namespace Sys2Proof.Machine

/-! ## Fields of a TCB (R350 to R352) -/

def tcbAct (ws : List Word) : Nat := (wordAt ws 14).toNat

/-- The eight range words: whether it is a write range, its place in the TCB and the word. -/
def tcbRanges (ws : List Word) : List (Bool × Nat × Nat) :=
  (List.range 8).map fun i => (4 ≤ i, 5 + i, (wordAt ws (5 + i)).toNat)

/-- First byte and length of a range word. -/
def rangeVa (e : Nat) : Nat := bitsOf e 8 48 * 256
def rangeLen (e : Nat) : Nat := 256 * 2 ^ (e % 256)

/-- The conditions of R356 on the TCB's own bits. -/
def tcbFieldsOk (ws : List Word) : Bool :=
  bitsOf (wordAt ws 2).toNat 49 15 == 0 && bitsOf (wordAt ws 4).toNat 56 8 == 0 && (wordAt ws 0).toNat % 32 == 0 &&
    allotOk (tcbVcount ws) (tcbRot ws) &&
    ((tcbRanges ws).all fun r => bitsOf r.2.2 56 7 == 0 && (bitsOf r.2.2 63 1 == 0 || r.2.2 % 256 ≤ 24)) &&
    (match tcbAct ws % 8 with
      | 0 => tcbAct ws / 8 == 0
      | 1 => tcbAct ws / 2 ^ 19 == 0 && bitsOf (tcbAct ws) 7 3 ≤ 6
      | 2 => true
      | 3 => bitsOf (tcbAct ws) 3 4 == 0
      | 4 => tcbAct ws / 8 == 0
      | _ => false)

/-! ## Who spawns -/

/-- The spawner of a TCB: its partition and queue, the VA of the TCB, the windows that translate the TCB's addresses
and the request that reads its plan, and the core and CTXID that it counts for. -/
structure Spawner where
  part  : Nat
  queue : Nat
  va    : Nat
  win   : List Window
  req   : Req
  core  : Nat
  id    : Word
  deriving DecidableEq, Repr

/-- The IA of `n` bytes of one window with the permission, in regions 0x0 to 0xB. -/
def State.spawnIa (s : State) (p : Spawner) (va n : Nat) (u : Use) : Option Nat :=
  match translate p.win va va n u with
  | .error _ => none
  | .ok t =>
    if iaRegion t.ia ≤ 0xB ∧ iaRegion (t.win.toIa (va + n - 1)) ≤ 0xB then some (s.effIa p.core t.win va) else none

/-- IA of the counter of a DEC (R356). -/
def State.decIa (s : State) (p : Spawner) (va : Nat) : Option Nat :=
  if (findWindow p.win va).all fun w => w.kind == 0 then (s.spawnIa p va 8 .both).filter fun ia => iaRegion ia ≤ 8
  else none

/-- The plan at a VA, with its IA: none where it is unreadable. -/
def State.spawnPlan (s : State) (p : Spawner) (va : Nat) : Option (Plan × Nat) × State :=
  if va % 16 ≠ 0 then (none, s)
  else match s.spawnIa p va 16 .read with
    | none => (none, s)
    | some ia =>
      match s.readPlan p.req ia with
      | (none, s) => (none, s)
      | (some q, s) =>
        (if q.good && (s.spawnIa p va (16 + 8 * q.count) .read).isSome then some (q, ia) else none, s)

/-! ## Reading a TCB (R353, R356) -/

/-- The domain in whose table a range is compared (R360). -/
def rangeDom (ia : Nat) : Option Nat :=
  match iaRegion ia with
  | 0x9 => some (bitsOf ia 20 11 / 192)
  | 0xA => some (bitsOf ia 21 8 / 32)
  | 0xB => some (bitsOf ia 25 8 / 32)
  | r => if r ≤ 7 then some r else none

/-- A valid range as an IA interval. -/
def State.rangeIa (s : State) (p : Spawner) (r : Bool × Nat × Nat) : Option (Bool × Nat × Nat) :=
  (s.spawnIa p (rangeVa r.2.2) (rangeLen r.2.2) (if r.1 then .write else .read)).map fun ia =>
    (r.1, ia, ia + rangeLen r.2.2)

/-- A handle given to the partition, for a need in use (R309, R352). -/
def State.needOk (s : State) (part n : Nat) : Bool :=
  n / 4096 == 0 || (n / 4096 ≤ 8 && (s.handle (n % 4096)).en && (s.handle (n % 4096)).owner == part)

/-- The IA that DONEACT names, 0 where its kind names none; none where it breaks R356. -/
def State.actIa (s : State) (p : Spawner) (act : Nat) : Option Nat :=
  let va := act / 8 * 8
  match act % 8 with
  | 1 =>
    let target := bitsOf act 10 9
    if s.owns p.part (faceOf target) && scopeHas (bitsOf act 7 3) p.core target then some 0 else none
  | 2 => s.decIa p va
  | 3 => s.spawnIa p va 128 .read
  | _ => some 0

/-- The cores that may run a TCB of domain `d` (R350). -/
def State.tcbCores (s : State) (part d : Nat) (ws : List Word) : List Nat :=
  ((List.range 64).filter fun i => (wordAt ws 3).getLsbD i).map (64 * d + ·) |>.filter fun c => s.owns part (faceOf c)

/-- The TCB as its slot will hold it, HW apart: BASE of each valid range, PLAN and the VA in DONEACT are IAs. -/
def slotWordsOf (ws : List Word) (ranges : List (Nat × Nat)) (planIa : Nat) (actIa : Nat) : List Word :=
  (ws.take 15).zipIdx.map fun (w, i) =>
    if i = 1 then BitVec.ofNat 64 planIa
    else if i = 14 then (if tcbAct ws % 8 = 2 ∨ tcbAct ws % 8 = 3 then BitVec.ofNat 64 (actIa + tcbAct ws % 8) else w)
    else match Tbl.find ranges i with
      | some ia => BitVec.ofNat 64 (setBits w.toNat 8 48 (ia / 256))
      | none => w

/-- The task that a TCB of domain `d` describes, without its slot and SEQ; none for BADTCB. -/
def State.parseTcb (s : State) (p : Spawner) (d : Nat) (ws : List Word) : Option Task × State :=
  let valid := (tcbRanges ws).filter fun r => r.2.2.testBit 63
  let ranges := valid.map (s.rangeIa p)
  let needs := (List.range 4).map fun i => bitsOf (wordAt ws 13).toNat (16 * i) 16
  let ok := tcbFieldsOk ws && !(s.tcbCores p.part d ws).isEmpty && ranges.all Option.isSome && needs.all (s.needOk p.part)
  match ok, s.actIa p (tcbAct ws) with
  | true, some act =>
    let planVa := (wordAt ws 1).toNat
    let bases := (valid.zip ranges).filterMap fun (v, r) => r.map fun x => (v.2.1, x.2.1)
    let task (plan : Option Plan) (planIa : Nat) : Task :=
      { seq := 0, part := p.part, queue := p.queue, slot := 0, tcb := slotWordsOf ws bases planIa act, plan := plan
        va := BitVec.ofNat 64 p.va, actVa := tcbAct ws / 8 * 8, ranges := ranges.filterMap id, lastCtx := p.id }
    if planVa = 0 then (some (task none 0), s)
    else match s.spawnPlan p planVa with
      | (some (q, ia), s) => (some (task (some q) ia), s)
      | (none, s) => (none, s)
  | _, _ => (none, s)

/-! ## The answer to a SPAWN (R355, R358, R406) -/

inductive SpawnAns where
  | noQueue
  /-- the QUEUE condition -/
  | queue
  /-- memory has refused a word of the TCB: its cause code and VA -/
  | fault (code va : Nat)
  | bad
  | full
  /-- a task without instances -/
  | empty (t : Task)
  | ready (t : Task) (slot : Nat)
  deriving DecidableEq, Repr

/-- The slot array of queue 16p + q lies in mapped pages of region DOM that the partition owns (R406). -/
def State.slotsMapped (s : State) (n part : Nat) : Bool :=
  let q := s.queue n
  let lo := q.base / 65536
  (List.range ((q.base + 128 * 2 ^ q.lsize - 1) / 65536 - lo + 1)).all fun i =>
    (lo + i) / 2 ^ 32 == q.dom &&
    (match s.peekPte q.dom q.dom ((lo + i) % 2 ^ 32) with
      | some e => e.st q.dom != 0 && e.owner == part
      | none => false)

/-- The lowest free slot of a queue: its IA. -/
def State.freeSlot (s : State) (n : Nat) : Option Nat :=
  let q := s.queue n
  let held := (s.queueTasks n).map Task.slot
  ((List.range (2 ^ q.lsize)).map fun i => q.base + 128 * i).find? fun a => !held.contains a

/-- What becomes of a SPAWN whose TCB reads as `r`. -/
def State.spawnAnswer (s : State) (p : Spawner) (read : State → PlanRead × State) : SpawnAns × State :=
  let n := 16 * p.part + p.queue
  let d := (s.queue n).dom
  if !(s.queue n).en then (.noQueue, s)
  else if !s.slotsMapped n p.part then (.queue, s)
  else match read s with
    | (.outside, s) => (.bad, s)
    | (.fault code va, s) => (.fault code va, s)
    | (.words ws, s) =>
      match s.parseTcb p d ws with
      | (none, s) => (.bad, s)
      | (some t, s) =>
        if t.total = 0 then (.empty t, s)
        else match s.freeSlot n with
          | some slot => if (s.disp d).tasks.length < 1024 then (.ready t slot, s) else (.full, s)
          | none => (.full, s)

/-! ## Dependences and renaming (R360 to R362) -/

def overlaps (a b : Nat × Nat) : Bool := a.1 < b.2 && b.1 < a.2

/-- Some range of one list shares a byte with some range of the other. -/
def anyOverlap (l m : List (Nat × Nat)) : Bool := l.any fun a => m.any (overlaps a)

/-- The ranges of a task that a domain's table compares: its reads or its writes. -/
def Task.compared (t : Task) (d : Nat) (w : Bool) : List (Nat × Nat) :=
  (t.ranges.filter fun r => r.1 == w && rangeDom r.2.1 == some d).map Prod.snd

/-- The write range is one page, of region `d`, that may be renamed. -/
def State.renamable (s : State) (d part : Nat) (r : Nat × Nat) : Bool :=
  r.1 % 65536 == 0 && r.2 == r.1 + 65536 && iaRegion r.1 == d &&
    (match s.peekPte d d (iaPage r.1) with
      | some e => e.st d == 1 && e.owner == part
      | none => false) &&
    !(s.dom d).ready.isEmpty && s.quotaLeft part d && (s.dom d).versions.length < 64

/-- The write ranges of a new task are renamed in order where they can be; the others take edges. -/
def State.renameAll (s : State) (d part seq : Nat) : List (Nat × Nat) → List (Nat × Nat) → State × List (Nat × Nat) × List (Nat × Nat)
  | [], done => (s, done, [])
  | r :: l, done =>
    if done.any fun v => r.1 % 65536 == 0 && r.2 == r.1 + 65536 && iaRegion r.1 == d && v.1 == iaPage r.1 then
      s.renameAll d part seq l done
    else if s.renamable d part r then
      let f := (s.dom d).ready.headD 0
      let s := (s.zeroFrame d f).onDom d fun x =>
        { x with ready := x.ready.drop 1, versions := x.versions ++ [(iaPage r.1, f, seq)] }
      s.renameAll d part seq l (done ++ [(iaPage r.1, f)])
    else
      let (s, done, rest) := s.renameAll d part seq l done
      (s, done, r :: rest)

/-- The edges of a new task on the tasks of the table. -/
def Task.edgesOn (t : Task) (d : Nat) (writes : List (Nat × Nat)) (older : List Task) : List Nat :=
  (older.filter fun o => o.part == t.part &&
    (anyOverlap (t.compared d false) (o.compared d true) ||
      anyOverlap writes (o.compared d false ++ o.compared d true))).map Task.seq

/-- HW of a task's slot (R353). -/
def State.hwWord (s : State) (t : Task) : Word :=
  BitVec.ofNat 64 (t.seq * 2 ^ 16 + min t.slips 15 * 2 ^ 12 + s.taskState t * 2 ^ 8 + t.part * 16 + t.queue)

/-- HW is written where it differs from what the slot holds. -/
def State.writeHw (s : State) (d : Nat) (t : Task) : State :=
  let hw := s.hwWord t
  if wordAt t.tcb 15 = hw then s
  else
    ((s.writeBytes (engineReq d t.part) (t.slot + 0x78) (leBytes 8 hw.toNat)).2).onTaskSeq d t.seq fun t =>
      { t with tcb := t.tcb.take 15 ++ [hw] }

/-- A task takes a slot: SEQ, renaming, edges, and the copy of its TCB. -/
def State.placeTask (s : State) (t : Task) (slot : Nat) : State :=
  let d := (s.queue (16 * t.part + t.queue)).dom
  let seq := (s.disp d).seq
  let older := (s.disp d).tasks
  let (s, renamed, writes) := s.renameAll d t.part seq (t.compared d true) []
  let t := { t with seq := seq, slot := slot, renamed := renamed, edges := t.edgesOn d writes older }
  let s := s.onDisp d fun x => { x with seq := (seq + 1) % 2 ^ 48, tasks := x.tasks ++ [t] }
  ((s.writeBytes (engineReq d t.part) slot (bytesOfWords t.tcb)).2).writeHw d t

/-! ## Completion actions (R358, R370) -/

/-- The successor that DONEACT names. -/
def Task.successor (t : Task) : SpawnReq :=
  { part := t.part, queue := t.queue, ia := tcbAct t.tcb / 8 * 8, va := t.actVa, id := t.lastCtx, slot := t.slot
    seq := t.seq, deadline := tcbDeadline t.tcb }

/-- DONEACT but for a successor, which is spawned in the next cycle. -/
def State.doneAct (s : State) (t : Task) : State :=
  let act := tcbAct t.tcb
  let d := (s.queue (16 * t.part + t.queue)).dom
  match act % 8 with
  | 1 => (s.flagOp (bitsOf act 10 9) (bitsOf act 3 4) true (s.cycle + 1 + Config.reachTime s.fresh)).bump
  | 2 => (s.atomicAt (engineReq d t.part) (act / 8 * 8) 8 fun old => some ((old + 2 ^ 64 - 1) % 2 ^ 64)).2
  | 3 => { s with spawns := s.spawns ++ [t.successor] }
  | 4 => s.taskRecord t 6
  | _ => s

/-- A FULL answer is counted and recorded (R355, R373). -/
def State.queueFull (s : State) (src part queue slot seq taddr deadline : Nat) (id : Word) : State :=
  (s.onQueue (16 * part + queue) fun q => { q with fulls := sat32 q.fulls }).statusRecord src part
    (recordWords part queue 0 5 s.gtcWord (BitVec.ofNat 64 slot) (BitVec.ofNat 64 seq) id 0 (BitVec.ofNat 64 taddr)
      (BitVec.ofNat 64 deadline))

/-- The TCB at an IA. -/
def readTcb (q : Req) (ia : Nat) (s : State) : PlanRead × State :=
  match s.readBytes q ia 128 with
  | (.ok bs, s) => (.words (wordsOf 16 bs), s)
  | (.error code, s) => (.fault code ia, s)

/-- The core that a CTXID names (R115). -/
def ctxIdCore (id : Word) : Nat := bitsOf id.toNat 2 9

/-- A successor is spawned into the queue of the task that completed, or dropped (R370). -/
def State.spawnSuccessor (s : State) (r : SpawnReq) : State :=
  let d := (s.queue (16 * r.part + r.queue)).dom
  let (aw, s) := s.queueWindows (16 * r.part + r.queue) r.part d
  let p : Spawner :=
    { part := r.part, queue := r.queue, va := r.va, win := windowSet aw, req := engineReq d r.part, core := ctxIdCore r.id
      id := r.id }
  match s.spawnAnswer p (readTcb p.req r.ia) with
  | (.empty t, s) => s.doneAct t
  | (.ready t slot, s) => s.placeTask t slot
  | (.full, s) => s.queueFull (srcDisp d) r.part r.queue r.slot r.seq r.ia r.deadline r.id
  | (_, s) =>
    s.statusRecord (srcDisp d) r.part (recordWords r.part r.queue 0x80 3 s.gtcWord (BitVec.ofNat 64 r.slot) (BitVec.ofNat 64 r.seq) r.id
      0 (BitVec.ofNat 64 r.ia) (BitVec.ofNat 64 r.deadline))

/-- The oldest successor that waits is spawned. -/
def State.nextSuccessor (s : State) : State :=
  match s.spawns with
  | [] => s
  | r :: l => { s with spawns := l }.spawnSuccessor r

/-! ## SPAWN (R355, R357) -/

/-- The context at the point of issue as a spawner. -/
def State.asSpawner (s : State) (va q : Nat) : Spawner :=
  { part := s.ipart, queue := q, va := va, win := s.cx.windows, req := s.winReq (findWindow s.cx.windows va)
    core := s.iss.core, id := ctxId s.cs }

/-- The answer to a SPAWN of the context at the point of issue. -/
def State.askSpawn (s : State) (va q : Nat) : SpawnAns × State :=
  s.spawnAnswer (s.asSpawner va q) fun s => s.readVaWords va 16

/-- SPAWN commits: the domain processes it, and its status is on the way. -/
def State.doSpawn (s : State) (d : BitVec 5) (va q : Nat) : State :=
  let lat := s.planLatency va
  let answer (s : State) (v : Word) : State := s.pendLoad s.cs lat none { ctResult d with value := v }
  match s.askSpawn va q with
  | (.noQueue, s) => answer s 3
  | (.queue, s) => s.pendLoad s.cs lat none { ctResult d with fault := some (0x15, BitVec.ofNat 64 q) }
  | (.fault code v, s) => s.pendLoad s.cs lat none { ctResult d with fault := some (code, BitVec.ofNat 64 v) }
  | (.bad, s) => answer s 2
  | (.full, s) => answer (s.queueFull (srcCore s.iss.core) s.ipart q 0 0 0 0 (ctxId s.cs)) 1
  | (.empty t, s) => answer (s.doneAct t) 0
  | (.ready t slot, s) => answer (s.placeTask t slot) 0

def execSpawn (n : BitVec 4) (a d : BitVec 5) (q : BitVec 4) (s : State) : Host.Outcome State Fault Refusal :=
  let va := (s.cx.sreg a).toNat
  ctOp (.spawn n a d q) n { rs := [a], ws := [d], var := true } false noWait (fun s => s.readCauses va 128 128)
    (fun s => s.doSpawn d va q.toNat) s

/-- A SPAWN.W of a FREE context waits while its answer would be FULL. -/
def State.spawnWait (va q : Nat) (s : State) : Option (Bool × State) :=
  if s.cx.run = .free ∧ s.readCauses va 128 128 = [] ∧ (s.askSpawn va q).1 = .full then some (true, s) else none

/-- The QUEUE condition of a SPAWN.W that a FREE context holds is a trap of its own bundle. -/
def State.spawnQueueCause (s : State) (va q : Nat) : List Cause :=
  if s.cx.run = .free ∧ s.readCauses va 128 128 = [] ∧ (s.askSpawn va q).1 = .queue then [kFault 0x15 q] else []

def execSpawnW (n : BitVec 4) (a d : BitVec 5) (q : BitVec 4) (s : State) : Host.Outcome State Fault Refusal :=
  let va := (s.cx.sreg a).toNat
  ctOp (.spawnW n a d q) n { rs := [a], ws := [d], var := true } false (State.spawnWait va q.toNat)
    (fun s => s.readCauses va 128 128 ++ s.spawnQueueCause va q.toNat) (fun s => s.doSpawn d va q.toNat) s

/-! ## The end of an instance (R369, R371) -/

def execTdone (n : BitVec 4) (s : State) : Host.Outcome State Fault Refusal :=
  ctOp (.tdone n) n {} false noWait noCause (fun s => ((s.endInstance s.cs).leaveSup s.cs).haltCtx s.cs) s

/-- The instance goes back to its queue. -/
def State.yieldInstance (s : State) (c : Nat) : State :=
  s.onTask (s.ctx c) fun t =>
    let i := t.linear (s.ctx c).inst
    { t with yielded := t.yielded ++ [i], running := t.running.filter fun j => j != i }

def execTyield (n : BitVec 4) (s : State) : Host.Outcome State Fault Refusal :=
  ctOp (.tyield n) n {} false noWait noCause
    (fun s => if s.cx.taskid = 0 then s else (s.yieldInstance s.cs).haltCtx s.cs) s

/-! ## DISPATCH_STEP (R363 to R368) -/

/-- A dispatch step falls in this cycle: GTC has reached another multiple of 8 ns. -/
def State.dispatchTime (s : State) : Bool := s.cycle != 0 && s.gtc / 8 != (s.cycle - 1) * 5 / 9 / 8

/-- The task may be drawn. -/
def State.drawable (s : State) (t : Task) : Bool := s.dispatchable t && !t.blocked

/-- The eligible queues of a dispatcher, by their index 16p + q. -/
def State.eligible (s : State) (d : Nat) : List Nat :=
  (List.range 256).filter fun n =>
    (s.queue n).en && (s.queue n).dom == d && (s.queueTasks n).any s.drawable

/-- One advance of LSEED (R364). -/
def lotteryNext (x : BitVec 32) : BitVec 32 :=
  let x := x ^^^ (x <<< 13)
  let x := x ^^^ (x >>> 17)
  x ^^^ (x <<< 5)

/-- The queue at which the running sum of tickets first exceeds `v`. -/
def runningSum : Nat → List (Nat × Nat) → Option Nat
  | _, [] => none
  | v, (n, t) :: l => if v < t then some n else runningSum (v - t) l

/-- The winner of a draw among eligible queues, given with their tickets in ascending index. -/
def drawWinner (x : BitVec 32) (l : List (Nat × Nat)) : Option Nat :=
  let total := (l.map Prod.snd).sum
  if total = 0 then l.head?.map Prod.fst else runningSum (x.toNat % total) l

/-- The earliest deadline, and of equal ones the lowest SEQ; the list is in the order of SEQ (R365). -/
def earliestTask : List Task → Option Task
  | [] => none
  | t :: l => match earliestTask l with
    | none => some t
    | some u => if deadlineBefore (tcbDeadline u.tcb) (tcbDeadline t.tcb) then some u else some t

/-- The candidate cores of a task (R367). -/
def State.candidates (s : State) (d : Nat) (t : Task) : List Nat :=
  (s.tcbCores t.part d t.tcb).filter fun c =>
    (s.freeCtx c).isSome && (s.freeBase c (tcbVcount t.tcb)).isSome && (t.plan.isNone || s.halfFree c)

/-- The earliest start over the faces of the candidates: tick and core. -/
def State.planStart (s : State) (p : Plan) (d : Nat) (cands : List Nat) : Option (Nat × Nat) :=
  ((List.range 4).filterMap fun i =>
    let f := 4 * d + i
    match (s.face f).freeBid, s.findStart p f (cands.filter fun c => faceOf c == f) with
    | some _, some x => some x
    | _, _ => none).foldl (fun best x =>
      match best with
      | none => some x
      | some y => if x.1 < y.1 || (x.1 == y.1 && x.2 < y.2) then some x else some y) none

/-- The task's instance is placed: a free-running one starts, a planned one asks the controller of its face to book it. None
where there is no place. -/
def State.placeInst (s : State) (d : Nat) (t : Task) : Option State :=
  let cands := s.candidates d t
  let v := tcbVcount t.tcb
  match t.plan with
  | none =>
    match cands.head? with
    | none => none
    | some core => match s.freeCtx core, s.freeBase core v with
      | some c, some base => some ((s.startInstance c base d t t.nextInst).noteStarted d t.seq)
      | _, _ => none
  | some p =>
    match s.planStart p d cands with
    | none => none
    | some (tick, core) => match s.freeCtx core, s.freeBase core v with
      | some c, some base =>
        some (s.onFace (faceOf core) fun f => f.ask (.task d t.seq t.nextInst c base v tick))
      | _, _ => none

/-- The next instance of the task is dispatched, or the task is blocked. -/
def State.dispatchTask (s : State) (d : Nat) (t : Task) : State :=
  match s.placeInst d t with
  | none => (s.onTaskSeq d t.seq fun t => { t with blocked := true }).onDisp d fun x => { x with block := sat32 x.block }
  | some s => s

/-- The slots' HW words follow their tasks. -/
def State.refreshHw (s : State) (d : Nat) : State := (s.disp d).tasks.foldl (fun s t => s.writeHw d t) s

def execDispatchStep (d : Nat) (s : State) : Host.Outcome State Fault Refusal :=
  if !s.dispatchTime then .next s
  else
    let l := s.eligible d
    if l.isEmpty then .next (s.refreshHw d)
    else
      let x := lotteryNext (s.disp d).lseed
      let s := s.onDisp d fun y => { y with lseed := x }
      match (drawWinner x (l.map fun n => (n, (s.queue n).tickets))).bind fun n =>
          earliestTask ((s.queueTasks n).filter s.drawable) with
      | none => .next (s.refreshHw d)
      | some t => .next ((s.dispatchTask d t).refreshHw d)

/-! ## Completion and commit (R361, R362, R370) -/

/-- A copy, macro-op, collective or handle command that the task's instances issued has not completed. -/
def State.taskBusy (s : State) (d seq : Nat) : Bool :=
  let me := some (d, seq)
  (s.pairs.any fun p => p.2.queues.any fun q => q.2.any fun o => o.task == me) ||
  (s.engines.any fun e => e.2.queue.any fun c => c.task == me) ||
  (s.flash.any fun f => f.2.cmds.any fun c => c.task == me)

/-- Every instance has ended, and what they issued has completed. -/
def State.taskOver (s : State) (d : Nat) (t : Task) : Bool :=
  !t.complete && t.total ≤ t.ended && !s.taskBusy d t.seq

/-- A task leaves the table: the edges on it are satisfied, and its slot is free. -/
def State.freeTask (s : State) (d seq : Nat) : State :=
  s.onDisp d fun x =>
    { x with tasks := (x.tasks.filter fun t => t.seq != seq).map fun t =>
        { t with edges := t.edges.filter fun e => e != seq } }

/-- Completion: the edges on a task that renamed nothing are satisfied; DONEACT is performed while the slot is held. -/
def State.completeTask (s : State) (d : Nat) (t : Task) : State :=
  let s := if t.renamed.isEmpty then
      s.onDisp d fun x => { x with tasks := x.tasks.map fun u => { u with edges := u.edges.filter fun e => e != t.seq } }
    else s
  let s := s.onTaskSeq d t.seq fun t => { t with complete := true }
  let s := if tcbAct t.tcb % 8 = 3 then s.spawnSuccessor t.successor else s.doneAct t
  let s := if s.isLate t then s.taskRecord t 2 else s
  if t.renamed.isEmpty then s.freeTask d t.seq else s

def execTaskComplete (d seq : Nat) (s : State) : Host.Outcome State Fault Refusal :=
  match s.findTask d seq with
  | none => .next s
  | some t => if s.taskOver d t then .next (s.completeTask d t) else .next s

/-- The versions of a completed task that may commit: no older version of the page, and no older task that has not
completed and has a range on it. -/
def State.commits (s : State) (d : Nat) (t : Task) : List (Nat × Nat) :=
  let older := (s.disp d).tasks.takeWhile fun u => u.seq != t.seq
  if !t.complete then []
  else t.renamed.filter fun v =>
    let page : Nat × Nat := ((d * 2 ^ 32 + v.1) * 65536, (d * 2 ^ 32 + v.1 + 1) * 65536)
    (((s.dom d).versions.find? fun x => x.1 == v.1).any fun x => x.2.2 == t.seq) &&
      !(older.any fun u => u.part == t.part && !u.complete && anyOverlap [page] (u.compared d false ++ u.compared d true))

/-- A version commits: the page's lines are invalid, its entry takes the fresh frame and the old one is free. A page that
is no longer in HBM is there again; one that is unmapped leaves the fresh frame free. -/
def State.commitVersion (s : State) (d seq : Nat) (v : Nat × Nat) : State :=
  let s := { s with lines := s.lines.filter fun l => lineIa l.1 / 65536 != d * 2 ^ 32 + v.1 || lineDom l.1 != d }
  let s := s.onDom d fun x =>
    { x with versions := x.versions.filter fun x => !(x.1 == v.1 && x.2.2 == seq) }
  match s.peekPte d d v.1 with
  | none => s.pushFrame d v.2
  | some e =>
    match e.st d with
    | 0 => s.pushFrame d v.2
    | 2 => s.setPte d v.1 (((e.setSt 1).setFrame v.2).setD true)
    | _ =>
      ((s.onDom d fun x => { x with moves := x.moves.filter fun m => m.page != v.1 }).setPte d v.1
        (((e.setSt 1).setFrame v.2).setD true)).pushFrame d e.frame

/-- The versions of a task that can commit do; with the last the edges on it are satisfied and its slot is free. -/
def execVersionCommit (d seq : Nat) (s : State) : Host.Outcome State Fault Refusal :=
  match s.findTask d seq with
  | none => .next s
  | some t =>
    let l := s.commits d t
    if l.isEmpty then .next s
    else
      let s := l.foldl (fun s v => s.commitVersion d seq v) s
      let left := t.renamed.filter fun v => !l.contains v
      if left.isEmpty then .next (s.freeTask d seq)
      else .next (s.onTaskSeq d seq fun t => { t with renamed := left })

/-! ## Registers (R354, R374) -/

/-- A write of a queue's register: while the queue holds a slot, QBASE, LSIZE and DOM keep their values. -/
def State.queueWrite (s : State) (p q off : Nat) (v : Word) : State :=
  let n := 16 * p + q
  let held := !(s.queueTasks n).isEmpty
  match off with
  | 0x00 => if held then s else s.onQueue n fun x => { x with base := addrField v 7 }
  | 0x08 => s.onQueue n fun x =>
    { x with
      lsize := if held then x.lsize else clampLsize (v.toNat % 16)
      dom := if held then x.dom else bitsOf v.toNat 4 3
      en := v.getLsbD 7
      tickets := bitsOf v.toNat 16 16 }
  | 0x10 => s.onQueue n fun x => { x with wset := addrField v 6 }
  | _ => s

def execQueueConfigWrite (p q off : Nat) (v : Word) (s : State) : Host.Outcome State Fault Refusal :=
  .next (s.queueWrite p q off v)

/-- A ring's head takes a value at or behind its tail, and no more than one ring behind it (R374, R412). -/
def headOk (tail v : BitVec 32) (lsize : Nat) : Bool := (tail - v).toNat ≤ 2 ^ lsize

def execSqheadWrite (p : Nat) (v : Word) (s : State) : Host.Outcome State Fault Refusal :=
  .next (s.onPart p fun q => if headOk q.sqtail (v.truncate 32) q.sqLsize then { q with sqhead := v.truncate 32 } else q)

end Sys2Proof.Machine
end

