-- ==== Sys2Proof/Machine/System.lean ====
section
/-! DEFINITION. Partitions: START, partition reset, MACHINE, the message ring's head and plain register writes (R97 to
R101, R402 to R412, R449). -/

namespace Sys2Proof.Machine

/-! ## START (R97 to R100) -/

/-- An entry of the start-vector table is in order (R98, R100). -/
def startEntryOk (ws : List Word) : Bool :=
  let w1 := (wordAt ws 1).toNat
  (wordAt ws 0).toNat % 32 == 0 && allotOk (16 * bitsOf w1 0 4) (8 * bitsOf w1 4 4) && (wordAt ws 2).toNat % 64 == 0 &&
    bitsOf w1 16 48 == 0 && bitsOf w1 9 6 == 0

def entryValid (ws : List Word) : Bool := (wordAt ws 1).getLsbD 15
def entrySup (ws : List Word) : Bool := (wordAt ws 1).getLsbD 8

/-- The entries of a partition's table with their cores: 16 for each owned face, faces ascending (R97). -/
def State.startEntries (s : State) (p : Nat) (bs : List Byte) : List (Nat × List Word) :=
  (((s.facesOf p).map fun f => (List.range 16).map fun i => 16 * f + i).flatten).zipIdx.map fun (core, i) =>
    (core, wordsOf 4 (bs.drop (32 * i)))

/-- A context that START will start on each face at the first tick that begins at least 2 ticks from now, with its window
set. The spec gives the read and check of the table no time, and what a WSET that cannot be read leaves no value: the model ends
the check in the cycle of the write, and such a context has AW0 to AW7 zero (DESIGN CHOICE, log 115). -/
def State.launchOf (s : State) (p core : Nat) (ws : List Word) : State :=
  let wset := (wordAt ws 2).toNat
  let (aw, s) := match s.readBytes (engineReq (wset / 2 ^ 48 % 8) p) wset 256 with
    | (.ok b, s) => (wordsOf 32 b, s)
    | (.error _, s) => (List.replicate 32 0, s)
  { s with launches := s.launches ++ [{ due := (s.cycle + 64 + 31) / 32 * 32, core := core, words := ws ++ aw }] }

/-- START.ERR and BADIDX: 1 BUSY, 2 BADENTRY, 3 NOSUP. -/
def State.startError (s : State) (p err : Nat) (idx : Option Nat) : State :=
  s.onPart p fun q => { q with startErr := err, badidx := idx.getD q.badidx }

/-- GO of a partition that does not run. -/
def State.startGo (s : State) (p : Nat) : State :=
  let table := (s.part p).table
  match s.readBytes (engineReq (table / 2 ^ 48 % 8) p) table (512 * (s.facesOf p).length) with
  | (.error _, s) => s.startError p 2 (some 0)
  | (.ok bs, s) =>
    let es := s.startEntries p bs
    let valid := es.filter fun e => entryValid e.2
    match es.findIdx? fun e => entryValid e.2 && !startEntryOk e.2 with
    | some i => s.startError p 2 (some i)
    | none =>
      match valid.filter fun e => entrySup e.2 with
      | [(core, _)] =>
        valid.foldl (fun s e => s.launchOf p e.1 e.2) (s.onPart p fun q =>
          { q with run := true, startErr := 0, supctx := 4 * core, hasSup := true })
      | _ => s.startError p 3 none

/-- A write of START: GO of a partition that runs is ignored with ERR BUSY; otherwise TABLE takes its value, and GO launches. -/
def execStart (p : Nat) (v : Word) (s : State) : Host.Outcome State Fault Refusal :=
  if (s.part p).run ∧ v.getLsbD 0 then .next (s.startError p 1 none)
  else
    let s := s.onPart p fun q => { q with table := addrField v 6 }
    .next (if v.getLsbD 0 ∧ s.plat.boot = .running then s.startGo p else s)

/-! ## Partition reset (R405) -/

/-- Cores, pairs and engines of a partition's faces. -/
def State.coresOf (s : State) (p : Nat) : List Nat :=
  ((s.facesOf p).map fun f => (List.range 16).map fun i => 16 * f + i).flatten
def State.pairsOf (s : State) (p : Nat) : List Nat :=
  ((s.facesOf p).map fun f => (List.range 8).map fun i => 8 * f + i).flatten
def State.enginesOf (s : State) (p : Nat) : List Nat :=
  ((s.facesOf p).map fun f => (List.range 4).map fun i => 4 * f + i).flatten

/-- Every context of a core is halted without a save area, which completes a PREEMPT of it; the core's tags, flags, landing slots and buffer are free. -/
def State.resetCore (s : State) (core : Nat) : State :=
  let s := (List.range 4).foldl (fun s k =>
    (s.onCtx (4 * core + k) fun x => { x.halted with pending := [] }).preemptDone (4 * core + k)) s
  s.onCore core fun k =>
    { k with flags := 0, flagOps := [], landing := [], tags := [], ibuf := [], whq := 0, cur := 0, idle := true }

/-- A pair's macro-ops, counters and cancel queue are cleared, and its clock runs. -/
def Pair.reset (x : Pair) : Pair :=
  { x with queues := [], counters := [], cancelQ := [], charges := [], freeze := none, out := [] }

/-- Every booking of a face is free, and its controller has no request. -/
def Face.reset (x : Face) : Face := Face.noteRelease { x with bookings := [], requests := [] }

/-- The versions of a partition's tasks leave their tables, and their frames go to the ready queues. -/
def State.dropVersions (s : State) (d p : Nat) : State :=
  let mine := ((s.disp d).tasks.filter fun t => t.part == p).map Task.seq
  let vs := (s.dom d).versions
  let s := s.onDom d fun x => { x with versions := vs.filter fun v => !mine.contains v.2.2 }
  (vs.filter fun v => mine.contains v.2.2).foldl (fun s v => s.pushFrame d v.2.1) s

/-- A partition's tasks, versions, handles and flash work in one domain are gone. -/
def State.resetDomain (s : State) (d p : Nat) : State :=
  let s := s.dropVersions d p
  let s := s.onDisp d fun x => { x with tasks := x.tasks.filter fun t => t.part != p }
  let mine (h : Nat) : Bool := (s.handle h).owner == p && (s.handle h).st != 0
  let s := s.onStack d fun f =>
    { f with
      cmds := f.cmds.filter fun c => c.part != p
      cards := f.cards.map fun c => if mine c.handle then { c with orphan := true } else c
      window := f.window.filter fun e => e.1 != p }
  s

/-- A context of the face runs or is booked: a reset of the face halts a context or releases a booking (R366). -/
def State.faceUsed (s : State) (f : Nat) : Bool :=
  !(s.face f).bookings.isEmpty || (List.range 64).any fun i => (s.ctx (64 * f + i)).run != .halted

/-- The reset of a partition; BUSY stays 1 until PRESET_DONE. -/
def State.resetPart (s : State) (p : Nat) : State :=
  let used := (s.facesOf p).filter s.faceUsed
  let s := { s with
    resumes := s.resumes.filter fun r => r.part != p
    spawns := s.spawns.filter fun r => r.part != p
    launches := s.launches.filter fun l => !(s.coresOf p).contains l.core
    colls := s.colls.filter fun c => c.2.part != p
    outbox := s.outbox.filter fun e => match e.2 with
      | .record q _ => q != p
      | .message q _ _ => q != p }
  let s := (s.coresOf p).foldl State.resetCore s
  let s := (s.pairsOf p).foldl (fun s n => s.onPair n Pair.reset) s
  let s := (s.enginesOf p).foldl (fun s e => s.onEngine e fun x => { x with queue := [] }) s
  let s := (s.facesOf p).foldl (fun s f => s.onFace f Face.reset) s
  let s := (List.range 8).foldl (fun s d => s.resetDomain d p) s
  let s := used.foldl (fun s f => s.unblock (f / 4)) s
  let s := { s with handles := s.handles.map fun (h, (x : Handle)) => (h, if x.owner = p ∧ x.st ≠ 0 then x.idle else x) }
  s.onPart p fun q =>
    { q with run := false, hasSup := false, rbusy := true, msgbase := 0, msgLsize := 0, msgEn := false, msgFlag := 0
             msgFlagEn := false, msghead := 0, msgtail := 0, msglost := 0 }

/-- A write of PRESET: GO resets the partition, unless a reset is going on. -/
def execPreset (p : Nat) (v : Word) (s : State) : Host.Outcome State Fault Refusal :=
  if !v.getLsbD 0 || (s.part p).rbusy then .next s
  else .next (((s.resetPart p).schedule (s.cycle + 1 + Config.reachTime s.fresh) srcMgmt (.presetDone p)).bump)

def execPresetDone (p : Nat) (s : State) : Host.Outcome State Fault Refusal :=
  .next (s.onPart p fun q => { q with rbusy := false })

/-! ## MACHINE (R406, R408) -/

/-- A context stops without a save area. -/
def State.machineStop (s : State) (c : Nat) : State :=
  if (s.ctx c).run = .halted then s
  else
    let s := (s.onCtx c fun x => { x with tcause := 0x1F, tpc := x.pc }).mxDrop c
    let s := s.releaseBooking c false
    let s := match (s.ctx c).bid with
      | some b => s.freeBuffer (coreOf c) b
      | none => s
    let s := s.onCore (coreOf c) fun k => k.dropLandings (ctxOf c)
    ((s.onCtx c fun x => { x.halted with pending := [] }).preemptDone c).unblock (domOf (coreOf c))

/-- IA of an offset of a partition's control block (R430). -/
def ctlIa (p off : Nat) : Nat := 0xF00000B000000 + 0x1000 * p + off

/-- The partitions of a mask stop, firmware gets the report and resets them. -/
def execMachine (parts : Nat) (s : State) : Host.Outcome State Fault Refusal :=
  let ps := (List.range 16).filter fun p => parts.testBit p
  let s := ps.foldl (fun s p => (s.coresOf p).foldl (fun s k =>
    (List.range 4).foldl (fun s j => s.machineStop (4 * k + j)) s) s) s
  let s := s.onPlat fun y => { y with fwmsgs := y.fwmsgs ++
    [[BitVec.ofNat 64 (1 + 0x1F * 2 ^ 8), BitVec.ofNat 64 parts, 0, 0, 0, s.gtcWord, 0, 0]] }
  .next { s with todo := (ps.map fun p => .write 2 p (ctlIa p 0x20) 1) ++ s.todo }

/-! ## Register writes (R7, R412, R449) -/

def execMsgheadWrite (p : Nat) (v : Word) (s : State) : Host.Outcome State Fault Refusal :=
  .next (s.onPart p fun q => if headOk q.msgtail (v.truncate 32) q.msgLsize then { q with msghead := v.truncate 32 } else q)

/-- The write of this register is an event of its own. -/
def Reg.ownWrite : Reg → Bool
  | .slice _ o => o == 0
  | .cal _ o => 0x80 ≤ o && o < 0xC0
  | .pair _ o => o == 0
  | .flash _ o => o == 0x90
  | .queue _ _ _ => true
  | .sq _ o => o == 0x10
  | .ctl _ o => o == 0x20 || o == 0x40 || o == 0x78
  | _ => false

/-- A write to configuration space by an agent of this privilege and partition: what the block and the access code do not
admit has no effect. -/
def execRegisterWrite (priv p ia : Nat) (v : Word) (s : State) : Host.Outcome State Fault Refusal :=
  match regOf ia with
  | none => .next s
  | some r =>
    if s.regWriteCheck priv p r ≠ .ok then .next s
    else if r.ownWrite then .next { s with todo := .write priv p ia v :: s.todo }
    else .next (s.regStore r p v)

/-- A write that is next in the cycle: the event that the register's write is. -/
def State.writeReg (priv p ia : Nat) (v : Word) (s : State) : Host.Outcome State Fault Refusal :=
  match regOf ia with
  | some (.slice n 0) => execWaypartWrite n v s
  | some (.cal f o) => if 0x80 ≤ o ∧ o < 0xC0 then execTallowWrite (8 * f + (o - 0x80) / 8) v s else execRegisterWrite priv p ia v s
  | some (.pair n 0) => execAcfgWrite n v s
  | some (.flash n 0x90) => execInjectWrite n v s
  | some (.queue p q o) => execQueueConfigWrite p q o v s
  | some (.sq p 0x10) => execSqheadWrite p v s
  | some (.ctl q o) =>
    if o = 0x20 then execPreset q v s
    else if o = 0x40 then execStart q v s
    else if o = 0x78 then execMsgheadWrite q v s
    else execRegisterWrite priv p ia v s
  | _ => execRegisterWrite priv p ia v s

end Sys2Proof.Machine
end

