-- ==== Sys2Proof/Machine/Platform.lean ====
section
/-! DEFINITION. The host link and its mailboxes, cold start, trust, warm reset, sensors, power, droops and the lifetime
log (R427 to R448). -/

namespace Sys2Proof.Machine

/-! ## CXL.mem (R428) -/

/-- The number by which the events name the fabric-manager-owned logical device. -/
def fmLd : Nat := 16

/-- An answer of the host link: its bytes and return code. -/
def State.answer (s : State) (rc : Nat) (bs : List Byte) : State := s.onPlat fun y => { y with reply := bs, rc := rc }

/-- A rejected access: CXL poison, and one more in HREJ. -/
def State.reject (s : State) : State := (s.answer 1 []).onPlat fun y => { y with hrej := sat32 y.hrej }

/-- Bytes of region 0x9 lie within the staging size of their slice (R182). -/
def State.inStaging (s : State) (ia n : Nat) : Bool :=
  iaRegion ia != 9 || (stagingOf ia).2 + n ≤ stageSize (s.slice (stagingOf ia).1).w

/-- Logical device `ld` may reach these bytes of regions 0x0 to 0xB. -/
def State.hostMem (s : State) (ld ia n : Nat) : Bool :=
  s.plat.boot == .running && ld < 16 && n != 0 && ia + n ≤ 2 ^ 52 && iaRegion (ia + n - 1) == iaRegion ia &&
    (iaRegion ia ≤ 8 ||
      (iaRegion ia ≤ 0xB && s.inStaging ia n && iaForm ia && iaForm (ia + n - 1) && s.owns ld (deviceFace ia) && s.owns ld (deviceFace (ia + n - 1))))

/-- The register that logical device `ld` reaches at an address, with the privilege and partition of the access: its
partition's control block, or the platform registers for the FM LD (R428, R445). -/
def State.hostReg (s : State) (ld ia n : Nat) : Option (Reg × Nat × Nat) :=
  if s.plat.boot ≠ .running ∨ (n ≠ 4 ∧ n ≠ 8) ∨ ia % n ≠ 0 then none
  else match regOf ia with
    | some (.ctl p o) => if p = ld then some (.ctl p o, 1, p) else none
    | some (.plat o) => if ld = fmLd then some (.plat o, 2, 0) else none
    | _ => none

/-- The request of a host access. -/
def hostReq (ld ia : Nat) : Req := engineReq (iaRegion ia % 8) ld

def execHostRead (ld o n : Nat) (s : State) : Host.Outcome State Fault Refusal :=
  match s.hostReg ld o n with
  | some (r, priv, p) =>
    .next (if s.regReadable priv p r then s.answer 0 (leBytes n (s.cfgLoad o n).toNat) else s.reject)
  | none =>
    if s.hostMem ld o n then
      match s.readBytes (hostReq ld o) o n with
      | (.ok bs, s) => .next (s.answer 0 bs)
      | (.error _, s) => .next s.reject
    else .next s.reject

def execHostWrite (ld o : Nat) (bs : List Byte) (s : State) : Host.Outcome State Fault Refusal :=
  match s.hostReg ld o bs.length with
  | some (r, priv, p) =>
    .next (if s.regWriteCheck priv p r (highHalf o bs.length) = .ok then
        (s.cfgStore priv p o bs.length (BitVec.ofNat 64 (leNat bs))).answer 0 []
      else s.reject)
  | none =>
    if s.hostMem ld o bs.length then
      -- a rejected write is discarded whole
      match s.writeBytes (hostReq ld o) o bs with
      | (none, t) => .next (t.answer 0 [])
      | (some _, _) => .next s.reject
    else .next s.reject

/-- The block whose coat lies at an HDM offset. -/
def coatIa (o : Nat) : Option Nat := if 2 ^ 52 ≤ o ∧ o % 2 = 0 ∧ o < 2 ^ 52 + 2 ^ 47 then some ((o - 2 ^ 52) / 2 * 64) else none

def execHostCoatRead (ld o : Nat) (s : State) : Host.Outcome State Fault Refusal :=
  match (coatIa o).filter fun ia => s.hostMem ld ia 64 with
  | none => .next s.reject
  | some ia =>
    match s.iaRead (hostReq ld ia) ia with
    | (.ok b, s) => .next (s.answer 0 (leBytes 2 b.coat.toNat))
    | (.fail _, s) => .next s.reject

def execHostCoatWrite (ld o : Nat) (v : Coat) (s : State) : Host.Outcome State Fault Refusal :=
  match (coatIa o).filter fun ia => s.hostMem ld ia 64 with
  | none => .next s.reject
  | some ia =>
    match s.iaWrite (hostReq ld ia) ia (BWrite.coatOnly v) with
    | (none, s) => .next (s.answer 0 [])
    | (some _, s) => .next s.reject

/-! ## The mailbox (R431) -/

/-- Return codes of CXL: Unsupported and Invalid Input. -/
def rcUnsupported : Nat := 0x15
def rcInvalid : Nat := 0x02

/-- The frame of a mailbox command: only the FM LD may send those of `fmOnly`, and only those of `minimal` are served in
minimal mode. Firmware does not run before step 3 of the start, nor after a trip. -/
def mailbox (fmOnly minimal : Bool) (ld : Nat) (body : State → State) (s : State) : Host.Outcome State Fault Refusal :=
  match s.plat.boot with
  | .off => .next s
  | .tripped => .next s
  | .minimal => .next (if minimal && ld ≤ fmLd && (!fmOnly || ld == fmLd) then body s else s.answer rcUnsupported [])
  | _ => .next (if ld ≤ fmLd && (!fmOnly || ld == fmLd) then body s else s.answer rcUnsupported [])

/-- A command whose payload the manual only names. -/
def State.answerFree (s : State) (opcode : Nat) : State := (s.answer 0 (Config.mailboxPayload opcode s.fresh)).bump

def execGetEventRecords (ld : Nat) (s : State) : Host.Outcome State Fault Refusal :=
  mailbox false false ld (fun s => s.answer 0 (Config.eventPayload s.plat.timestamp s.plat.events)) s

def execGetFwInfo (ld : Nat) (s : State) : Host.Outcome State Fault Refusal :=
  mailbox false true ld (fun s => s.answerFree 0x0200) s

/-- The image carries the fused key, and its signature verifies over its digest (R432). -/
def imageVerifies (image : List Byte) : Bool :=
  shake256 (Config.imageKey image) == Config.keyHash && Config.falconVerifies image (shake256 image)

/-- The image is checked as at a start; one that fails is refused (R434). -/
def execTransferFw (ld : Nat) (image : List Byte) (s : State) : Host.Outcome State Fault Refusal :=
  mailbox true true ld (fun s =>
    if imageVerifies image then (s.onPlat fun y => { y with newImage := some image }).answer 0 []
    else s.answer rcInvalid []) s

/-- The checked image is written, which takes time, and FAILS becomes 0 (R434, R435). -/
def execActivateFw (ld : Nat) (s : State) : Host.Outcome State Fault Refusal :=
  mailbox true true ld (fun s =>
    match s.plat.newImage with
    | none => s.answer rcInvalid []
    | some image =>
      ((s.onPlat fun y =>
        { y with image := image, newImage := none, fails := 0, imageWhole := true
                 imageDone := s.cycle + 1 + Config.flashTime s.fresh }).answer 0 []).bump) s

def execGetSupportedLogs (ld : Nat) (s : State) : Host.Outcome State Fault Refusal :=
  mailbox false true ld (fun s => s.answerFree 0x0400) s

/-- The lifetime log is log 0, which only the FM LD may get (R446). -/
def lifetimeLogId : Nat := 0

/-- The lifetime log as Get Log returns it: its sections in their order (R446). -/
def State.lifetimeReply (s : State) : List Byte := s.lifetimeLog.zipIdx.flatMap fun (l, k) => Config.logSection k l

def execGetLog (ld log : Nat) (s : State) : Host.Outcome State Fault Refusal :=
  mailbox (log == lifetimeLogId) true ld (fun s =>
    s.answer 0 (if log = lifetimeLogId then s.lifetimeReply else Config.logPayload log)) s

/-- Identify Memory Device, which the link answers even after a trip (R442). -/
def execIdentifyMemoryDevice (ld : Nat) (s : State) : Host.Outcome State Fault Refusal :=
  if s.plat.boot = .tripped then .next (s.answerFree 0x4000)
  else mailbox false true ld (fun s => s.answerFree 0x4000) s

def execGetHealthInfo (ld : Nat) (s : State) : Host.Outcome State Fault Refusal :=
  mailbox false false ld (fun s => s.answerFree 0x4200) s

/-! ## Measurement and attestation (R436, R437) -/

def Platform.measBytes (y : Platform) (i : Nat) : List Byte := leBytes 64 (Tbl.look y.meas i 0).toNat

/-- The extend operation of a MEAS register. -/
def Platform.extend (y : Platform) (i : Nat) (data : List Byte) : Platform :=
  { y with meas := Tbl.put y.meas i (shake256 (y.measBytes i ++ data)) }

/-- Bytes 0x000 to 0x247 of the report. -/
def State.reportBody (s : State) (nonce : List Byte) : List Byte :=
  leBytes 8 0x000154504541 ++ leBytes 8 s.gtc ++ leBytes 8 Config.serial.toNat ++ leBytes 8 0 ++ nonce ++
    ((List.range 8).map s.plat.measBytes).flatten ++ leBytes 8 s.plat.bootcause

/-- The signed report. -/
def State.report (s : State) (nonce : List Byte) : List Byte :=
  let body := s.reportBody nonce
  let sig := (Config.falconSign body).take 1280
  body ++ leBytes 8 sig.length ++ sig

def execAttest (ld : Nat) (nonce : List Byte) (s : State) : Host.Outcome State Fault Refusal :=
  mailbox false true ld (fun s => if nonce.length = 32 then s.answer 0 (s.report nonce) else s.answer rcInvalid []) s

def execGetidkey (ld : Nat) (s : State) : Host.Outcome State Fault Refusal :=
  mailbox false true ld (fun s => s.answer 0 Config.identityKey) s

/-- EXTEND takes an index from 2 to 7 and up to 1 KiB. -/
def execExtend (ld i : Nat) (data : List Byte) (s : State) : Host.Outcome State Fault Refusal :=
  mailbox true false ld (fun s =>
    if 2 ≤ i ∧ i ≤ 7 ∧ data.length ≤ 1024 then (s.onPlat fun y => y.extend i data).answer 0 []
    else s.answer rcInvalid []) s

/-- Firmware pre-empts a context of the logical device's partition, or any for the FM LD. The command completes when the
PREEMPTED message has been written, or the message of a stop that is already going on (log 114); for a HALTED context it completes
with no effect (R417). -/
def execPreempt (ld c : Nat) (s : State) : Host.Outcome State Fault Refusal :=
  mailbox false false ld (fun s =>
    if 2047 < c then s.answer rcInvalid []
    else if ld ≠ fmLd ∧ s.ownerOf (faceOf (coreOf c)) ≠ some ld then s.answer rcUnsupported []
    else if (s.ctx c).run = .halted then (s.requestStop c 3).answer 0 []
    else (s.requestStop c 3).onPlat fun y => { y with preempts := y.preempts ++ [c] }) s

def execPowercap (ld watts : Nat) (s : State) : Host.Outcome State Fault Refusal :=
  mailbox true false ld (fun s => (s.onPlat fun y => { y with plimit := max 1200 (min 3600 watts) }).answer 0 []) s

def execSetTimestamp (ld : Nat) (t : Word) (s : State) : Host.Outcome State Fault Refusal :=
  mailbox false false ld (fun s => (s.onPlat fun y => { y with timestamp := t }).answer 0 []) s

def execUnsupported (ld _opcode : Nat) (s : State) : Host.Outcome State Fault Refusal :=
  mailbox false true ld (fun s => s.answer rcUnsupported []) s

/-! ## Cold start (R429, R432 to R435) -/

/-- Why a start has failed (R433). -/
def causeSIGFAIL : Nat := 0x10
def causeIMAGEREAD : Nat := 0x11
def causeTIMEOUT : Nat := 0x12
def causeREPAIR : Nat := 0x13
def causeTHERMTRIP : Nat := 0x14
def causeMINIMAL : Nat := 0x20

/-- What a flash stack keeps without power: its data and the layer's tables (R301, R302); its registers are reset. -/
def Flash.unpowered (f : Flash) : Flash :=
  { map := f.map, blocks := f.blocks, openHost := f.openHost, openOwn := f.openOwn, relocQ := f.relocQ, relocWait := f.relocWait
    spareUsed := f.spareUsed, grown := f.grown, lifeEnd := f.lifeEnd, syslog := f.syslog }

/-- Factory bad-block marks are read at the first start (R302). -/
def Flash.readMarks (f : Flash) (n : Nat) : Flash :=
  { f with blocks := ((List.range 36864).filter (Config.factoryBad n)).foldl (fun t b =>
      Tbl.put t b { Tbl.look t b {} with bad := true }) f.blocks }

def State.readMarks (s : State) : State := (List.range 8).foldl (fun s n => s.onStack n fun f => f.readMarks n) s

/-- The package as it is when power comes: every register at its reset value, every memory but flash clear (R429); the
security processor's flash keeps FAILS, the image and the log. GTC begins at 0 (R440). -/
def State.powerOn (s : State) : State :=
  let y := s.plat
  { State.reset with
    todo := []
    agenda := (s.agenda.filter fun t => s.cycle < t.due && t.ev != .startok && t.ev != .startTimeout).map fun t =>
      { t with due := t.due - s.cycle }
    fresh := s.fresh
    mem := s.mem.filter fun c => 2 ^ 48 ≤ c.1
    coats := s.coats.filter fun c => 2 ^ 42 ≤ c.1
    flash := s.flash.map fun (n, f) => (n, f.unpowered)
    plat := { starts := y.starts, fails := y.fails, lastfail := y.lastfail, image := y.image
              imageWhole := y.imageWhole && y.imageDone ≤ s.cycle, records := y.records
              cause := if y.boot = .tripped then causeTHERMTRIP else 0 } }

/-- A start ends with this cause, which the log keeps. -/
def State.startFails (s : State) (cause : Nat) : State :=
  (s.onPlat fun y => { y with boot := .off, cause := cause, lastfail := cause }).logEntry 6 [cause]

/-- Firmware repairs the vertical buses and writes the repair record of each die (R432). -/
def Platform.writeRecords (y : Platform) (n : Nat) : Platform :=
  let lanes (d : Nat) : List Byte := Config.repairLanes n d
  { y with records := (List.range 4).map fun d => (d, { version := Config.recordVersion, lanes := lanes d, check := crc32c (lanes d) })
           soft := (List.range 4).map fun d => (d, lanes d) }

/-- A repair record as bytes. -/
def RepairRecord.bytes (r : RepairRecord) : List Byte := leBytes 4 r.version ++ r.lanes ++ leBytes 4 r.check

/-- Steps 1 to 4 of a cold start; STARTOK follows, or the 30 s run out. -/
def State.boot (s : State) : State :=
  let n := s.plat.starts
  let s := if n = 0 then s.readMarks else s
  let s := s.onPlat fun y => { y with starts := n + 1, fails := min 4 (y.fails + 1) }
  if 3 < s.plat.fails then s.onPlat fun y => { y with boot := .minimal, cause := causeMINIMAL }
  else if Config.imageUnreadable n then s.startFails causeIMAGEREAD
  else if !(s.plat.imageWhole && imageVerifies s.plat.image) then s.startFails causeSIGFAIL
  else
    let s := s.onPlat fun y => { y with meas := [(0, shake256 y.image)] }
    if Config.repairFails n then s.startFails causeREPAIR
    else
      let s := s.onPlat fun y =>
        let y := y.writeRecords n
        { (y.extend 1 ((y.records.flatMap fun r => r.2.bytes) ++ Config.partitionImage n)) with boot := .starting }
      (s.schedule (1 + Config.startTime n) srcMgmt .startok).schedule 54000000000 srcMgmt .startTimeout

/-- Power has been applied. -/
def execColdStart (s : State) : Host.Outcome State Fault Refusal := .next s.powerOn.boot

/-- The program/erase histogram of a stack: each count that a block not marked bad stands at, ascending, and the number of such
blocks (R446). -/
def Flash.peHistogram (f : Flash) (n : Nat) : List Nat :=
  let counts := f.goodBlocks.map (f.blockPe n)
  (List.range (f.maxPe n + 1)).flatMap fun k =>
    let m := (counts.filter fun c => c == k).length
    if m = 0 then [] else [k, m]

/-- Every hour, at each start and at each logged event firmware appends what the log keeps; here the counts of its
sections 0 to 5 (R446). -/
def State.appendLog (s : State) : State :=
  let soft := s.pairs.foldl (fun t p => t + p.2.secc + p.2.sunc) (s.slices.foldl (fun t x => t + x.2.secc + x.2.sunc) 0)
  let s := (List.range 8).foldl (fun s n => s.logEntry 0 (n :: (s.stack n).peHistogram n)) s
  let s := (List.range 8).foldl (fun s n => s.logEntry 1 [n, s.flashRead n 0x10]) s
  let s := (List.range 8).foldl (fun s n => s.logEntry 2 (n :: (List.range 4).map fun i => s.flashRead n (0x48 + 8 * i))) s
  let s := (List.range 8).foldl (fun s n => s.logEntry 3 [n, Config.hbmCorrections n s.gtc]) s
  let s := s.logEntry 4 [soft]
  (List.range 296).foldl (fun s i =>
    s.logEntry 5 ((0x400 + i) :: (List.range 21).map fun b => Config.bandTime (0x400 + i) b s.gtc)) s

def execLogAppend (s : State) : Host.Outcome State Fault Refusal := .next s.appendLog

/-- Step 5: the logical devices accept CXL.mem from now on. -/
def execStartok (s : State) : Host.Outcome State Fault Refusal :=
  if s.plat.boot = .starting then
    .next ((s.onPlat fun y => { y with boot := .running, fails := 0 }).then .logAppend)
  else .next s

/-- STARTOK has not come within 30 s of step 3. -/
def execStartTimeout (s : State) : Host.Outcome State Fault Refusal :=
  if s.plat.boot = .starting ∧ 30000000000 ≤ s.gtc then .next (s.startFails causeTIMEOUT) else .next s

/-! ## Warm reset (R438) -/

/-- Every block of a run of places gets coat 0xFF. -/
def State.spoil (s : State) (lo bytes : Nat) : State :=
  { s with coats := (List.range (bytes / 64)).foldl (fun t i => coatPut t (lo + 64 * i) 0x00FF) s.coats }

/-- The retained region of a die: its scratchpads, weight-bank halves and staging ways; its landing slots are empty. -/
def State.spoilDie (s : State) (d : Nat) : State :=
  let s := s.spoil (scratchPlace (64 * d) 0) (64 * 2 ^ 21)
  let s := s.spoil (wbankPlace (64 * d) false 0) (128 * 2 ^ 24)
  (List.range 384).foldl (fun s i => s.spoil (stagingPlace (384 * d + i) 0) (0x10000 * (16 - (s.slice (384 * d + i)).w))) s

/-- The repair record of a die as firmware reads it at warm reset `n` has the version and the CRC-32C that it should. -/
def RepairRecord.valid (r : RepairRecord) (n d : Nat) : Bool :=
  (r.version ^^^ Config.recordVersionDamage n d) == Config.recordVersion &&
    (r.check ^^^ Config.recordCheckDamage n d) == crc32c r.lanes

/-- A valid record goes to the soft-repair registers; a die without one runs on its default lanes and loses its retained region.
The outcome is logged. -/
def State.repairDie (s : State) (n d : Nat) : State :=
  match (Tbl.find s.plat.records d).filter fun r => r.valid n d with
  | some r => (s.onPlat fun y => { y with soft := Tbl.put y.soft d r.lanes }).logEntry 7 [d, 1]
  | none => (s.spoilDie d).logEntry 7 [d, 0]

/-- A warm reset: partitions, slices, soft-repair registers and repair records; the accumulators keep what they hold (R225,
R405). -/
def State.warmReset (s : State) : State :=
  let s := (List.range 16).foldl (fun s p => (s.resetPart p).onPart p fun q => { q with rbusy := false }) s
  let s := s.lines.foldl (fun s (key, ln) => if ln.dirty then s.writeBack key ln else s) s
  let s := { s with lines := [], plat := { s.plat with soft := [] } }
  let n := s.fresh
  ((List.range 4).foldl (fun s d => s.repairDie n d) s.bump).onPlat fun y => { y with cause := 0x01 }

def execWreset (ld : Nat) (s : State) : Host.Outcome State Fault Refusal :=
  mailbox true false ld (fun s => s.warmReset.answer 0 []) s

def execConventionalReset (s : State) : Host.Outcome State Fault Refusal :=
  .next (if s.plat.boot = .running then s.warmReset else s)

/-! ## Sensors and power (R442 to R444, R448) -/

/-- Kinds of event records: a weight layer, a face, a trip, a droop. -/
def State.postEvent (s : State) (kind : Nat) : State := s.onPlat fun y => { y with events := y.events ++ [(kind, s.gtc)] }

def State.allowOf (s : State) (p : Nat) : Nat := (s.face (p / 8)).allow (p % 8)

/-- The reading of a sensor, by its number in R441. -/
def State.temp (s : State) (n : Nat) : Nat := Config.temperature n s.gtc

/-- The sensors of a face: its own, and the weight layers of its pairs (R442). -/
def faceSensors (f : Nat) : List Nat := (0x500 + f) :: (List.range 8).map fun i => 0x400 + 8 * f + i

/-- Every sensor of the package. -/
def allSensors : List Nat := (List.range 0x128).map fun i => 0x400 + i

/-- The weight layer of pair `p` has reached 85 °C. -/
def execDoubleRefreshEntry (p : Nat) (s : State) : Host.Outcome State Fault Refusal :=
  if (s.face (p / 8)).dblref.getLsbD (p % 8) || s.temp (0x400 + p) < 85 then .next s
  else
    let v := s.allowOf p
    .next (((s.onFace (p / 8) fun f =>
      { f with dblref := f.dblref ||| BitVec.ofNat 8 (2 ^ (p % 8)), tsaved := Tbl.put f.tsaved (p % 8) v }).setAllow p
        (min v 8)).postEvent 1)

/-- It has fallen below 80 °C: ALLOW is restored, within what a throttled face leaves (its saved value, R442). -/
def execDoubleRefreshExit (p : Nat) (s : State) : Host.Outcome State Fault Refusal :=
  let f := s.face (p / 8)
  if !f.dblref.getLsbD (p % 8) || 80 ≤ s.temp (0x400 + p) then .next s
  else
    .next ((s.onFace (p / 8) fun f =>
      { f with dblref := f.dblref &&& ~~~(BitVec.ofNat 8 (2 ^ (p % 8))), tsaved := Tbl.del f.tsaved (p % 8) }).setAllow p
        (Tbl.look f.tsaved (p % 8) 64))

/-- A sensor of face `f` has reached 95 °C: no pair keeps more than 32. A pair in double refresh returns to at most 32
while the face is hot. -/
def execFaceThrottle (f : Nat) (s : State) : Host.Outcome State Fault Refusal :=
  let x := s.face f
  if x.throttled || !((faceSensors f).any fun n => 95 ≤ s.temp n) then .next s
  else
    let hot (i : Nat) : Bool := x.dblref.getLsbD i
    let old (i : Nat) : Nat := if hot i then Tbl.look x.tsaved i 64 else x.allow i
    let s := s.onFace f fun x =>
      { x with
        throttled := true
        fsaved := (List.range 8).map fun i => (i, old i)
        tsaved := x.tsaved.map fun (i, v) => (i, min v 32) }
    .next (((List.range 8).foldl (fun s i => s.setAllow (8 * f + i) (min (x.allow i) 32)) s).postEvent 2)

/-- Every sensor of the face is below 90 °C: each pair's former value returns, or awaits the end of its double
refresh. -/
def execFaceThrottleEnd (f : Nat) (s : State) : Host.Outcome State Fault Refusal :=
  let x := s.face f
  if !x.throttled || (faceSensors f).any (fun n => 90 ≤ s.temp n) then .next s
  else
    let s := s.onFace f fun x =>
      { x with
        throttled := false
        fsaved := []
        tsaved := x.tsaved.map fun (i, _) => (i, Tbl.look x.fsaved i 64) }
    .next ((List.range 8).foldl (fun s i =>
      if x.dblref.getLsbD i then s else s.setAllow (8 * f + i) (Tbl.look x.fsaved i 64)) s)

/-- What a temperature asks for (R442, R448). -/
def execThermal (k n : Nat) (s : State) : Host.Outcome State Fault Refusal :=
  match k with
  | 0 => execDoubleRefreshEntry n s
  | 1 => execDoubleRefreshExit n s
  | 2 => execFaceThrottle n s
  | _ => execFaceThrottleEnd n s

/-- Any sensor has reached 105 °C: every clock stops until the next cold start. -/
def execThermtrip (s : State) : Host.Outcome State Fault Refusal :=
  if !(allSensors.any fun n => 105 ≤ s.temp n) then .next s
  else .next { (s.postEvent 3).onPlat fun y => { y with boot := .tripped } with todo := [] }

/-- The bound to which firmware may raise a pair's allowance: what is in force, and what the readings of this moment ask for
(R442, R448). -/
def State.allowBound (s : State) (p : Nat) : Nat :=
  let f := s.face (p / 8)
  if f.dblref.getLsbD (p % 8) || 85 ≤ s.temp (0x400 + p) then 8
  else if f.throttled || (faceSensors (p / 8)).any fun n => 95 ≤ s.temp n then 32
  else 64

/-- A millisecond begins in this cycle. -/
def State.milliStart (s : State) : Bool := s.cycle != 0 && s.gtc / 1000000 != (s.cycle - 1) * 5 / 9 / 1000000

/-- A microsecond begins in this cycle. -/
def State.microStart (s : State) : Bool := s.cycle != 0 && s.gtc / 1000 != (s.cycle - 1) * 5 / 9 / 1000

/-- A face is put among others, the hotter first. -/
def insHot (temp : Nat → Nat) (f : Nat) : List Nat → List Nat
  | [] => [f]
  | g :: t => if temp g < temp f then f :: g :: t else g :: insHot temp f t

/-- The faces, the hottest first by their own sensors. -/
def State.hotFaces (s : State) : List Nat := (List.range 32).foldl (fun l f => insHot (fun g => s.temp (0x500 + g)) f l) []

/-- What a pair gets back when its double refresh or its face's throttling ends is lowered with its allowance; it is never raised
(R443, R448; DESIGN CHOICE, log 96). -/
def Face.powerSaved (f : Face) (g : Nat → Nat) : Face :=
  { f with tsaved := f.tsaved.map fun (i, v) => (i, g v), fsaved := f.fsaved.map fun (i, v) => (i, g v) }

/-- Firmware compares PWR with PLIMIT and lowers or raises every allowance by 4, beginning with the hottest face. -/
def State.powerStep (s : State) : State :=
  let w := s.platRead 0x010
  let lim := s.plat.plimit
  let pairs := s.hotFaces.flatMap fun f => (List.range 8).map fun i => 8 * f + i
  let lower (v : Nat) : Nat := if v ≤ 8 then v else max 8 (v - 4)
  if lim < w then
    pairs.foldl (fun s p => s.setAllow p (lower (s.allowOf p)))
      ((List.range 32).foldl (fun s f => s.onFace f fun x => x.powerSaved lower) s)
  else if 100 * w < 95 * lim then
    pairs.foldl (fun s p =>
      let b := s.allowBound p
      if b ≤ s.allowOf p then s else s.setAllow p (min b (s.allowOf p + 4))) s
  else s

def execPowerCheck (s : State) : Host.Outcome State Fault Refusal :=
  .next (if s.milliStart ∧ s.plat.boot = .running then s.powerStep else s)

/-- A supply droop on a face: one that comes while DVALID is 1 is only counted. -/
def execDroop (f : Nat) (s : State) : Host.Outcome State Fault Refusal :=
  .next (s.onFace f fun x =>
    if x.dvalid then { x with dcount := min (x.dcount + 1) 65535 }
    else
      { x with dvalid := true, dgtc := s.gtcWord, dpc := (List.range 16).map fun i => (i, (s.core (16 * f + i)).last) })

end Sys2Proof.Machine
end

