-- ==== Sys2Proof/Machine/Dispatch.lean ====
section
/-! DEFINITION. The one match over the constructors of Instr: each arm is one direct call of its meaning. -/

namespace Sys2Proof
namespace Machine

def exec (i : Instr) (s : State) : Host.Outcome State Fault Refusal :=
  match i with
  | .nop => Sys2Proof.Machine.execNop s
  | .pfx p => Sys2Proof.Machine.execPfx p s
  | .add d a b p => Sys2Proof.Machine.execAdd d a b p s
  | .addi d a im => Sys2Proof.Machine.execAddi d a im s
  | .sub d a b p => Sys2Proof.Machine.execSub d a b p s
  | .mul d a b p => Sys2Proof.Machine.execMul d a b p s
  | .mulh d a b p => Sys2Proof.Machine.execMulh d a b p s
  | .mulhu d a b p => Sys2Proof.Machine.execMulhu d a b p s
  | .div d a b p => Sys2Proof.Machine.execDiv d a b p s
  | .divu d a b p => Sys2Proof.Machine.execDivu d a b p s
  | .rem d a b p => Sys2Proof.Machine.execRem d a b p s
  | .remu d a b p => Sys2Proof.Machine.execRemu d a b p s
  | .and d a b p => Sys2Proof.Machine.execAnd d a b p s
  | .andi d a im => Sys2Proof.Machine.execAndi d a im s
  | .or d a b p => Sys2Proof.Machine.execOr d a b p s
  | .ori d a im => Sys2Proof.Machine.execOri d a im s
  | .xor d a b p => Sys2Proof.Machine.execXor d a b p s
  | .xori d a im => Sys2Proof.Machine.execXori d a im s
  | .shl d a b p => Sys2Proof.Machine.execShl d a b p s
  | .shli d a n => Sys2Proof.Machine.execShli d a n s
  | .shr d a b p => Sys2Proof.Machine.execShr d a b p s
  | .shri d a n => Sys2Proof.Machine.execShri d a n s
  | .sra d a b p => Sys2Proof.Machine.execSra d a b p s
  | .srai d a n => Sys2Proof.Machine.execSrai d a n s
  | .min d a b p => Sys2Proof.Machine.execMin d a b p s
  | .max d a b p => Sys2Proof.Machine.execMax d a b p s
  | .minu d a b p => Sys2Proof.Machine.execMinu d a b p s
  | .maxu d a b p => Sys2Proof.Machine.execMaxu d a b p s
  | .clz d a p => Sys2Proof.Machine.execClz d a p s
  | .popc d a p => Sys2Proof.Machine.execPopc d a p s
  | .clmul d a b p => Sys2Proof.Machine.execClmul d a b p s
  | .clmulh d a b p => Sys2Proof.Machine.execClmulh d a b p s
  | .sel d a b n => Sys2Proof.Machine.execSel d a b n s
  | .cmp q a b p c => Sys2Proof.Machine.execCmp q a b p c s
  | .cmpi q c a im => Sys2Proof.Machine.execCmpi q c a im s
  | .li d im => Sys2Proof.Machine.execLi d im s
  | .plog q a b p f => Sys2Proof.Machine.execPlog q a b p f s
  | .pget d p => Sys2Proof.Machine.execPget d p s
  | .pput a p => Sys2Proof.Machine.execPput a p s
  | .mfsr d r => Sys2Proof.Machine.execMfsr d r s
  | .mtsr a r => Sys2Proof.Machine.execMtsr a r s
  | .fadds d a b p => Sys2Proof.Machine.execFadds d a b p s
  | .fsubs d a b p => Sys2Proof.Machine.execFsubs d a b p s
  | .fmuls d a b p => Sys2Proof.Machine.execFmuls d a b p s
  | .fmas d a b p => Sys2Proof.Machine.execFmas d a b p s
  | .fmins d a b p => Sys2Proof.Machine.execFmins d a b p s
  | .fmaxs d a b p => Sys2Proof.Machine.execFmaxs d a b p s
  | .fcmps q a b p c => Sys2Proof.Machine.execFcmps q a b p c s
  | .fcvts d a p k => Sys2Proof.Machine.execFcvts d a p k s
  | .br p o => Sys2Proof.Machine.execBr p o s
  | .call p o => Sys2Proof.Machine.execCall p o s
  | .jr a p => Sys2Proof.Machine.execJr a p s
  | .loop p o => Sys2Proof.Machine.execLoop p o s
  | .loopset a b p => Sys2Proof.Machine.execLoopset a b p s
  | .loopseti e im => Sys2Proof.Machine.execLoopseti e im s
  | .vaddF p d a b => Sys2Proof.Machine.execVaddF p d a b s
  | .vsubF p d a b => Sys2Proof.Machine.execVsubF p d a b s
  | .vmulF p d a b => Sys2Proof.Machine.execVmulF p d a b s
  | .vfmaF p d a b => Sys2Proof.Machine.execVfmaF p d a b s
  | .vmaxF p d a b => Sys2Proof.Machine.execVmaxF p d a b s
  | .vminF p d a b => Sys2Proof.Machine.execVminF p d a b s
  | .vabsF p d a m => Sys2Proof.Machine.execVabsF p d a m s
  | .vexp2 p d a b => Sys2Proof.Machine.execVexp2 p d a b s
  | .vrcp p d a => Sys2Proof.Machine.execVrcp p d a s
  | .vrsq p d a => Sys2Proof.Machine.execVrsq p d a s
  | .vaddI p d a b => Sys2Proof.Machine.execVaddI p d a b s
  | .vsubI p d a b => Sys2Proof.Machine.execVsubI p d a b s
  | .vmulI p d a b => Sys2Proof.Machine.execVmulI p d a b s
  | .vmaxI p d a b => Sys2Proof.Machine.execVmaxI p d a b s
  | .vminI p d a b => Sys2Proof.Machine.execVminI p d a b s
  | .vand p d a b => Sys2Proof.Machine.execVand p d a b s
  | .vor p d a b => Sys2Proof.Machine.execVor p d a b s
  | .vxor p d a b => Sys2Proof.Machine.execVxor p d a b s
  | .vshl p d a b => Sys2Proof.Machine.execVshl p d a b s
  | .vshr p d a b => Sys2Proof.Machine.execVshr p d a b s
  | .vsra p d a b => Sys2Proof.Machine.execVsra p d a b s
  | .vcmpf p d a b c => Sys2Proof.Machine.execVcmpf p d a b c s
  | .vcmpi p d a b c => Sys2Proof.Machine.execVcmpi p d a b c s
  | .vsel p d a b => Sys2Proof.Machine.execVsel p d a b s
  | .vdot4 p d a b => Sys2Proof.Machine.execVdot4 p d a b s
  | .vdot4u p d a b => Sys2Proof.Machine.execVdot4u p d a b s
  | .vaddsF p d a b => Sys2Proof.Machine.execVaddsF p d a b s
  | .vmulsF p d a b => Sys2Proof.Machine.execVmulsF p d a b s
  | .vfmasF p d a b => Sys2Proof.Machine.execVfmasF p d a b s
  | .vcmpu p d a b c => Sys2Proof.Machine.execVcmpu p d a b c s
  | .vaddiI p d a im => Sys2Proof.Machine.execVaddiI p d a im s
  | .vshifti p d a o n => Sys2Proof.Machine.execVshifti p d a o n s
  | .vmov p d a => Sys2Proof.Machine.execVmov p d a s
  | .vsplat p d b => Sys2Proof.Machine.execVsplat p d b s
  | .vidx p d m => Sys2Proof.Machine.execVidx p d m s
  | .rrot p d a n => Sys2Proof.Machine.execRrot p d a n s
  | .crot p d a n => Sys2Proof.Machine.execCrot p d a n s
  | .rbcst p d a k => Sys2Proof.Machine.execRbcst p d a k s
  | .cbcst p d a k => Sys2Proof.Machine.execCbcst p d a k s
  | .rred p d a o => Sys2Proof.Machine.execRred p d a o s
  | .cred p d a o => Sys2Proof.Machine.execCred p d a o s
  | .rscan p d a o => Sys2Proof.Machine.execRscan p d a o s
  | .vcvt p d a k => Sys2Proof.Machine.execVcvt p d a k s
  | .vget p d a im => Sys2Proof.Machine.execVget p d a im s
  | .vput p d a im => Sys2Proof.Machine.execVput p d a im s
  | .rrotv p d a b => Sys2Proof.Machine.execRrotv p d a b s
  | .vld p d a f b => Sys2Proof.Machine.execVld p d a f b s
  | .vst p d a f b => Sys2Proof.Machine.execVst p d a f b s
  | .vldt p l a f b => Sys2Proof.Machine.execVldt p l a f b s
  | .vland p d l => Sys2Proof.Machine.execVland p d l s
  | .sld p d a w x o => Sys2Proof.Machine.execSld p d a w x o s
  | .sst p d a w o => Sys2Proof.Machine.execSst p d a w o s
  | .slda p d a w st => Sys2Proof.Machine.execSlda p d a w st s
  | .sstr p d a w st => Sys2Proof.Machine.execSstr p d a w st s
  | .ctld p d a f b => Sys2Proof.Machine.execCtld p d a f b s
  | .ctst p d a f b => Sys2Proof.Machine.execCtst p d a f b s
  | .watch p a => Sys2Proof.Machine.execWatch p a s
  | .snooze p d a => Sys2Proof.Machine.execSnooze p d a s
  | .mark p st => Sys2Proof.Machine.execMark p st s
  | .cas p d a b st => Sys2Proof.Machine.execCas p d a b st s
  | .amoadd p d a b st => Sys2Proof.Machine.execAmoadd p d a b st s
  | .amoand p d a b st => Sys2Proof.Machine.execAmoand p d a b st s
  | .amoor p d a b st => Sys2Proof.Machine.execAmoor p d a b st s
  | .amoxor p d a b st => Sys2Proof.Machine.execAmoxor p d a b st s
  | .amomin p d a b st => Sys2Proof.Machine.execAmomin p d a b st s
  | .amomax p d a b st => Sys2Proof.Machine.execAmomax p d a b st s
  | .amominu p d a b st => Sys2Proof.Machine.execAmominu p d a b st s
  | .amomaxu p d a b st => Sys2Proof.Machine.execAmomaxu p d a b st s
  | .amoswap p d a b st => Sys2Proof.Machine.execAmoswap p d a b st s
  | .amofadd p d a b st => Sys2Proof.Machine.execAmofadd p d a b st s
  | .amofmin p d a b st => Sys2Proof.Machine.execAmofmin p d a b st s
  | .amofmax p d a b st => Sys2Proof.Machine.execAmofmax p d a b st s
  | .mma p c k g e f => Sys2Proof.Machine.execMma p c k g e f s
  | .mref p c g e f => Sys2Proof.Machine.execMref p c g e f s
  | .mlut p c g e f => Sys2Proof.Machine.execMlut p c g e f s
  | .mzero p c => Sys2Proof.Machine.execMzero p c s
  | .mldacc p c g e f => Sys2Proof.Machine.execMldacc p c g e f s
  | .mdrain p c g e f => Sys2Proof.Machine.execMdrain p c g e f s
  | .mfmt p g => Sys2Proof.Machine.execMfmt p g s
  | .mprog p d => Sys2Proof.Machine.execMprog p d s
  | .mresume p => Sys2Proof.Machine.execMresume p s
  | .wswap p g e f => Sys2Proof.Machine.execWswap p g e f s
  | .xtrn p d a => Sys2Proof.Machine.execXtrn p d a s
  | .xcvt p d a k => Sys2Proof.Machine.execXcvt p d a k s
  | .xpls p d a b => Sys2Proof.Machine.execXpls p d a b s
  | .xplm p d a b => Sys2Proof.Machine.execXplm p d a b s
  | .xfmt p g => Sys2Proof.Machine.execXfmt p g s
  | .cpy p t g x => Sys2Proof.Machine.execCpy p t g x s
  | .cpysl p t g x => Sys2Proof.Machine.execCpysl p t g x s
  | .cpymc p t g => Sys2Proof.Machine.execCpymc p t g s
  | .cpycan p t => Sys2Proof.Machine.execCpycan p t s
  | .coll p t g o => Sys2Proof.Machine.execColl p t g o s
  | .pcnt p d a => Sys2Proof.Machine.execPcnt p d a s
  | .pcancel p a => Sys2Proof.Machine.execPcancel p a s
  | .pcancelTag p t => Sys2Proof.Machine.execPcancelTag p t s
  | .whfetch p g h => Sys2Proof.Machine.execWhfetch p g h s
  | .whstat p d h => Sys2Proof.Machine.execWhstat p d h s
  | .whdrop p h => Sys2Proof.Machine.execWhdrop p h s
  | .sync st m => Sys2Proof.Machine.execSync st m s
  | .fset st c f a => Sys2Proof.Machine.execFset st c f a s
  | .fsetSelf st c f => Sys2Proof.Machine.execFsetSelf st c f s
  | .fclr st f a => Sys2Proof.Machine.execFclr st f a s
  | .fclrSelf st f => Sys2Proof.Machine.execFclrSelf st f s
  | .waitany st a => Sys2Proof.Machine.execWaitany st a s
  | .waitall st a => Sys2Proof.Machine.execWaitall st a s
  | .ffr st a d => Sys2Proof.Machine.execFfr st a d s
  | .pwait st a q => Sys2Proof.Machine.execPwait st a q s
  | .whwait st h q => Sys2Proof.Machine.execWhwait st h q s
  | .barrive st a c => Sys2Proof.Machine.execBarrive st a c s
  | .barwait st a b d => Sys2Proof.Machine.execBarwait st a b d s
  | .slk st n => Sys2Proof.Machine.execSlk st n s
  | .book st a d => Sys2Proof.Machine.execBook st a d s
  | .unbook st => Sys2Proof.Machine.execUnbook st s
  | .calq st a d => Sys2Proof.Machine.execCalq st a d s
  | .spawn st a d q => Sys2Proof.Machine.execSpawn st a d q s
  | .spawnW st a d q => Sys2Proof.Machine.execSpawnW st a d q s
  | .tdone st => Sys2Proof.Machine.execTdone st s
  | .tyield st => Sys2Proof.Machine.execTyield st s
  | .trap st c => Sys2Proof.Machine.execTrap st c s
  | .trapBrk st c => Sys2Proof.Machine.execTrapBrk st c s
  | .rft st a => Sys2Proof.Machine.execRft st a s
  | .halt st => Sys2Proof.Machine.execHalt st s
  | .ctxrun st a b => Sys2Proof.Machine.execCtxrun st a b s
  | .ctxstop st a => Sys2Proof.Machine.execCtxstop st a s
  | .contextStop c kind => Sys2Proof.Machine.execContextStop c kind s
  | .stopPoint p => Sys2Proof.Machine.execStopPoint p s
  | .resumeStart id => Sys2Proof.Machine.execResumeStart id s
  | .watchdog c => Sys2Proof.Machine.execWatchdog c s
  | .loadResult c id => Sys2Proof.Machine.execLoadResult c id s
  | .icacheFill core line => Sys2Proof.Machine.execIcacheFill core line s
  | .vldtLanded core slot => Sys2Proof.Machine.execVldtLanded core slot s
  | .snoozeTimeout c => Sys2Proof.Machine.execSnoozeTimeout c s
  | .barwaitTimeout c => Sys2Proof.Machine.execBarwaitTimeout c s
  | .tickStart f => Sys2Proof.Machine.execTickStart f s
  | .admission f => Sys2Proof.Machine.execAdmission f s
  | .taskStart f bid => Sys2Proof.Machine.execTaskStart f bid s
  | .issueend c => Sys2Proof.Machine.execIssueend c s
  | .unbooked c slot row => Sys2Proof.Machine.execUnbooked c slot row s
  | .slackExhausted c => Sys2Proof.Machine.execSlackExhausted c s
  | .slipTest p => Sys2Proof.Machine.execSlipTest p s
  | .thaw p => Sys2Proof.Machine.execThaw p s
  | .wratioChange f p => Sys2Proof.Machine.execWratioChange f p s
  | .ratioSwitch f p => Sys2Proof.Machine.execRatioSwitch f p s
  | .arrayStep p q => Sys2Proof.Machine.execArrayStep p q s
  | .macroopComplete p q => Sys2Proof.Machine.execMacroopComplete p q s
  | .weightSwap p => Sys2Proof.Machine.execWeightSwap p s
  | .swapDone p => Sys2Proof.Machine.execSwapDone p s
  | .acctFlush p => Sys2Proof.Machine.execAcctFlush p s
  | .copyChunk e => Sys2Proof.Machine.execCopyChunk e s
  | .copyComplete e id => Sys2Proof.Machine.execCopyComplete e id s
  | .cpymcWrite e id => Sys2Proof.Machine.execCpymcWrite e id s
  | .handleCommandAccept d => Sys2Proof.Machine.execHandleCommandAccept d s
  | .cardStart d => Sys2Proof.Machine.execCardStart d s
  | .codewordRead d => Sys2Proof.Machine.execCodewordRead d s
  | .planeLand d => Sys2Proof.Machine.execPlaneLand d s
  | .forwardedRead d => Sys2Proof.Machine.execForwardedRead d s
  | .promotion d => Sys2Proof.Machine.execPromotion d s
  | .promotionDone d => Sys2Proof.Machine.execPromotionDone d s
  | .sweep d => Sys2Proof.Machine.execSweep d s
  | .demotionDone d page => Sys2Proof.Machine.execDemotionDone d page s
  | .epochAdvance d => Sys2Proof.Machine.execEpochAdvance d s
  | .garbageCollection n => Sys2Proof.Machine.execGarbageCollection n s
  | .staticWearLevelling n => Sys2Proof.Machine.execStaticWearLevelling n s
  | .patrolRead n => Sys2Proof.Machine.execPatrolRead n s
  | .waypartDone st => Sys2Proof.Machine.execWaypartDone st s
  | .wb d p => Sys2Proof.Machine.execWb d p s
  | .wbinv d p => Sys2Proof.Machine.execWbinv d p s
  | .inv d p => Sys2Proof.Machine.execInv d p s
  | .maphbm d p => Sys2Proof.Machine.execMaphbm d p s
  | .maphbf d p => Sys2Proof.Machine.execMaphbf d p s
  | .unmap d p => Sys2Proof.Machine.execUnmap d p s
  | .pin d p => Sys2Proof.Machine.execPin d p s
  | .unpin d p => Sys2Proof.Machine.execUnpin d p s
  | .promote d p => Sys2Proof.Machine.execPromote d p s
  | .demote d p => Sys2Proof.Machine.execDemote d p s
  | .replicate d p => Sys2Proof.Machine.execReplicate d p s
  | .inval d p => Sys2Proof.Machine.execInval d p s
  | .dispatchStep d => Sys2Proof.Machine.execDispatchStep d s
  | .taskComplete d seq => Sys2Proof.Machine.execTaskComplete d seq s
  | .versionCommit d seq => Sys2Proof.Machine.execVersionCommit d seq s
  | .collJoin e id => Sys2Proof.Machine.execCollJoin e id s
  | .collAbsent k => Sys2Proof.Machine.execCollAbsent k s
  | .planeSend k m => Sys2Proof.Machine.execPlaneSend k m s
  | .planeLanding k m t j => Sys2Proof.Machine.execPlaneLanding k m t j s
  | .cancelProcess p => Sys2Proof.Machine.execCancelProcess p s
  | .senderStop k m => Sys2Proof.Machine.execSenderStop k m s
  | .collComplete k => Sys2Proof.Machine.execCollComplete k s
  | .presetDone p => Sys2Proof.Machine.execPresetDone p s
  | .l2cmdDone d => Sys2Proof.Machine.execL2cmdDone d s
  | .pgcmdDone d => Sys2Proof.Machine.execPgcmdDone d s
  | .relocation n => Sys2Proof.Machine.execRelocation n s
  | .machine parts => Sys2Proof.Machine.execMachine parts s
  | .programFail n b => Sys2Proof.Machine.execProgramFail n b s
  | .sramError place unc => Sys2Proof.Machine.execSramError place unc s
  | .peerPacket k m t j scale bits => Sys2Proof.Machine.execPeerPacket k m t j scale bits s
  | .peerlost k => Sys2Proof.Machine.execPeerlost k s
  | .injectWrite n v => Sys2Proof.Machine.execInjectWrite n v s
  | .waypartWrite st v => Sys2Proof.Machine.execWaypartWrite st v s
  | .tallowWrite p v => Sys2Proof.Machine.execTallowWrite p v s
  | .acfgWrite p v => Sys2Proof.Machine.execAcfgWrite p v s
  | .queueConfigWrite p q off v => Sys2Proof.Machine.execQueueConfigWrite p q off v s
  | .sqheadWrite p v => Sys2Proof.Machine.execSqheadWrite p v s
  | .msgheadWrite p v => Sys2Proof.Machine.execMsgheadWrite p v s
  | .start p v => Sys2Proof.Machine.execStart p v s
  | .preset p v => Sys2Proof.Machine.execPreset p v s
  | .registerWrite priv p ia v => Sys2Proof.Machine.execRegisterWrite priv p ia v s
  | .hostRead ld o n => Sys2Proof.Machine.execHostRead ld o n s
  | .hostWrite ld o bs => Sys2Proof.Machine.execHostWrite ld o bs s
  | .hostCoatRead ld o => Sys2Proof.Machine.execHostCoatRead ld o s
  | .hostCoatWrite ld o v => Sys2Proof.Machine.execHostCoatWrite ld o v s
  | .getEventRecords ld => Sys2Proof.Machine.execGetEventRecords ld s
  | .getFwInfo ld => Sys2Proof.Machine.execGetFwInfo ld s
  | .transferFw ld image => Sys2Proof.Machine.execTransferFw ld image s
  | .activateFw ld => Sys2Proof.Machine.execActivateFw ld s
  | .getSupportedLogs ld => Sys2Proof.Machine.execGetSupportedLogs ld s
  | .getLog ld log => Sys2Proof.Machine.execGetLog ld log s
  | .identifyMemoryDevice ld => Sys2Proof.Machine.execIdentifyMemoryDevice ld s
  | .getHealthInfo ld => Sys2Proof.Machine.execGetHealthInfo ld s
  | .attest ld nonce => Sys2Proof.Machine.execAttest ld nonce s
  | .getidkey ld => Sys2Proof.Machine.execGetidkey ld s
  | .extend ld im data => Sys2Proof.Machine.execExtend ld im data s
  | .preempt ld c => Sys2Proof.Machine.execPreempt ld c s
  | .wreset ld => Sys2Proof.Machine.execWreset ld s
  | .powercap ld watts => Sys2Proof.Machine.execPowercap ld watts s
  | .setTimestamp ld t => Sys2Proof.Machine.execSetTimestamp ld t s
  | .unsupported ld opcode => Sys2Proof.Machine.execUnsupported ld opcode s
  | .doubleRefreshEntry p => Sys2Proof.Machine.execDoubleRefreshEntry p s
  | .doubleRefreshExit p => Sys2Proof.Machine.execDoubleRefreshExit p s
  | .faceThrottle f => Sys2Proof.Machine.execFaceThrottle f s
  | .faceThrottleEnd f => Sys2Proof.Machine.execFaceThrottleEnd f s
  | .droop f => Sys2Proof.Machine.execDroop f s
  | .conventionalReset => Sys2Proof.Machine.execConventionalReset s
  | .coldStart => Sys2Proof.Machine.execColdStart s
  | .startTimeout => Sys2Proof.Machine.execStartTimeout s
  | .thermtrip => Sys2Proof.Machine.execThermtrip s
  | .powerCheck => Sys2Proof.Machine.execPowerCheck s
  | .logAppend => Sys2Proof.Machine.execLogAppend s
  | .startok => Sys2Proof.Machine.execStartok s

end Machine
end Sys2Proof
end

