-- ==== Sys2Proof/Machine/Poll.lean ====
section
/-! DEFINITION. The events that the state of a cycle brings about, with their source numbers (R441): each is listed
where the condition that its meaning tests may hold. -/

namespace Sys2Proof.Machine

/-- Events of one source. -/
def fromSrc (src : Nat) (l : List Instr) : List (Nat × Item) := l.map fun i => (src, .event i)

/-- An event where its condition holds. -/
def eventIf (b : Bool) (i : Instr) : List Instr := if b then [i] else []

/-- Watchdogs and overruns of contexts (R112, R407), and starts from save areas (R423). -/
def State.polledContexts (s : State) : List (Nat × Item) :=
  (s.ctxNums.flatMap fun c =>
    fromSrc (srcCore (coreOf c))
      (eventIf (s.watchdogDue c) (.watchdog c) ++ eventIf (s.issueOver c) (.issueend c) ++
        eventIf (s.stopOver c) (.contextStop c 0))) ++
  (s.resumes.filter s.resumeDue).flatMap fun r => fromSrc (((s.resumeTarget r).map coreOf).getD 0) [.resumeStart r.id]

/-- A booked step or chunk that finds no start: slot 5 for a macro-op, 6 for a copy (R211). -/
def unbookedEvent (slot : Nat) : Option (Nat × Nat) → List Instr
  | some (c, row) => [.unbooked c slot row]
  | none => []

/-- The sequencer's queues of a pair and its cancel queue (R211, R228, R233, R392). -/
def State.polledPair (s : State) (p : Nat) : List (Nat × Item) :=
  fromSrc (srcArray p)
    (((List.range 4).filter fun q => !((s.pair p).queue q).isEmpty).map (fun q => .macroopComplete p q) ++
    ((List.range 4).filter fun q => !((s.pair p).queue q).isEmpty).flatMap (fun q =>
      .arrayStep p q :: unbookedEvent 5 (s.stepUnbooked p q)) ++
    eventIf (!(s.pair p).cancelQ.isEmpty) (.cancelProcess p))

/-- A copy engine: its head's chunk or join, and what completes (R211, R258, R274, R384). -/
def State.polledEngine (s : State) (e : Nat) : List (Nat × Item) :=
  fromSrc (srcCopy e)
    (s.copyEvents e ++ unbookedEvent 6 (s.chunkUnbooked e) ++
      (match s.joinReady e with
        | some c => [.collJoin e c.id]
        | none => []))

/-- A flash stack's port and the activities of its translation layer (R290, R302 to R306, R313 to R315). -/
def State.polledFlash (s : State) (n : Nat) : List (Nat × Item) :=
  let f := s.stack n
  let src := s.channelSource n
  fromSrc (srcFlash n) (f.cmds.map fun _ => .handleCommandAccept n) ++
  (if (f.jobEnds jobReloc).isSome || f.relocHead.isSome then [(srcFlash n, .relocate n)] else []) ++
  fromSrc (srcFlash n)
    (eventIf ((f.jobEnds jobCollect).isSome || f.collectHead.isSome) (.garbageCollection n) ++
      eventIf ((f.jobEnds jobWear).isSome || (f.wearHead n).isSome) (.staticWearLevelling n) ++
      eventIf ((f.jobEnds jobPatrol).isSome || f.patrolDue s.cycle) (.patrolRead n) ++
      eventIf (s.cardReady n).isSome (.cardStart n) ++
      eventIf (src == 2) (.forwardedRead n) ++
      eventIf (src == 1 || src == 3 || src == 4) (.codewordRead n) ++
      eventIf (s.cardLands n).isSome (.planeLand n))

/-- A domain's promotion engine, sweeper, epoch and commands (R291 to R298). -/
def State.polledDomain (s : State) (d : Nat) : List (Nat × Item) :=
  let x := s.dom d
  fromSrc (srcHbm d)
    (eventIf (s.epochDue d) (.epochAdvance d) ++ eventIf (s.nextPromotion d).isSome (.promotion d) ++
      eventIf x.sweeps (.sweep d) ++ eventIf x.l2Over (.l2cmdDone d) ++ eventIf x.pgBusy (.pgcmdDone d))

/-- The first cycle of a tick: the controllers' refresh bookings and compaction come before any request of the tick (R205). -/
def State.tickStarts (s : State) : List Item :=
  if s.cycle % 32 = 0 && s.plat.boot == .running then (List.range 32).map fun f => .event (.tickStart f) else []

/-- The bookings whose start tick begins with this cycle: their tasks start before the cores issue (R204, R205). -/
def State.taskStarts (s : State) : List Item :=
  if s.cycle % 32 = 0 && s.plat.boot == .running then
    (List.range 32).flatMap fun f =>
      ((s.face f).bookings.filter fun b => !b.2.started && b.2.start ≤ s.tick).map fun b => .event (.taskStart f b.1)
  else []

/-- A face's calendar controller may give a pair its ratio (R221). -/
def State.polledFace (s : State) (f : Nat) : List (Nat × Item) :=
  fromSrc (srcCal f) (((List.range 8).filter (s.face f).ratioWanted).map fun p => .wratioChange f p)

/-- A dispatcher: tasks that are over, versions that may commit, and its step (R362, R364, R370). -/
def State.polledDispatcher (s : State) (d : Nat) : List (Nat × Item) :=
  let ts := (s.disp d).tasks
  fromSrc (srcDisp d)
    ((ts.filter (s.taskOver d)).map (fun t => .taskComplete d t.seq) ++
      (ts.filter fun t => !(s.commits d t).isEmpty).map (fun t => .versionCommit d t.seq) ++
      eventIf s.dispatchTime (.dispatchStep d)) ++
  (s.spawns.filter fun r => (s.queue (16 * r.part + r.queue)).dom == d).map fun _ => (srcDisp d, .successor)

/-- The members of a collective that can send, and its completion (R395, R396). -/
def State.polledColl (s : State) (k : Nat) (c : Coll) : List (Nat × Item) :=
  ((List.range c.nmem).filter fun m => (c.member m).peer == 0 && s.sendStep c m != .wait).map
    (fun m => (srcCopy (c.member m).eng, .event (.planeSend k m))) ++ fromSrc srcFabric (eventIf c.over (.collComplete k))

/-- The hour changes in this cycle (R446). -/
def State.hourStart (s : State) : Bool := s.cycle != 0 && s.gtc / 3600000000000 != (s.cycle - 1) * 5 / 9 / 3600000000000

/-- A sensor reads 105 °C, looked at every microsecond: the clocks stop well within 10 µs (R442). -/
def State.polledTrip (s : State) : List (Nat × Item) :=
  if s.microStart then fromSrc (srcSensor + 0x127) (eventIf (allSensors.any fun n => 105 ≤ s.temp n) .thermtrip) else []

/-- What the readings ask for, looked at every millisecond (R442, R448). -/
def State.polledSensors (s : State) : List (Nat × Item) :=
  let on (b : Bool) (src k n : Nat) : List (Nat × Item) := if b then [(src, .thermal k n)] else []
  ((List.range 256).flatMap fun p =>
    on (85 ≤ s.temp (0x400 + p)) (srcSensor + p) 0 p ++ on (s.temp (0x400 + p) < 80) (srcSensor + p) 1 p) ++
  ((List.range 32).flatMap fun f =>
    on ((faceSensors f).any fun n => 95 ≤ s.temp n) (srcSensor + 0x100 + f) 2 f ++
      on ((faceSensors f).all fun n => s.temp n < 90) (srcSensor + 0x100 + f) 3 f)

/-- Firmware's power check, the sensors and the hourly entry in the lifetime log (R442, R443, R446). -/
def State.polledPlatform (s : State) : List (Nat × Item) :=
  fromSrc srcMgmt (eventIf s.milliStart .powerCheck ++ eventIf s.hourStart .logAppend) ++
    (if s.milliStart then s.polledSensors else []) ++ s.polledTrip

/-- The events of this cycle that no agenda entry names: before the start is over, a trip alone. -/
def State.polled (s : State) : List (Nat × Item) :=
  if s.plat.boot == .starting || s.plat.boot == .minimal then s.polledTrip
  else if s.plat.boot != .running then []
  else
    s.polledContexts ++ (s.pairs.map Prod.fst).flatMap s.polledPair ++ (s.engines.map Prod.fst).flatMap s.polledEngine ++
      (List.range 8).flatMap s.polledFlash ++ (List.range 8).flatMap s.polledDomain ++ (List.range 32).flatMap s.polledFace ++
      (List.range 8).flatMap s.polledDispatcher ++ s.colls.flatMap (fun e => s.polledColl e.1 e.2) ++ s.polledPlatform

end Sys2Proof.Machine
end

