-- ==== Sys2Proof/Machine/Sched.lean ====
section
/-! DEFINITION. The passage of time: what falls due at the start of a cycle, which events and issues the cycle has,
and how one step takes the next of them (R14, R37, R38, R214, R441). -/

namespace Sys2Proof.Machine

/-! ## Results (R38, R137) -/

/-- The results of one context that are due reach their registers, in the order of issue (R38). -/
def State.landCtx (s : State) (c : Nat) : State :=
  let x := s.ctx c
  let s := if x.undo.isEmpty then s else s.onCtx c fun x => { x with undo := [] }
  let due := x.inflight.filter fun i => i.due ≤ s.cycle
  if due.isEmpty then s
  else
    let s := (due.filter fun i => i.w.isShift).foldl (fun s i => s.landDue c i) s
    let s := (due.filter fun i => !i.w.isShift).foldl (fun s i => s.landDue c i) s
    s.onCtx c fun x => { x with inflight := x.inflight.filter fun i => s.cycle < i.due }

/-- The results of every context that are due. -/
def State.landAll (s : State) : State := s.ctxNums.foldl State.landCtx s

/-! ## Frozen pairs (R214) -/

/-- A cycle in which the pair's clock does not run: whatever is due later moves by one cycle. -/
def Ctx.shift (x : Ctx) (now : Nat) : Ctx :=
  { x with inflight := x.inflight.map fun i => if now < i.due then { i with due := i.due + 1 } else i
           ready := if now < x.ready then x.ready + 1 else x.ready
           stopping := x.stopping.map fun z => { z with due := if now < z.due then z.due + 1 else z.due } }

def Core.shift (k : Core) (now : Nat) : Core :=
  let f (t : Nat) : Nat := if now < t then t + 1 else t
  { k with vaFree := f k.vaFree, vbFree := f k.vbFree, xcFree := f k.xcFree, saDiv := f k.saDiv, sbDiv := f k.sbDiv }

def Pair.shift (p : Pair) (now : Nat) : Pair :=
  let f (t : Nat) : Nat := if now < t then t + 1 else t
  { p with arrFree := p.arrFree.map fun (k, t) => (k, f t)
           arrBank := p.arrBank.map fun (k, t) => (k, f t.1, f t.2)
           coreBank := p.coreBank.map fun (k, t) => (k, f t)
           rdFree := f p.rdFree
           busy := p.busy + 1
           out := p.out.map fun w => { w with due := f w.due }
           queues := p.queues.map fun (k, l) => (k, l.map fun o => { o with busy := o.busy.map f, issued := o.issued + 1 }) }

/-- The units of every frozen pair stand still in this cycle. -/
def State.shiftFrozen (s : State) : State :=
  s.pairs.foldl (fun s (p, x) =>
    if x.freeze.isSome then
      let s := s.setPair p (x.shift s.cycle)
      let s := [2 * p, 2 * p + 1].foldl (fun s k => s.onCore k fun y => y.shift s.cycle) s
      (List.range 8).foldl (fun s j => s.onCtx (8 * p + j) fun y => y.shift s.cycle) s
    else s) s

/-! ## UNBOOK (R208) -/

/-- The tick after an UNBOOK has begun: the context is FREE. -/
def State.unbookAll (s : State) : State :=
  s.ctxNums.foldl (fun s c =>
    let x := s.ctx c
    if x.unbook && s.cycle % 32 = 0 then
      let s := match x.bid with
        | some b => s.freeBuffer (coreOf c) b
        | none => s
      s.onCtx c fun x => { x with run := .free, unbook := false, slack := 0, bid := none }
    else s) s

/-! ## The work of a cycle -/

/-- The events of the agenda that are due. -/
def State.dueEvents (s : State) : List Timed := s.agenda.filter fun t => t.due ≤ s.cycle

/-- Stable insertion by source number (R441). -/
def insSrc (e : Nat × Item) : List (Nat × Item) → List (Nat × Item)
  | [] => [e]
  | f :: t => if f.1 ≤ e.1 then f :: insSrc e t else e :: f :: t

/-- Events in the order of their source numbers, those of one source in the order given. -/
def bySource (l : List (Nat × Item)) : List Item := (l.foldl (fun acc e => insSrc e acc) []).map Prod.snd

/-- The cores that have a context that may issue, ascending. -/
def State.issuers (s : State) : List Nat :=
  (List.range 512).filter fun k => (List.range 4).any fun j => (s.ctx (4 * k + j)).run != .halted

/-- The pairs whose freeze reaches a 32-cycle mark (R215). -/
def State.marks (s : State) : List Nat :=
  s.pairs.filterMap fun (p, x) => match x.freeze with
    | some z => if z.start < s.cycle ∧ (s.cycle - z.start) % 32 = 0 then some p else none
    | none => none

/-- An array, a copy engine or a collective has work, or has left a note of it. -/
def State.unitsBusy (s : State) : Bool :=
  s.pairs.any (fun p => !p.2.soon.isEmpty || p.2.queues.any fun q => !q.2.isEmpty) ||
    s.engines.any (fun e => !e.2.queue.isEmpty) || !s.colls.isEmpty

/-- The banks that arrays, copies and collectives begin to use in the next cycle are noted with their pairs: they come before a
core that issues now (R172). -/
def State.foresee (s : State) : State :=
  let uses : List (Nat × Nat × Nat × Nat) :=
    s.pairs.flatMap (fun p => (s.nextBanks p.1).map fun u => (p.1, u)) ++ s.engines.flatMap (fun e => s.engineSoon e.1) ++
      s.colls.flatMap fun c => s.collSoon c.2
  uses.foldl (fun s u => s.onPair u.1 fun x => { x with soon := x.soon ++ [u.2] })
    { s with pairs := s.pairs.map fun p => (p.1, { p.2 with soon := [] }) }

/-- Sources whose events come before the bundles of the cycle: the cores' own (results that return, stops and limits), arrays,
copy engines and collectives. -/
def earlySrc (src : Nat) : Bool := src < 0x380 || src == srcFabric

/-- The items of a cycle. The refresh bookings, the compaction and the starts of a tick come first (R205); then what cores,
arrays, copies and collectives have due, before the bundles, which see their results and give way to them at the banks (R172);
then every other source in ascending order (R441). The calendar controllers take the requests of the bundles before the
dispatchers run, and those of the dispatchers after them (R205). -/
def State.cycleItems (s : State) (events : List (Nat × Item)) : List Item :=
  let late := events.filter fun e => !earlySrc e.1
  s.tickStarts ++ s.taskStarts ++ bySource (events.filter fun e => earlySrc e.1) ++ s.marks.map Item.mark ++
    (if s.unitsBusy then [.foresee] else []) ++ s.issuers.map Item.issue ++
    bySource (late.filter fun e => e.1 < srcCal 0) ++ [.requests] ++
    bySource (late.filter fun e => srcCal 0 ≤ e.1 && e.1 < srcHost) ++ [.requests] ++
    bySource (late.filter fun e => srcHost ≤ e.1)

/-- The next cycle begins: results land, flags arrive, contexts that wait are looked at, and the events and issues of
the cycle are listed. DEDUCED (log 124): a clear of FLAGS bits that falls due in this cycle lands before the sets of the cycle
before arrive, so such a set wins (R121). -/
def State.advance (s : State) : State :=
  let s := s.chargeAll.shiftFrozen
  let s := { s with cycle := s.cycle + 1 }
  let s := s.landAll.landDrains.landSizes.landFlags.unbookAll.wakeAll.launchAll
  { s with
    agenda := s.agenda.filter fun t => s.cycle < t.due
    todo := s.cycleItems (s.dueEvents.map (fun t => (t.src, .event t.ev)) ++ s.polled) }

/-- The lowest face whose controller has a request. -/
def State.asked (s : State) : Option Nat := (List.range 32).find? fun f => !(s.face f).requests.isEmpty

/-! ## One step -/

/-- The core would let the context issue in this cycle: it is the current free context, or it owns the booked tick. -/
def State.mayIssue (run : Run) (s : State) (c : Nat) : Bool :=
  let core := coreOf c
  let k := s.core core
  !s.frozen core &&
    match (s.face (faceOf core)).owner (rowCore core) s.tick with
    | .bid b => s.rowCtx core b == some c
    | _ => decide (k.turn ≤ s.cycle) && (s.ctx c).run == .free &&
      (if k.idle then s.nextReady run core k.cur == some (ctxOf c) else k.cur == ctxOf c)

/-- A stop request falls in a cycle in which a bundle of the context would trap: the trap is taken, and its message has
STOPREQ = 1 (R426). -/
def State.stopTrap (run : Run) (s : State) (c : Nat) : Option State :=
  if (s.ctx c).stopReq.isNone || !s.mayIssue run c then none
  else match s.attempt run c with
    | .trap k slot => some (s.trapCtx c k slot (s.ctx c).pc)
    | _ => none

/-- The pair freezes in this cycle, or is frozen: its sequencer begins and completes nothing (R213, R214). -/
def State.pairStill (run : Run) (s : State) (p : Nat) : Bool :=
  (s.pair p).freeze.isSome || (s.freezes run (2 * p)).isSome || (s.freezes run (2 * p + 1)).isSome

/-- An event of the cycle. -/
def State.runEvent (run : Run) (i : Instr) (s : State) : Host.Outcome State Fault Refusal :=
  match i with
  | .arrayStep p _ => if s.pairStill run p then .next s else run i s
  | .macroopComplete p _ => if s.pairStill run p then .next s else run i s
  | .contextStop c _ => match s.stopTrap run c with
    | some t => .next t
    | none => run i s
  | i => run i s

/-- After a thermal trip nothing happens but the management processor's Identify command and the next cold start (R431,
R442): the first of these in the agenda is next. -/
def State.tripped (run : Run) (s : State) : Host.Outcome State Fault Refusal :=
  match s.agenda.find? fun t => match t.ev with
    | .coldStart => true
    | .identifyMemoryDevice _ => true
    | _ => false with
  | some t => run t.ev { s with agenda := s.agenda.erase t, todo := [] }
  | none => .fault .clocksStopped

/-- One step: the next item of the cycle, or the next cycle. -/
def State.stepWith (run : Run) (s : State) : Host.Outcome State Fault Refusal :=
  if s.plat.boot = .tripped then s.tripped run
  else match s.todo with
    | [] => .next (if s.outbox.any s.mayLeave && s.gtc != (s.cycle + 1) * 5 / 9 then s.flushOut else s.advance)
    | .event i :: t => ({ s with todo := t }).runEvent run i
    | .mark p :: t => .next (({ s with todo := t }).freezeMark run p)
    | .write priv p ia v :: t => ({ s with todo := t }).writeReg priv p ia v
    | .relocate n :: t => execRelocation n { s with todo := t }
    | .successor :: t => .next ({ s with todo := t }).nextSuccessor
    | .thermal k n :: t => execThermal k n { s with todo := t }
    | .foresee :: t => .next ({ s with todo := t }).foresee
    | .pass c :: t =>
      let s := { s with todo := t }
      .next (s.passIfLeft run c (4 * c + (s.core c).cur))
    | .requests :: t =>
      match s.asked with
      | some f => .next { s with todo := .event (.admission f) :: .requests :: t }
      | none => .next { s with todo := t }
    | .issue c :: t => (({ s with todo := t }).resumeHeld c).issueCore run c

/-! ## A program placed from outside -/

/-- Where `withFetchWord` puts the bundle: VA and IA 0x1_0000, page 1 of region 0x0. -/
def placePc : Nat := 0x10000

/-- The bytes of a bundle whose slot `k` holds `w`, the other slots NOP. -/
def placeBundle (k w : Nat) : List Byte := leBytes 32 (w % 2 ^ 32 * 2 ^ (32 * k))

/-- Core 0 is about to issue the bundle of context 0 that holds the word in the lowest slot that accepts it: the
context is FREE with VCOUNT 64, AW0 maps region 0x0 for all uses, and the line is in the instruction cache. -/
def State.placeWord (s : State) (w : Nat) : State :=
  let k := lowestSlot [0, 1, 2, 3, 4, 5, 6, 7] (BitVec.ofNat 32 w)
  let bytes := placeBundle k w
  let s := s.onCtx 0 fun x =>
    { x with run := .free, pc := BitVec.ofNat 64 placePc, base := 0, vcount := 64, rot := 0, ready := 0, sleep := .awake
             fetchMiss := none, fetched := [], late := [], prefixes := [], bid := none
             aw := Tbl.put (Tbl.put (Tbl.put (Tbl.put x.aw 0 0) 1 0xFFFF0000) 2 0) 3 0x87 }
  let s := s.onCore 0 fun y =>
    { y with cur := 0, idle := false, turn := 0, icache := Tbl.put y.icache (placePc / 64) (bytes ++ List.replicate 32 0) }
  let s := s.onFace 0 fun f => { f with bookings := [] }
  let s := s.onPair 0 fun p => { p with freeze := none }
  { s with mem := memPutBytes s.mem (hbmPlace 0 placePc) bytes, plat := { s.plat with boot := .running }
           todo := [.issue 0] }

end Sys2Proof.Machine
end

