-- ==== Sys2Proof/Machine/Step.lean ====
section
/-! DEFINITION. The step of the machine, and the placing of an instruction where it fetches next. -/

namespace Sys2Proof.Machine

/-- One step: the next event or issue of the current cycle, or the passage to the next cycle. -/
def step (s : State) : Host.Outcome State Fault Refusal := s.stepWith exec

/-- The state in which the next step issues a bundle of core 0, context 0, that holds the word `w` and is otherwise
NOP. A word of the table names no slot; the lowest slot that accepts it holds it. -/
def State.withFetchWord (s : State) (_nbits w : Nat) : State := s.placeWord w

end Sys2Proof.Machine
end

