-- ==== Sys2Proof/Certificates/Slice0/Obligations.lean ====
section
/-! DEFINITION. The statements for the provers. The terms that they share come first: when a slot word may commit, and
what it leaves when it does. -/

namespace Sys2Proof.Claims
open Sys2Proof.Machine

/-- The vector names of a word (R46 to R50, R106). -/
def vregsOf : Instr → List (BitVec 6)
  | .vaddF _ d a b => [d, a, b]
  | .vsubF _ d a b => [d, a, b]
  | .vmulF _ d a b => [d, a, b]
  | .vfmaF _ d a b => [d, a, b]
  | .vmaxF _ d a b => [d, a, b]
  | .vminF _ d a b => [d, a, b]
  | .vabsF _ d a _ => [d, a]
  | .vexp2 _ d a b => [d, a, b]
  | .vrcp _ d a => [d, a]
  | .vrsq _ d a => [d, a]
  | .vaddI _ d a b => [d, a, b]
  | .vsubI _ d a b => [d, a, b]
  | .vmulI _ d a b => [d, a, b]
  | .vmaxI _ d a b => [d, a, b]
  | .vminI _ d a b => [d, a, b]
  | .vand _ d a b => [d, a, b]
  | .vor _ d a b => [d, a, b]
  | .vxor _ d a b => [d, a, b]
  | .vshl _ d a b => [d, a, b]
  | .vshr _ d a b => [d, a, b]
  | .vsra _ d a b => [d, a, b]
  | .vcmpf _ d a b _ => [d, a, b]
  | .vcmpi _ d a b _ => [d, a, b]
  | .vsel _ d a b => [d, a, b]
  | .vdot4 _ d a b => [d, a, b]
  | .vdot4u _ d a b => [d, a, b]
  | .vaddsF _ d a _ => [d, a]
  | .vmulsF _ d a _ => [d, a]
  | .vfmasF _ d a _ => [d, a]
  | .vcmpu _ d a b _ => [d, a, b]
  | .vaddiI _ d a _ => [d, a]
  | .vshifti _ d a _ _ => [d, a]
  | .vmov _ d a => [d, a]
  | .vsplat _ d _ => [d]
  | .vidx _ d _ => [d]
  | .rrot _ d a _ => [d, a]
  | .crot _ d a _ => [d, a]
  | .rbcst _ d a _ => [d, a]
  | .cbcst _ d a _ => [d, a]
  | .rred _ d a _ => [d, a]
  | .cred _ d a _ => [d, a]
  | .rscan _ d a _ => [d, a]
  | .vcvt _ d a _ => [d, a]
  | .vget _ _ a _ => [a]
  | .vput _ d _ _ => [d]
  | .rrotv _ d a _ => [d, a]
  | .vld _ d _ _ _ => [d]
  | .vst _ d _ _ _ => [d]
  | .vland _ d _ => [d]
  | .ctld _ d _ _ _ => [d]
  | .ctst _ d _ _ _ => [d]
  | .xtrn _ d a => [d, a]
  | .xcvt _ d a _ => [d, a]
  | .xpls _ d a b => [d, a, b]
  | .xplm _ d a b => [d, a, b]
  | _ => []

/-- The predicate that governs a word (R26); SEL's field is an operand, and CT words have none. -/
def predOf : Instr → Option (BitVec 4)
  | .add _ _ _ p => some p
  | .sub _ _ _ p => some p
  | .mul _ _ _ p => some p
  | .mulh _ _ _ p => some p
  | .mulhu _ _ _ p => some p
  | .div _ _ _ p => some p
  | .divu _ _ _ p => some p
  | .rem _ _ _ p => some p
  | .remu _ _ _ p => some p
  | .and _ _ _ p => some p
  | .or _ _ _ p => some p
  | .xor _ _ _ p => some p
  | .shl _ _ _ p => some p
  | .shr _ _ _ p => some p
  | .sra _ _ _ p => some p
  | .min _ _ _ p => some p
  | .max _ _ _ p => some p
  | .minu _ _ _ p => some p
  | .maxu _ _ _ p => some p
  | .clz _ _ p => some p
  | .popc _ _ p => some p
  | .clmul _ _ _ p => some p
  | .clmulh _ _ _ p => some p
  | .cmp _ _ _ p _ => some p
  | .plog _ _ _ p _ => some p
  | .pget _ p => some p
  | .pput _ p => some p
  | .fadds _ _ _ p => some p
  | .fsubs _ _ _ p => some p
  | .fmuls _ _ _ p => some p
  | .fmas _ _ _ p => some p
  | .fmins _ _ _ p => some p
  | .fmaxs _ _ _ p => some p
  | .fcmps _ _ _ p _ => some p
  | .fcvts _ _ p _ => some p
  | .br p _ => some p
  | .call p _ => some p
  | .jr _ p => some p
  | .loop p _ => some p
  | .loopset _ _ p => some p
  | .vaddF p _ _ _ => some p
  | .vsubF p _ _ _ => some p
  | .vmulF p _ _ _ => some p
  | .vfmaF p _ _ _ => some p
  | .vmaxF p _ _ _ => some p
  | .vminF p _ _ _ => some p
  | .vabsF p _ _ _ => some p
  | .vexp2 p _ _ _ => some p
  | .vrcp p _ _ => some p
  | .vrsq p _ _ => some p
  | .vaddI p _ _ _ => some p
  | .vsubI p _ _ _ => some p
  | .vmulI p _ _ _ => some p
  | .vmaxI p _ _ _ => some p
  | .vminI p _ _ _ => some p
  | .vand p _ _ _ => some p
  | .vor p _ _ _ => some p
  | .vxor p _ _ _ => some p
  | .vshl p _ _ _ => some p
  | .vshr p _ _ _ => some p
  | .vsra p _ _ _ => some p
  | .vcmpf p _ _ _ _ => some p
  | .vcmpi p _ _ _ _ => some p
  | .vsel p _ _ _ => some p
  | .vdot4 p _ _ _ => some p
  | .vdot4u p _ _ _ => some p
  | .vaddsF p _ _ _ => some p
  | .vmulsF p _ _ _ => some p
  | .vfmasF p _ _ _ => some p
  | .vcmpu p _ _ _ _ => some p
  | .vaddiI p _ _ _ => some p
  | .vshifti p _ _ _ _ => some p
  | .vmov p _ _ => some p
  | .vsplat p _ _ => some p
  | .vidx p _ _ => some p
  | .rrot p _ _ _ => some p
  | .crot p _ _ _ => some p
  | .rbcst p _ _ _ => some p
  | .cbcst p _ _ _ => some p
  | .rred p _ _ _ => some p
  | .cred p _ _ _ => some p
  | .rscan p _ _ _ => some p
  | .vcvt p _ _ _ => some p
  | .vget p _ _ _ => some p
  | .vput p _ _ _ => some p
  | .rrotv p _ _ _ => some p
  | .vld p _ _ _ _ => some p
  | .vst p _ _ _ _ => some p
  | .vldt p _ _ _ _ => some p
  | .vland p _ _ => some p
  | .sld p _ _ _ _ _ => some p
  | .sst p _ _ _ _ => some p
  | .slda p _ _ _ _ => some p
  | .sstr p _ _ _ _ => some p
  | .ctld p _ _ _ _ => some p
  | .ctst p _ _ _ _ => some p
  | .watch p _ => some p
  | .snooze p _ _ => some p
  | .mark p _ => some p
  | .cas p _ _ _ _ => some p
  | .amoadd p _ _ _ _ => some p
  | .amoand p _ _ _ _ => some p
  | .amoor p _ _ _ _ => some p
  | .amoxor p _ _ _ _ => some p
  | .amomin p _ _ _ _ => some p
  | .amomax p _ _ _ _ => some p
  | .amominu p _ _ _ _ => some p
  | .amomaxu p _ _ _ _ => some p
  | .amoswap p _ _ _ _ => some p
  | .amofadd p _ _ _ _ => some p
  | .amofmin p _ _ _ _ => some p
  | .amofmax p _ _ _ _ => some p
  | .mma p _ _ _ _ _ => some p
  | .mref p _ _ _ _ => some p
  | .mlut p _ _ _ _ => some p
  | .mzero p _ => some p
  | .mldacc p _ _ _ _ => some p
  | .mdrain p _ _ _ _ => some p
  | .mfmt p _ => some p
  | .mprog p _ => some p
  | .mresume p => some p
  | .wswap p _ _ _ => some p
  | .xtrn p _ _ => some p
  | .xcvt p _ _ _ => some p
  | .xpls p _ _ _ => some p
  | .xplm p _ _ _ => some p
  | .xfmt p _ => some p
  | .cpy p _ _ _ => some p
  | .cpysl p _ _ _ => some p
  | .cpymc p _ _ => some p
  | .cpycan p _ => some p
  | .coll p _ _ _ => some p
  | .pcnt p _ _ => some p
  | .pcancel p _ => some p
  | .pcancelTag p _ => some p
  | .whfetch p _ _ => some p
  | .whstat p _ _ => some p
  | .whdrop p _ => some p
  | _ => none

/-- Nothing keeps the word from issuing in this cycle but what its own description adds: its fields keep their limits
(R22), it finds no prefix that it does not take (R28), its vector names lie in the allotment (R24), no variable-latency
result is outstanding (R39), and no result of the context is in flight where CHK asks (R42). -/
structure Free (i : Instr) (s : State) : Prop where
  wf : i.wf = true
  imm : Instr.badImm i s = false
  pfx : Tbl.find s.cx.prefixes s.iss.slot = none ∨ Instr.takesPrefix i = true
  vregs : ∀ n ∈ vregsOf i, n.toNat < s.cx.vcount
  returned : ∀ p ∈ s.cx.pending, p.saveIa ≠ none ∨ p.arrived = true
  landed : s.cx.chk = false ∨ s.cx.inflight = []

/-- The word may commit: its bundle has been found free to issue, or it is free to. -/
def Ready (i : Instr) (s : State) : Prop := s.iss.sure = true ∨ Free i s

/-- The word's predicate, if it has one, is true. -/
def Live (i : Instr) (s : State) : Prop := ∀ p, predOf i = some p → s.cx.preg p = true

/-- When the word may commit it answers a next state, which is `t` with the slot's prefix consumed. -/
def Does (i : Instr) (s t : State) : Prop := Ready i s → Live i s → exec i s = .next t.commit

/-- The same for a word that also needs `c` where its bundle has not yet been found free to issue. -/
def DoesIf (c : Prop) (i : Instr) (s t : State) : Prop :=
  (s.iss.sure = true ∨ (Free i s ∧ c)) → Live i s → exec i s = .next t.commit

/-- The engine of a slot, whose first free cycle is `t`, may be held for `n` cycles from now (R40, R111). -/
def EngineFree (t n : Nat) (s : State) : Prop := t ≤ s.cycle ∧ s.reaches n = false

/-- An immediate with the payload of a pending prefix above it, sign-extended to 64 bits (R27, R33). -/
def immediate {w : Nat} (s : State) (i : BitVec w) : Word :=
  match Tbl.find s.cx.prefixes s.iss.slot with
  | some p => (p ++ i).signExtend 64
  | none => i.signExtend 64

/-- The word stands in slot `k` (R20, R22, R23, R36): NOP in every slot, PFX in slots 0 to 6, the words of SA also in SB. -/
def standsIn (k : Nat) (i : Instr) : Bool :=
  match i with
  | .nop => k < 8
  | .pfx _ => k < 7
  | i => match i.slotOf with
    | some 0 => k == 0 || k == 1
    | some n => k == n
    | none => false

/-- PQ keeps the limits of a PLANE access: 1 to 8 planes, and a stride where there is more than one (R75). -/
def PqKept (pq : Word) : Prop :=
  1 ≤ pq.toNat % 16 ∧ pq.toNat % 16 ≤ 8 ∧ (1 < pq.toNat % 16 → pq.toNat / 2 ^ 16 % 2 ^ 32 ≠ 0)

/-- The word asks nothing of PQ that it does not keep (R75, R167). -/
def PqAllows (i : Instr) (pq : Word) : Prop :=
  match i with
  | .vld _ _ _ f _ | .vst _ _ _ f _ | .ctld _ _ _ f _ | .ctst _ _ _ f _ => f = 12 → PqKept pq
  | .xplm _ _ _ _ => 1 ≤ pq.toNat % 16 ∧ pq.toNat % 16 ≤ 8
  | _ => True

/-- The bits of an element under an explicit format, PLANE apart; NARROW's are the width in its register (R60, R61, R67). -/
def FmtWidth (nfr : Word) (f w : Nat) : Prop :=
  f = 1 ∧ w = 32 ∨ f = 2 ∧ w = 16 ∨ f = 3 ∧ w = 16 ∨ f = 4 ∧ w = 8 ∨ f = 5 ∧ w = 8 ∨ f = 6 ∧ w = 32 ∨ f = 7 ∧ w = 16 ∨
    f = 8 ∧ w = 8 ∨ f = 9 ∧ w = 8 ∨ f = 10 ∧ w = 4 ∨ f = 11 ∧ w = 4 ∨ f = 14 ∧ w = 32 ∨
    f = 13 ∧ w = nfr.toNat % 16 ∧ 1 ≤ w ∧ w ≤ 8

/-- The blocks of one row of 64 elements of `w` bits, which starts where R62 asks. -/
def RowOf (w : Nat) (x : Span × List BlockVal) : Prop :=
  if 8 ≤ w then x.1.va % 64 = 0 ∧ x.2.length = w / 8 else x.1.va % 64 + 8 * w ≤ 64 ∧ x.2.length = 1

/-- The sixteen rows of a tile of elements of `w` bits. -/
def RowsOf (w : Nat) (rows : List (Span × List BlockVal)) : Prop := rows.length = 16 ∧ ∀ x ∈ rows, RowOf w x

/-- `v` is `x` over 2^`e`, rounded to the nearest integer, ties to even (R57). -/
def NearestEven (x : Int) (e : Nat) (v : Int) : Prop :=
  2 * |x - v * 2 ^ e| ≤ 2 ^ e ∧ (2 * |x - v * 2 ^ e| = 2 ^ e → v % 2 = 0)

/-- The scale that a store chooses: -128 where all lanes are zero, and else the least from `lo` to 127 at which they fit, or 127
(R71). -/
def ScaleIs (lo : Int) (fits : Int → Prop) (zero : Prop) (e : Int) : Prop :=
  (zero → e = -128) ∧
  (¬ zero → lo ≤ e ∧ e ≤ 127 ∧ (∀ g, lo ≤ g → g < e → ¬ fits g) ∧ (fits e ∨ e = 127))

/-- The least and the greatest value that a store writes under a scaled integer format of `w` bits (R60, R68, R71). -/
def IntRange (nfr : Word) (f w : Nat) (lo hi : Int) : Prop :=
  f = 7 ∧ lo = -32768 ∧ hi = 32767 ∨ f = 8 ∧ lo = -128 ∧ hi = 127 ∨ f = 9 ∧ lo = 0 ∧ hi = 255 ∨
    f = 10 ∧ lo = -8 ∧ hi = 7 ∨ f = 11 ∧ lo = 0 ∧ hi = 15 ∨
    f = 13 ∧ (if nfr.getLsbD 4 then lo = -(2 ^ (w - 1)) + (if nfr.getLsbD 5 then 1 else 0) ∧ hi = 2 ^ (w - 1) - 1
      else lo = 0 ∧ hi = 2 ^ w - 1)

/-- The lane of an element under COAT: the value of the code `code` of `w` bits under CODE `k`, times 2^`e`, rounded once (R65, R68,
R69). -/
def CoatValue (nfr : Word) (k w code : Nat) (e : Int) (x : Lane) : Prop :=
  let signed (n : Nat) : Int := if 2 ^ (n - 1) ≤ code then (code : Int) - 2 ^ n else code
  let flt (f : FFmt) : Prop :=
    (∀ neg m j, f.decode code = .fin neg m j → x = rne32 neg m (j + e)) ∧
    (∀ neg, f.decode code = .inf neg → x = if neg then 0xFF800000 else 0x7F800000) ∧
    (f.decode code = .nan → x = quiet (widen f code))
  (k = 1 → flt fmtF32) ∧ (k = 2 → flt fmtBF16) ∧ (k = 3 → flt fmtF16) ∧ (k = 4 → flt fmtE4M3) ∧ (k = 5 → flt fmtE5M2) ∧
  (k = 6 → x = rneInt (signed 32) e) ∧ (k = 7 → x = rneInt (signed 16) e) ∧ (k = 8 → x = rneInt (signed 8) e) ∧
  (k = 10 → x = rneInt (signed 4) e) ∧ (k = 9 ∨ k = 11 → x = rneInt code e) ∧
  (k = 12 → x = rneInt (if nfr.getLsbD 4 = false then code
    else if nfr.getLsbD 5 ∧ code = 2 ^ (w - 1) then (nfr.extractLsb' 8 8).toInt else signed w) e)

/-- The number in `n` bytes of memory from place `a` up, the first the least significant. -/
def bytesAt (s : State) (a n : Nat) : Nat := ((List.range n).map fun i => (memGet s.mem (a + i)).toNat * 256 ^ i).sum

/-- The place in its own scratchpad or active weight-bank half that a core's access through a window reaches (R169,
R251). -/
def ownPlace (s : State) (w : Window) (va : Nat) : Nat :=
  let p := pairOf s.iss.core
  if w.kind = 1 then scratchPlace p (w.toIa va % 2 ^ 21) else wbankPlace p (s.pair p).active (w.toIa va % 2 ^ 24)

/-- The line of a NORMAL access is held by its home slice for the context's own partition, and no version of its page is the
task's own (R179, R288, R362). -/
structure LineHit (s : State) (w : Window) (va : Nat) (ln : Line) : Prop where
  window : findWindow s.cx.windows va = some w
  kind : w.kind = 0
  region : iaRegion (w.toIa va) ≤ 7
  version : (s.winReq (some w)).frameOf (w.toIa va) = none
  line : Tbl.find s.lines (w.toIa va / 64) = some ln
  owner : ln.owner = s.ipart

/-- Nothing of the package but the slices' counts, the agenda, the fresh number, the ports and the context in hand differs. -/
structure LoadFrame (s t : State) : Prop where
  mem : t.mem = s.mem
  coats : t.coats = s.coats
  lines : t.lines = s.lines
  cores : t.cores = s.cores
  faces : t.faces = s.faces
  others : ∀ c, c ≠ s.cs → t.ctx c = s.ctx c
  queues : ∀ p, (t.pair p).queues = (s.pair p).queues

/-- The request `p` of context `c` is pending, and its result comes in cycle `due` (R39). -/
def Awaited (s t : State) (due : Nat) (p : Pending) : Prop :=
  (t.ctx s.cs).pending = s.cx.pending ++ [{ p with id := s.fresh, issued := s.cycle }] ∧
  { due := due, src := srcCore s.iss.core, ev := .loadResult s.cs s.fresh } ∈ t.agenda

/-- The request `p` of context `c` is pending until the flash port of domain `d`, in whose queue it stands, has served it, and
its result comes no earlier than cycle `due` (R180, R290). -/
def AtPort (s t : State) (d due : Nat) (p : Pending) : Prop :=
  (t.ctx s.cs).pending = s.cx.pending ++ [{ p with id := s.fresh, issued := s.cycle, flash := true, least := due }] ∧
  (t.dom d).fwdQ = (s.dom d).fwdQ ++ [.load s.cs s.fresh]

/-- The entry of page `idx` of region `r` as domain `d` has it: from its translation cache, or from the table in memory, 16
bytes a page (R286, R287). -/
def EntryIs (s : State) (d r idx : Nat) (e : Pte) : Prop :=
  idx < s.ftLen r ∧
  ((∃ w, Tbl.find (s.dom d).tcache (2 ^ 32 * r + idx) = some w ∧ e = { w0 := w.1.toNat, w1 := w.2.toNat }) ∨
   (Tbl.find (s.dom d).tcache (2 ^ 32 * r + idx) = none ∧
     e = { w0 := bytesAt s (s.ptePlace r idx) 8, w1 := bytesAt s (s.ptePlace r idx + 8) 8 }))

/-- A read of the block at `ia` goes to the flash port of its domain: its page is in flash and no slice holds the line
(R290). -/
def InPort (s : State) (q : Req) (ia : Nat) : Prop :=
  iaRegion ia ≤ 7 ∧ Tbl.find s.lines (ia / 64) = none ∧ q.frameOf ia = none ∧
    ∃ e, EntryIs s (iaRegion ia) (iaRegion ia) (ia / 65536 % 2 ^ 32) e ∧ e.st (iaRegion ia) = 2

/-- Read one after the other, the blocks at these IAs are these, and leave the state `t`. -/
def ReadsTo (q : Req) : State → List Nat → List BlockVal → State → Prop
  | s, [], bs, t => bs = [] ∧ t = s
  | s, ia :: l, bs, t => ∃ b u cs, s.iaRead q ia = (.ok b, u) ∧ bs = b :: cs ∧ ReadsTo q u l cs t

/-- Made one after the other, these writes leave the state `t`. -/
def WritesTo (q : Req) : State → List (Nat × BWrite) → State → Prop
  | s, [], t => t = s
  | s, x :: l, t => ∃ u, s.iaWrite q x.1 x.2 = (none, u) ∧ WritesTo q u l t

/-- A block of memory at a place. -/
def blockIn (s : State) (p : Nat) : BlockVal := { data := bytesAt s p 64, coat := coatGet s.coats p }

/-- A block holds what a write makes of the old one. -/
def Applied (w : BWrite) (old new : BlockVal) : Prop :=
  (∀ j, j < 512 → new.data.testBit j = if w.mask.testBit j then w.data.testBit j else old.data.testBit j) ∧
    new.coat = w.coat.getD old.coat

/-- The block at place `p` has been written, and no other byte or coat but perhaps those of the 16 bytes from `e` up. -/
structure BlockPut (s t : State) (p e : Nat) (w : BWrite) : Prop where
  block : Applied w (blockIn s p) (blockIn t p)
  bytes : ∀ a, (a < p ∨ p + 64 ≤ a) → (a < e ∨ e + 16 ≤ a) → memGet t.mem a = memGet s.mem a
  coats : ∀ a, a / 64 ≠ p / 64 → coatGet t.coats a = coatGet s.coats a

/-- Only the 16 bytes from place `e` up may have changed in memory. -/
def EntryOnly (s t : State) (e : Nat) : Prop :=
  t.coats = s.coats ∧ ∀ a, (a < e ∨ e + 16 ≤ a) → memGet t.mem a = memGet s.mem a

/-- The contexts as an access that writes the line `key` leaves them: the monitors on it are triggered (R332). -/
def MonitorsOn (s t : State) (key : Nat) : Prop :=
  ∀ c, t.ctx c = if (s.ctx c).monitor = .armed key then { s.ctx c with monitor := .triggered key } else s.ctx c

/-- The home slice of a block of domain `d` (R178). -/
def homeOf (d a : Nat) : Nat := 192 * d + ((a / 2 ^ 6 % 2 ^ 16 ^^^ a / 2 ^ 22 % 2 ^ 16 ^^^ a / 2 ^ 38 % 2 ^ 10) % 192)

/-- The bits of `n` bytes at byte `off` of a block's payload are those of `v`, and the other bits those of `old`. -/
def Patched (new old off n v : Nat) : Prop :=
  ∀ j, j < 512 → new.testBit j = if 8 * off ≤ j ∧ j < 8 * (off + n) then v.testBit (j - 8 * off) else old.testBit j

/-- What an access that writes the line at `ia` leaves: the line, the monitors on it triggered, and nothing else of memory
(R179, R332). -/
structure LineWritten (s t : State) (ia n v : Nat) (ln : Line) : Prop where
  mem : t.mem = s.mem
  coats : t.coats = s.coats
  cores : t.cores = s.cores
  line : ∃ x, Patched x ln.data (ia % 64) n v ∧
    Tbl.find t.lines (ia / 64) = some { ln with data := x, dirty := true }
  others : ∀ k, k ≠ ia / 64 → Tbl.find t.lines k = Tbl.find s.lines k
  monitors : ∀ c, (t.ctx c).monitor =
    if (s.ctx c).monitor = .armed (ia / 64) then .triggered (ia / 64) else (s.ctx c).monitor

/-- A CT word's STALL: the context's next bundle comes `n` cycles later (R41). -/
def stalled (n : BitVec 4) (t : State) : State := t.onCtx t.cs fun x => { x with ready := x.ready + n.toNat }

/-- The context has become HALTED and has lost what R103, R112 and R177 take from it: its allotment, its waits, its landing
slots and prefixes. -/
structure Halted (s t : State) (c : Nat) : Prop where
  run : (t.ctx c).run = .halted
  allotment : (t.ctx c).base = 0 ∧ (t.ctx c).vcount = 0 ∧ (t.ctx c).rot = 0
  waits : (t.ctx c).sleep = .awake ∧ (t.ctx c).monitor = .disarmed ∧ (t.ctx c).heldAt = none
  booking : (t.ctx c).bid = none
  prefixes : (t.ctx c).prefixes = []
  landings : ∀ i l, (i, l) ∈ (t.core (coreOf c)).landing → l.st ≠ .empty → l.owner ≠ ctxOf c

/-- The numbers of the special registers (R115). -/
def Assigned (n : Nat) : Prop :=
  n < 0x00C ∨ n = 0x020 ∨ n = 0x021 ∨ n = 0x022 ∨ 0x030 ≤ n ∧ n < 0x034 ∨ n = 0x041 ∨ n = 0x042 ∨ n = 0x050 ∨
    0x100 ≤ n ∧ n < 0x120

/-- Special register `num` of a context, which reads `v` now, will hold `w` in the next cycle: the last of the writes in flight
that reach it then decides (R38). -/
def NextHolds (x : Ctx) (now num : Nat) (v w : Word) : Prop :=
  let hits (i : InFlight) (u : Word) : Prop := i.due = now + 1 ∧ i.w = .sreg num u
  ((∀ i ∈ x.inflight, ∀ u, ¬ hits i u) ∧ w = v) ∨
  ∃ l i r, x.inflight = l ++ i :: r ∧ hits i w ∧ ∀ k ∈ r, ∀ u, ¬ hits k u

/-- The context has been stopped: it holds nothing of what R112 takes from it, and it is HALTED unless a step of its macro-ops is
still in progress, whose end the stop awaits (R249, R416). -/
structure Stopped (s t : State) (c : Nat) : Prop where
  run : (t.ctx c).run = .halted ∨ (t.ctx c).run = .stopping
  atOnce : (∀ q ∈ (s.pair (pairOf (coreOf c))).queues, ∀ o ∈ q.2, o.core = coreOf c → o.ctx ≠ ctxOf c) → Halted s t c
  waits : (t.ctx c).sleep = .awake ∧ (t.ctx c).monitor = .disarmed ∧ (t.ctx c).heldAt = none
  booking : (t.ctx c).bid = none
  prefixes : (t.ctx c).prefixes = []

/-- The rational number that a finite F32 lane stands for (R54). -/
def rat (x : Lane) : ℚ :=
  match fv x with
  | .fin neg m e => (if neg then -1 else 1) * m * (2 : ℚ) ^ e
  | _ => 0

/-- The lane is finite. -/
def IsFin (x : Lane) : Prop := ∃ neg m e, fv x = .fin neg m e


/-- A load or store that context `c` issued before cycle `t` has not been performed: a store held for a promotion, a result of MEM or
of a BARRIVE that has not returned, or a timed load whose rows have not arrived (R324, R325, R340). -/
def Unperformed (s : State) (c t : Nat) : Prop :=
  (∃ y ∈ s.doms, ∃ h ∈ y.2.heldW, h.ctx = some c ∧ h.issued < t) ∨
  (∃ z ∈ (s.ctx c).pending, z.saveIa = none ∧ (z.slot = 4 ∨ z.dest = .arrival) ∧ z.issued < t) ∨
  (∃ l ∈ (s.core (coreOf c)).landing, l.2.st = .waiting ∧ l.2.owner = ctxOf c ∧ l.2.issued < t)

/-- The controller's queue with a request more: lower sources stand first, and of one source what came first (R205, R441). -/
def Asked (l : List CalReq) (r : CalReq) : List CalReq :=
  l.takeWhile (fun q => decide (q.src ≤ r.src)) ++ r :: l.dropWhile fun q => decide (q.src ≤ r.src)

/-- The copy command `c` has entered the queue of engine `e`, and its tag is busy: its bit is 0 in the four contexts of the
core (R257, R260). -/
structure Queued (s t : State) (e tag : Nat) (c : CopyCmd) : Prop where
  queue : (t.engine e).queue = (s.engine e).queue ++ [c]
  others : ∀ k, k ≠ e → t.engine k = s.engine k
  busy : Tbl.look (t.core s.iss.core).tags tag {} = { busy := true, ctx := s.iss.ctx }
  tags : ∀ k, k < 4 → (t.ctx (4 * s.iss.core + k)).tags.getLsbD tag = false ∧
    ∀ j, j ≠ tag → (t.ctx (4 * s.iss.core + k)).tags.getLsbD j = (s.ctx (4 * s.iss.core + k)).tags.getLsbD j
  mem : t.mem = s.mem
  coats : t.coats = s.coats


/-- Context `c` has taken a trap at its next bundle: the trap registers name it and the context is HALTED there (R406,
R409). -/
structure Trapped (s t : State) (c code sub : Nat) (addr : Word) (slot : Nat) : Prop where
  stopped : Stopped s t c
  tcause : (t.ctx c).tcause = BitVec.ofNat 64 (256 * sub + code)
  taddr : (t.ctx c).taddr = addr
  tslot : (t.ctx c).tslot = slot
  tpc : (t.ctx c).tpc = (s.ctx c).pc
  pc : (t.ctx c).pc = (s.ctx c).pc

/-- No context but `c` differs, except that a write may have triggered its monitor. -/
def OnlyCtx (s t : State) (c : Nat) : Prop := ∀ k, k ≠ c → ∃ m, t.ctx k = { s.ctx k with monitor := m }

/-- RUNSTAT `v` and DONE of a resume request have been written in state `u`, and the request is over; nothing else differs
(R424). -/
def Ended (u t : State) (r : Resume) (v : Nat) : Prop :=
  let w := (u.writeBytes (saveReq r) (r.sa + 0x28) (leBytes 8 (256 + v))).2
  t = { w with resumes := w.resumes.filter fun q => q.id != r.id }

/-- The words of the dump entry of a result in flight, `base` being the allotment's, `now` the stop cycle and `k` the number of
its tile among the dumped ones (R420). -/
def entryWords (base now k : Nat) (i : InFlight) : Nat × Nat :=
  let r := 2 ^ 16 * (i.due - now)
  match i.w with
  | .scalar n v => (1 + 2 ^ 8 * n + r, v.toNat)
  | .pred n v => (2 + 2 ^ 8 * n + r, v.toNat)
  | .tile p _ => (3 + 2 ^ 8 * (p - base) + r + 2 ^ 24 * k, 0)
  | .lane p j v => (4 + 2 ^ 8 * (p - base) + r + 2 ^ 32 * j, v.toNat)
  | .sreg n v => (5 + r + 2 ^ 44 * n, v.toNat)
  | .setTags _ => (5 + r + 2 ^ 44 * 0x00A, 0)
  | .setFlags _ => (5 + r + 2 ^ 44 * 0x00B, 0)
  | .loopShift b => (9 + r, b.toNat)
  | .owe _ => (r, 0)

/-- The words of the dump entries of a pending result: a load request, two entries where it is a vector's, a result that the area
awaits, or an arrival (R414, R420). -/
def pendingWords (base : Nat) (p : Pending) : List (Nat × Nat) :=
  match p.dest with
  | .nothing => []
  | .arrival => [(8, p.va.toNat)]
  | .scalar n =>
    if p.reissue then [(6 + 2 ^ 8 * n + 2 ^ 48 * (p.width % 4) + 2 ^ 50 * p.signed.toNat, p.va.toNat)]
    else [(7 + 2 ^ 8 * n + 2 ^ 42, 0)]
  | .tile q => [(6 + 2 ^ 8 * (q - base) + 2 ^ 44 * (p.fmt % 16) + 2 ^ 50 * p.coats.toNat + 2 ^ 51, p.va.toNat),
      (p.stride.toNat % 2 ^ 32 + 2 ^ 32 * (p.nfr.toNat % 2 ^ 16), p.pq.toNat)]

/-- A tile result. -/
def isTile (i : InFlight) : Bool := match i.w with
  | .tile _ _ => true
  | _ => false

/-- A result that a stop dumps: any but the trap that a poisoned load brings. -/
def dumped (i : InFlight) : Bool := match i.w with
  | .owe _ => false
  | _ => true

/-- The bytes of a tile's image (R139). -/
def imageOf (t : Tile) : List Byte := (List.range 1024).flatMap fun i => leBytes 4 (lane t i).toNat

/-- The first 0x1900 bytes of the FULL save area of context `c`, stopped in this state with message KIND `kind`, as 64-bit words,
with `q` its results in flight in the order of their entries (R419 to R421). Which write is in 0x298 where two of one register are
pending is the model's choice (log 102), and so is bit 50 of a vector request (log 30). -/
structure AreaWords (s : State) (c kind : Nat) (q : List InFlight) (ws : List Word) : Prop where
  length : ws.length = 800
  header : ∀ e ∈ [(0x00, 2 ^ 32 + 1), (0x08, (s.srRead c 0x000).toNat), (0x10, kind), (0x18, s.gtc), (0x20, (s.ctx c).pc.toNat),
    (0x28, 0)], saveWord ws e.1 = BitVec.ofNat 64 e.2
  times : let k := s.core (coreOf c)
    let left (t : Nat) : Nat := min (t - s.cycle) 255
    saveWord ws 0x30 = BitVec.ofNat 64 (left (s.ctx c).ready + 2 ^ 8 * left k.vaFree + 2 ^ 16 * left k.vbFree +
      2 ^ 24 * left k.xcFree + 2 ^ 32 * left k.saDiv + 2 ^ 40 * left k.sbDiv)
  busy : saveWord ws 0x40 = BitVec.ofNat 64
    (((s.core (coreOf c)).tags.filter fun t => t.2.busy && t.2.ctx == ctxOf c).map fun t => 2 ^ t.1).sum
  zeros : ∀ j, 9 ≤ j → j < 32 → saveWord ws (8 * j) = 0
  scalars : ∀ i : BitVec 5, saveWord ws (0x100 + 8 * i.toNat) = (s.ctx c).sreg i
  preds : ∀ i : BitVec 4, (saveWord ws 0x200).getLsbD i.toNat = (s.ctx c).preg i
  special : ∀ e ∈ [(0x208, 0x001), (0x210, 0x002), (0x218, 0x003), (0x220, 0x004), (0x228, 0x005), (0x230, 0x006), (0x238, 0x007),
    (0x240, 0x008), (0x248, 0x009), (0x250, 0x00A), (0x258, 0x022), (0x260, 0x030), (0x268, 0x031), (0x270, 0x032),
    (0x278, 0x033), (0x280, 0x041), (0x288, 0x042), (0x290, 0x050)], saveWord ws e.1 = s.srRead c e.2
  formats : let word (xc : Bool) (now : BitVec 16) : Nat := match (s.ctx c).nfrPend.find? fun e => e.1 == xc with
      | some e => e.2.1.toNat + 2 ^ 16 * e.2.2
      | none => now.toNat
    saveWord ws 0x298 = BitVec.ofNat 64 (word false (s.ctx c).nfrMx + 2 ^ 32 * word true (s.ctx c).nfrXc)
  prefixes : let pfx (k : Nat) : Nat := match Tbl.find (s.ctx c).prefixes k with
      | some v => 2 ^ 24 + v.toNat
      | none => 0
    ∀ j, j < 4 → saveWord ws (0x2A0 + 8 * j) = BitVec.ofNat 64 (pfx (2 * j) + if j = 3 then 0 else 2 ^ 32 * pfx (2 * j + 1))
  arrival : (∀ p ∈ (s.ctx c).pending, p.dest = .arrival → p.saveIa ≠ none) → ∀ a n, (s.ctx c).arrival = some (a, n) →
    saveWord ws 0x2C0 = a ∧ saveWord ws 0x2C8 = BitVec.ofNat 64 (2 ^ 32 + n % 2 ^ 32)
  noArrival : (s.ctx c).arrival = none → saveWord ws 0x2C0 = 0 ∧ saveWord ws 0x2C8 = 0
  paid : saveWord ws 0x2D0 = BitVec.ofNat 64 (s.ctx c).paid
  windows : ∀ j, j < 32 → saveWord ws (0x300 + 8 * j) = s.srRead c (0x100 + j)
  count : saveWord ws 0x410 = BitVec.ofNat 64 (s.ctx c).held.length
  progress : saveWord ws 0x400 = match (s.ctx c).held.head? with
    | none => 0
    | some o => BitVec.ofNat 64 (2 ^ 48 + 2 ^ 44 * o.op + 2 ^ 43 * o.acc + 2 ^ 42 + 2 ^ 32 * o.rows + o.seg)
  progressPc : saveWord ws 0x408 = match (s.ctx c).held.head? with
    | none => 0
    | some o => o.pc
  held : ∀ i o, i < 9 → (s.ctx c).held[i]? = some o → saveWord ws (0x440 + 96 * i) = o.word.zeroExtend 64 ∧
    saveWord ws (0x448 + 96 * i) = o.pc ∧ saveWord ws (0x450 + 96 * i) = o.nfr ∧
    ∀ j, j < 8 → saveWord ws (0x458 + 96 * i + 8 * j) = wordAt o.group j
  freePlan : (s.ctx c).run = .free → ∀ j, j < 5 → saveWord ws (0x800 + 8 * j) = 0
  plan : (s.ctx c).run = .booked → ∀ b, s.bookingOf c = some b →
    saveWord ws 0x800 = BitVec.ofNat 64 b.planIa ∧
    saveWord ws 0x808 = BitVec.ofNat 64 (b.cut + (s.tick - b.start) + 2 ^ 16 * (s.cycle % 32)) ∧
    saveWord ws 0x810 = BitVec.ofNat 64 (s.ctx c).slack ∧ saveWord ws 0x818 = (if b.slip then 1 else 0) ∧
    saveWord ws 0x820 = b.base
  counts : saveWord ws 0x38 = BitVec.ofNat 64 (q.length +
    (((s.ctx c).pending.filter fun p => p.saveIa.isNone).flatMap (pendingWords (s.ctx c).base)).length + 2 ^ 8 * q.countP isTile)
  inflight : ∀ j i, q[j]? = some i → let e := entryWords (s.ctx c).base s.cycle ((q.take j).countP isTile) i
    saveWord ws (0x900 + 16 * j) = BitVec.ofNat 64 e.1 ∧ saveWord ws (0x908 + 16 * j) = BitVec.ofNat 64 e.2
  pending : ∀ j e, (((s.ctx c).pending.filter fun p => p.saveIa.isNone).flatMap (pendingWords (s.ctx c).base))[j]? = some e →
    saveWord ws (0x900 + 16 * (q.length + j)) = BitVec.ofNat 64 e.1 ∧ saveWord ws (0x908 + 16 * (q.length + j)) = BitVec.ofNat 64 e.2
  landing : ∀ i, i < 32 → let l := Tbl.look (s.core (coreOf c)).landing i {}
    let w (j : Nat) : Word := saveWord ws (0x1100 + 64 * i + 8 * j)
    if l.st = .empty ∨ l.owner ≠ ctxOf c then ∀ j, j < 8 → w j = 0
    else w 0 = (if l.st = .waiting then 1 else 2) ∧ w 1 = l.va ∧ w 2 = l.stride ∧ w 3 = BitVec.ofNat 64 (l.fmt % 16) ∧
      w 4 = l.nfr ∧ w 5 = l.pq

end Sys2Proof.Claims

section Statements
open Sys2Proof Sys2Proof.Machine Sys2Proof.Claims

/-! ## The statements. The parts of a statement that has several are named first. -/

/-- Words that the manual writes out, each with the slot in which its listing has it (R31 to R36, R90, R137, R168). -/
def Obligations.WorkedWordsDecode : Prop :=
  decodeSlot 0 0x02210040 = .ok (.addi 4 4 64) ∧
  decodeSlot 0 0x21244400 = .ok (.cmpi 2 2 4 1024) ∧
  decodeSlot 1 0x430FFFFF = .ok (.loop 0 0xFFFFF) ∧
  decodeSlot 1 0x45180002 = .ok (.loopseti 3 2) ∧
  decodeSlot 2 0x01008004 = .ok (.vaddF 0 2 0 1) ∧
  decodeSlot 2 0x1F928901 = .ok (.vaddiI 9 10 9 1) ∧
  decodeSlot 3 0x08004004 = .ok (.rred 0 1 0 1) ∧
  decodeSlot 4 0x05039203 = .ok (.sld 0 7 4 2 0 3) ∧
  decodeSlot 4 0x0E0390B0 = .ok (.cas 0 7 4 5 4) ∧
  decodeSlot 5 0x01008880 = .ok (.mma 0 0 0 8 1 1) ∧
  decodeSlot 6 0x02018500 = .ok (.xcvt 0 6 5 0) ∧
  decodeSlot 6 0x10016001 = .ok (.cpy 0 5 16 1) ∧
  decodeSlot 6 0x20001008 = .ok (.whfetch 0 8 8) ∧
  decodeSlot 6 0x18009000 = .ok (.coll 0 2 8 0) ∧
  decodeSlot 7 0x07000012 = .ok (.trap 0 0x12) ∧
  decodeSlot 7 0x35021800 = .ok (.book 3 4 6) ∧
  decodeSlot 7 0x060218A0 = .ok (.spawnW 0 4 6 2)

/-- Every well-formed slot word, with every operand at every value, decodes from its encoding in every slot in which it
stands (R20 to R36, R44 to R52). -/
def Obligations.DecodeOfEncode : Prop :=
  ∀ (i : Instr) (k : Nat), i.wf = true → standsIn k i = true → decodeSlot k (encode i) = .ok i

/-- A word that decodes is the encoding of what it decodes to, which keeps its limits: no reserved bit is ignored, and no
word is read as its neighbour (R22). -/
def Obligations.EncodeOfDecode : Prop :=
  ∀ (i : Instr) (k : Nat) (w : BitVec 32), k < 8 → decodeSlot k w = .ok i →
    encode i = w ∧ i.wf = true ∧ standsIn k i = true

/-- NOP has no effect; PFX leaves its payload pending for the same slot of the successor, and a PFX that finds a pending
prefix traps with PREFIX (R22, R27, R28). -/
def Sys2Proof.Claims.PrefixWords : Prop :=
  ∀ (s : State) (p : BitVec 24),
    (Ready .nop s → exec .nop s = .next s.commit) ∧
    (Ready (.pfx p) s → exec (.pfx p) s =
      .next (s.commit.onCx fun x => { x with prefixes := Tbl.put x.prefixes s.iss.slot p })) ∧
    (s.iss.sure = false → (Tbl.find s.cx.prefixes s.iss.slot).isSome →
      exec (.pfx p) s = .next (s.takeTrap { code := 0x02, stage := 2, word := true }))

/-- A word whose predicate is false commits without its effect (R26). -/
def Sys2Proof.Claims.FalsePredicateSuppresses : Prop :=
  ∀ (i : Instr) (p : BitVec 4) (s : State), predOf i = some p → s.cx.preg p = false → Ready i s →
    exec i s = .next s.commit

/-- The word of an instruction that accepts no prefix traps with PREFIX when its slot holds one, and one that names a
vector register outside the allotment with VREG, whatever its predicate is; ILLOP by the value of PQ, which PlaneLimitTraps and
Transforms state, ranks before it (R24, R28, R43). -/
def Sys2Proof.Claims.WordTraps : Prop :=
  ∀ (i : Instr) (s : State), (∃ k, standsIn k i = true) → i.wf = true → s.iss.sure = false →
    ((Tbl.find s.cx.prefixes s.iss.slot).isSome → Instr.takesPrefix i = false →
      exec i s = .next (s.takeTrap { code := 0x02, stage := 2, word := true })) ∧
    (Tbl.find s.cx.prefixes s.iss.slot = none ∨ Instr.takesPrefix i = true → Instr.badImm i s = false →
      (PqAllows i s.cx.pq ∨ ∃ p, predOf i = some p ∧ s.cx.preg p = false) →
      (∃ n ∈ vregsOf i, s.cx.vcount ≤ n.toNat) →
      exec i s = .next (s.takeTrap { code := 0x04, stage := 3, word := true }))

/-- What holds of every slot word: NOP and PFX, a false predicate, and the words that trap. -/
def Obligations.SlotWordRules : Prop :=
  Sys2Proof.Claims.PrefixWords ∧
  Sys2Proof.Claims.FalsePredicateSuppresses ∧
  Sys2Proof.Claims.WordTraps

/-- The integer operations, each after the latency that R44 gives it (R125). -/
def Sys2Proof.Claims.IntegerAlu : Prop :=
  ∀ (s : State) (d a b : BitVec 5) (i : BitVec 14) (p : BitVec 4),
    let x := s.cx.sreg a
    let y := s.cx.sreg b
    let m := immediate s i
    let put (lat : Nat) (v : Word) : State := s.result lat (.scalar d.toNat v)
    Does (.add d a b p) s (put 1 (BitVec.ofInt 64 (x.toInt + y.toInt))) ∧
    Does (.sub d a b p) s (put 1 (BitVec.ofInt 64 (x.toInt - y.toInt))) ∧
    Does (.addi d a i) s (put 1 (BitVec.ofInt 64 (x.toInt + m.toInt))) ∧
    Does (.and d a b p) s (put 1 (x &&& y)) ∧
    Does (.or d a b p) s (put 1 (x ||| y)) ∧
    Does (.xor d a b p) s (put 1 (x ^^^ y)) ∧
    Does (.andi d a i) s (put 1 (x &&& m)) ∧
    Does (.ori d a i) s (put 1 (x ||| m)) ∧
    Does (.xori d a i) s (put 1 (x ^^^ m)) ∧
    Does (.min d a b p) s (put 1 (BitVec.ofInt 64 (Min.min x.toInt y.toInt))) ∧
    Does (.max d a b p) s (put 1 (BitVec.ofInt 64 (Max.max x.toInt y.toInt))) ∧
    Does (.minu d a b p) s (put 1 (BitVec.ofNat 64 (Min.min x.toNat y.toNat))) ∧
    Does (.maxu d a b p) s (put 1 (BitVec.ofNat 64 (Max.max x.toNat y.toNat))) ∧
    Does (.mul d a b p) s (put 3 (BitVec.ofInt 64 (x.toInt * y.toInt))) ∧
    Does (.mulh d a b p) s (put 3 (BitVec.ofInt 64 (x.toInt * y.toInt / 2 ^ 64))) ∧
    Does (.mulhu d a b p) s (put 3 (BitVec.ofNat 64 (x.toNat * y.toNat / 2 ^ 64))) ∧
    (∃ n : Nat, n ≤ 64 ∧ (∀ j, j < n → x.getLsbD (63 - j) = false) ∧ (n < 64 → x.getLsbD (63 - n) = true) ∧
      Does (.clz d a p) s (put 1 (BitVec.ofNat 64 n))) ∧
    Does (.popc d a p) s (put 1 (BitVec.ofNat 64 ((List.range 64).countP fun j => x.getLsbD j))) ∧
    (∃ c : Nat, c < 2 ^ 127 ∧
      (∀ k, c.testBit k = (List.range 64).foldl (fun r j => r ^^ (y.getLsbD j && decide (j ≤ k) && x.getLsbD (k - j)))
        false) ∧
      Does (.clmul d a b p) s (put 3 (BitVec.ofNat 64 c)) ∧
      Does (.clmulh d a b p) s (put 3 (BitVec.ofNat 64 (c / 2 ^ 64))))

/-- The shifts: the count is sb[5:0], or imm14, which must not exceed 63 (R126). -/
def Sys2Proof.Claims.Shifts : Prop :=
  ∀ (s : State) (d a b : BitVec 5) (i : BitVec 14) (p : BitVec 4),
    let x := s.cx.sreg a
    let n := (s.cx.sreg b).toNat % 64
    let put (v : Word) : State := s.result 1 (.scalar d.toNat v)
    Does (.shl d a b p) s (put (BitVec.ofNat 64 (x.toNat * 2 ^ n))) ∧
    Does (.shr d a b p) s (put (BitVec.ofNat 64 (x.toNat / 2 ^ n))) ∧
    Does (.sra d a b p) s (put (BitVec.ofInt 64 (x.toInt / 2 ^ n))) ∧
    Does (.shli d a i) s (put (BitVec.ofNat 64 (x.toNat * 2 ^ i.toNat))) ∧
    Does (.shri d a i) s (put (BitVec.ofNat 64 (x.toNat / 2 ^ i.toNat))) ∧
    Does (.srai d a i) s (put (BitVec.ofInt 64 (x.toInt / 2 ^ i.toNat))) ∧
    (63 < i.toNat → ∀ k, k < 2 →
      decodeSlot k (encode (.shli d a i)) = .error .badLimit ∧ decodeSlot k (encode (.shri d a i)) = .error .badLimit ∧
      decodeSlot k (encode (.srai d a i)) = .error .badLimit)

/-- SEL takes sa or sb by its predicate and is never suppressed; LI writes its extended immediate (R128). -/
def Sys2Proof.Claims.SelectAndLoadImmediate : Prop :=
  ∀ (s : State) (d a b : BitVec 5) (n : BitVec 4) (i : BitVec 19),
    Does (.sel d a b n) s (s.result 1 (.scalar d.toNat (if s.cx.preg n then s.cx.sreg a else s.cx.sreg b))) ∧
    Does (.li d i) s (s.result 1 (.scalar d.toNat (immediate s i)))

/-- The scalar integer words. -/
def Obligations.ScalarIntegers : Prop :=
  Sys2Proof.Claims.IntegerAlu ∧
  Sys2Proof.Claims.Shifts ∧
  Sys2Proof.Claims.SelectAndLoadImmediate

/-- Division: every case has a defined result, after 14 cycles in which the slot's divider is occupied; a divide that
finds it occupied waits (R127). -/
def Sys2Proof.Claims.Division : Prop :=
  ∀ (s : State) (d a b : BitVec 5) (p : BitVec 4),
    let x := s.cx.sreg a
    let y := s.cx.sreg b
    let free := if s.iss.slot = 0 then s.ico.saDiv else s.ico.sbDiv
    let done (v : Word) : State := (s.result 14 (.scalar d.toNat v)).onCore s.iss.core fun k =>
      if s.iss.slot = 0 then { k with saDiv := s.cycle + 14 } else { k with sbDiv := s.cycle + 14 }
    DoesIf (EngineFree free 14 s) (.div d a b p) s
      (done (if y = 0 then BitVec.ofInt 64 (-1)
        else if x.toInt = -2 ^ 63 ∧ y.toInt = -1 then BitVec.ofInt 64 (-2 ^ 63) else BitVec.ofInt 64 (x.toInt.tdiv y.toInt))) ∧
    DoesIf (EngineFree free 14 s) (.divu d a b p) s
      (done (if y = 0 then BitVec.ofNat 64 (2 ^ 64 - 1) else BitVec.ofNat 64 (x.toNat / y.toNat))) ∧
    DoesIf (EngineFree free 14 s) (.rem d a b p) s
      (done (if y = 0 then x else if x.toInt = -2 ^ 63 ∧ y.toInt = -1 then 0
        else BitVec.ofInt 64 (x.toInt - y.toInt * x.toInt.tdiv y.toInt))) ∧
    DoesIf (EngineFree free 14 s) (.remu d a b p) s
      (done (if y = 0 then x else BitVec.ofNat 64 (x.toNat % y.toNat))) ∧
    (∀ i ∈ ([.div d a b p, .divu d a b p, .rem d a b p, .remu d a b p] : List Instr), s.iss.sure = false → Free i s →
      Live i s → s.cycle < free → exec i s = .next (s.hold false))

/-- Division and remainder. -/
def Obligations.DivisionResults : Prop :=
  Sys2Proof.Claims.Division

/-- The comparisons: EQ, NE by pattern, LT, GE signed, LTU, GEU unsigned; a code of 6 or more is ILLOP, and p0 takes no
value (R25, R129). -/
def Sys2Proof.Claims.Comparisons : Prop :=
  ∀ (s : State) (q p : BitVec 4) (a b : BitVec 5) (c : BitVec 5) (e : BitVec 3) (i : BitVec 12),
    let x := s.cx.sreg a
    let holds (cc : Nat) (y : Word) : Bool :=
      if cc = 0 then decide (x = y) else if cc = 1 then decide (x ≠ y) else if cc = 2 then decide (x.toInt < y.toInt)
      else if cc = 3 then decide (y.toInt ≤ x.toInt) else if cc = 4 then decide (x.toNat < y.toNat)
      else decide (y.toNat ≤ x.toNat)
    Does (.cmp q a b p c) s (s.result 1 (.pred q.toNat (holds c.toNat (s.cx.sreg b)))) ∧
    Does (.cmpi q e a i) s (s.result 1 (.pred q.toNat (holds e.toNat (immediate s i)))) ∧
    (5 < c.toNat → decodeSlot 0 (encode (.cmp q a b p c)) = .error .badLimit) ∧
    (5 < e.toNat → decodeSlot 0 (encode (.cmpi q e a i)) = .error .badLimit) ∧
    ∀ v, (s.land s.cs (.pred 0 v)).ctx s.cs = s.cx

/-- PLOG, PGET and PPUT (R130). -/
def Sys2Proof.Claims.PredicateWords : Prop :=
  ∀ (s : State) (q a b p : BitVec 4) (f : BitVec 5) (d e : BitVec 5),
    let x := s.cx.preg a
    let y := s.cx.preg b
    let v := s.cx.sreg e
    Does (.plog q a b p f) s (s.result 1 (.pred q.toNat
      (if f.toNat = 0 then x && y else if f.toNat = 1 then x || y else if f.toNat = 2 then x != y else x && !y))) ∧
    (3 < f.toNat → decodeSlot 0 (encode (.plog q a b p f)) = .error .badLimit) ∧
    (∃ m : Word, (∀ j : BitVec 4, m.getLsbD j.toNat = s.cx.preg j) ∧ m.toNat < 2 ^ 16 ∧
      Does (.pget d p) s (s.result 1 (.scalar d.toNat m))) ∧
    Does (.pput e p) s ((List.range 15).foldl (fun t j => t.result 1 (.pred (j + 1) (v.getLsbD (j + 1)))) s)

/-- The words that write or read predicates. -/
def Obligations.PredicatesAndComparisons : Prop :=
  Sys2Proof.Claims.Comparisons ∧
  Sys2Proof.Claims.PredicateWords

/-- MFSR and MTSR: the value of the register at issue with latency 2, the write of a read-only register ignored, and the
write of a window register at task privilege a PRIV trap; a number that is not assigned, and an MTSR to NFRMX or NFRXC, are
ILLOP (R45, R115, R131). -/
def Sys2Proof.Claims.SpecialRegisterWords : Prop :=
  ∀ (s : State) (d a : BitVec 5) (r : BitVec 12),
    (¬ Assigned r.toNat → decodeSlot 0 (encode (.mfsr d r)) = .error .badLimit) ∧
    (¬ Assigned r.toNat ∨ r = 0x041 ∨ r = 0x042 → decodeSlot 0 (encode (.mtsr a r)) = .error .badLimit) ∧
    Does (.mfsr d r) s (s.result 2 (.scalar d.toNat (s.srRead s.cs r.toNat))) ∧
    (srReadOnly r.toNat = true → Does (.mtsr a r) s s) ∧
    (srReadOnly r.toNat = false → (r.toNat < 0x100 ∨ s.cx.priv ≠ 0) →
      Does (.mtsr a r) s (s.result 2 (.sreg r.toNat (s.cx.sreg a)))) ∧
    (s.iss.sure = false → Free (.mtsr a r) s → 0x100 ≤ r.toNat → s.cx.priv = 0 →
      exec (.mtsr a r) s = .next (s.takeTrap { code := 0x05, stage := 3, word := true }))

/-- What each special register reads: the fields of the context, the core and the clock, at their places, and 0 elsewhere
(R108, R115, R116, R117, R118, R119, R120, R122, R284). -/
def Sys2Proof.Claims.SpecialRegisterContents : Prop :=
  ∀ (s : State) (c : Nat), c < 2048 →
    let x := s.ctx c
    let k := c / 4
    let v (n : Nat) : Word := s.srRead c n
    v 0x000 = BitVec.ofNat 64 (c % 4 + 4 * k + 2 ^ 11 * (k / 2) + 2 ^ 19 * (k / 16) + 2 ^ 24 * (k / 64) + 2 ^ 27 * (k / 128)) ∧
    v 0x001 = BitVec.ofNat 64 (4 * x.priv + (if x.run = .booked then 2 else 0) + if x.chk then 1 else 0) ∧
    v 0x002 = BitVec.ofNat 64 (65536 * x.base + 256 * x.rot + x.vcount) ∧
    v 0x003 = BitVec.ofNat 64 x.rrb ∧ v 0x004 = x.lc ∧ v 0x005 = x.ec ∧ v 0x006 = x.esc.zeroExtend 64 ∧ v 0x007 = x.pq ∧
    v 0x008 = x.taskid ∧ v 0x009 = x.inst ∧ v 0x00A = x.tags ∧ v 0x00B = (s.core k).flags.zeroExtend 64 ∧
    v 0x020 = BitVec.ofNat 64 (s.cycle * 5 / 9) ∧ v 0x021 = BitVec.ofNat 64 (s.cycle / 32) ∧
    v 0x022 = (if x.run = .booked then BitVec.ofNat 64 x.slack else 0) ∧
    v 0x030 = x.tcause ∧ v 0x031 = x.tpc ∧ v 0x032 = x.taddr ∧ v 0x033 = BitVec.ofNat 64 x.tslot ∧
    v 0x041 = x.nfrMx.zeroExtend 64 ∧ v 0x042 = x.nfrXc.zeroExtend 64 ∧ v 0x050 = x.landpend.zeroExtend 64 ∧
    ∀ w j, w < 8 → j < 4 → v (0x100 + 4 * w + j) = Tbl.look x.aw (4 * w + j) 0

/-- The write of a special register, as its access code has it, when it reaches the register: CHK alone of CTXSTAT, RRB modulo
ROT, LC and EC whole, the 32 bits of ESC, the fields of PQ and of a window's words, and the bits written as 1 cleared in TAGS
and FLAGS; what is reserved stays 0, and every other register of the context reads as before (R75, R108, R115, R117, R121,
R284). -/
def Sys2Proof.Claims.SpecialRegisterWrites : Prop :=
  ∀ (s : State) (c n : Nat) (v : Word),
    let x := s.ctx c
    let t := s.land c (.sreg n v)
    let at' (j : Nat) : Bool := (t.srRead c n).getLsbD j
    let old (j : Nat) : Bool := (s.srRead c n).getLsbD j
    (n = 0x001 → ∀ j, j < 64 → at' j = if j = 0 then v.getLsbD 0 else old j) ∧
    (n = 0x003 → t.srRead c n = BitVec.ofNat 64 (if x.rot = 0 then 0 else v.toNat % x.rot)) ∧
    (n = 0x004 ∨ n = 0x005 → t.srRead c n = v) ∧
    (n = 0x006 → ∀ j, j < 64 → at' j = (decide (j < 32) && v.getLsbD j)) ∧
    (n = 0x007 → ∀ j, j < 64 → at' j = ((decide (j < 6) || decide (16 ≤ j ∧ j < 48)) && v.getLsbD j)) ∧
    (n = 0x00A → ∀ j, j < 64 → at' j = (old j && !v.getLsbD j)) ∧
    (n = 0x00B → ∀ j, j < 64 → at' j = (old j && !v.getLsbD j)) ∧
    (∀ w i, w < 8 → i < 4 → n = 0x100 + 4 * w + i → ∀ j, j < 64 → at' j = (v.getLsbD j &&
      if i = 3 then decide (j < 8) else decide (16 ≤ j) && (i != 2 || decide (j < 52)))) ∧
    (∀ m, Assigned m → m ≠ n → t.srRead c m = s.srRead c m) ∧
    (∀ d, d ≠ c → t.ctx d = s.ctx d) ∧ (t.ctx c).s = x.s ∧ (t.ctx c).p = x.p ∧ (t.ctx c).pc = x.pc

/-- The moves to and from special registers, what each reads, and what a write leaves. -/
def Obligations.SpecialRegisterMoves : Prop :=
  Sys2Proof.Claims.SpecialRegisterWords ∧
  Sys2Proof.Claims.SpecialRegisterContents ∧
  Sys2Proof.Claims.SpecialRegisterWrites

/-- Scalar floating point reads bits [31:0], writes them and clears [63:32]; the lane of an origin NaN is 0 (R132,
R133). -/
def Obligations.ScalarFloat : Prop :=
  ∀ (s : State) (d a b : BitVec 5) (q p : BitVec 4) (c k : BitVec 5),
    let x : Lane := (s.cx.sreg a).truncate 32
    let y : Lane := (s.cx.sreg b).truncate 32
    let z : Lane := (s.cx.sreg d).truncate 32
    let org := originNaN s.iss.pc 0
    let put (v : Lane) : State := s.result 4 (.scalar d.toNat (v.zeroExtend 64))
    let conv (v : Word) : State := s.result 3 (.scalar d.toNat v)
    Does (.fadds d a b p) s (put (fadd org x y)) ∧
    Does (.fsubs d a b p) s (put (fsub org x y)) ∧
    Does (.fmuls d a b p) s (put (fmul org x y)) ∧
    Does (.fmas d a b p) s (put (ffma org x y z)) ∧
    Does (.fmins d a b p) s (put (fminOp x y)) ∧
    Does (.fmaxs d a b p) s (put (fmaxOp x y)) ∧
    Does (.fcmps q a b p c) s (s.result 4 (.pred q.toNat (fcmp c.toNat x y))) ∧
    (k.toNat = 0 → Does (.fcvts d a p k) s (conv ((rneInt (s.cx.sreg a).toInt 0).zeroExtend 64))) ∧
    (k.toNat = 1 → Does (.fcvts d a p k) s (conv ((rtzInt (s.cx.sreg a).toInt).zeroExtend 64))) ∧
    (k.toNat = 2 → Does (.fcvts d a p k) s (conv (BitVec.ofInt 64 (f32ToInt false (-2 ^ 63) (2 ^ 63 - 1) x)))) ∧
    (k.toNat = 3 → Does (.fcvts d a p k) s (conv (BitVec.ofInt 64 (f32ToInt true (-2 ^ 63) (2 ^ 63 - 1) x)))) ∧
    (k.toNat = 4 → Does (.fcvts d a p k) s (conv (BitVec.ofNat 64 (narrow fmtBF16 x)))) ∧
    (k.toNat = 5 → Does (.fcvts d a p k) s (conv ((widen fmtBF16 ((s.cx.sreg a).toNat % 65536)).zeroExtend 64))) ∧
    (5 < k.toNat → decodeSlot 0 (encode (.fcvts d a p k)) = .error .badLimit)

/-- BR, CALL and JR go to their target, two cycles late; CALL links through s31, and JR to an address that is no bundle's
traps with ALIGN (R21, R41, R134). -/
def Sys2Proof.Claims.Branches : Prop :=
  ∀ (s : State) (p : BitVec 4) (o : BitVec 20) (a : BitVec 5),
    let target : Word := s.iss.pc + 32 * immediate s o
    let go (s : State) (t : Word) : State := s.onCtx s.cs fun x => { x with pc := t, ready := x.ready + 2 }
    Does (.br p o) s (go s target) ∧
    Does (.call p o) s (go (s.result 1 (.scalar 31 (s.iss.pc + 32))) target) ∧
    DoesIf ((s.cx.sreg a).toNat % 32 = 0) (.jr a p) s (go s (s.cx.sreg a)) ∧
    (s.iss.sure = false → Free (.jr a p) s → s.cx.preg p = true → (s.cx.sreg a).toNat % 32 ≠ 0 →
      exec (.jr a p) s = .next (s.takeTrap { code := 0x0D, addr := s.cx.sreg a, stage := 5 }))

/-- LOOPSET and LOOPSETI set LC, EC, RRB and the stage predicates in one cycle (R135). That LOOPSET takes sa as it is, without
asking its sign, is the model's choice (log 123). -/
def Sys2Proof.Claims.LoopPreparation : Prop :=
  ∀ (s : State) (a b e : BitVec 5) (p : BitVec 4) (i : BitVec 14),
    let prepared (lc ec : Word) : State :=
      (List.range 8).foldl (fun t j => t.result 1 (.pred (8 + j) (decide (j = 0))))
        (((s.result 1 (.sreg 0x004 lc)).result 1 (.sreg 0x005 ec)).result 1 (.sreg 0x003 0))
    Does (.loopset a b p) s (prepared (s.cx.sreg a) (s.cx.sreg b)) ∧
    Does (.loopseti e i) s (prepared (immediate s i) (e.zeroExtend 64)) ∧
    (s.iss.sure = false → (immediate s i).toInt < 0 →
      exec (.loopseti e i) s = .next (s.takeTrap { code := 0x01, stage := 3, word := true }))

/-- LOOP: which of LC and EC counts down, whether it rotates and whether it is taken, from the values that its bundle
reads; a taken LOOP delays nothing (R136, R137). The one that does not count keeps what it will hold in the next cycle, when a
write in flight may reach it (R38). -/
def Sys2Proof.Claims.LoopTurns : Prop :=
  ∀ (s : State) (p : BitVec 4) (o : BitVec 20) (lc ec : Word),
    let x := s.cx
    NextHolds x s.cycle 0x004 x.lc lc → NextHolds x s.cycle 0x005 x.ec ec →
    let rrb : Nat := if x.rot = 0 then 0 else (x.rrb + x.rot - 1) % x.rot
    let turn (lc ec : Word) (live : Bool) : State :=
      (((s.result 1 (.sreg 0x004 lc)).result 1 (.sreg 0x005 ec)).result 1 (.sreg 0x003 (BitVec.ofNat 64 rrb))).result 1
        (.loopShift live)
    let taken (t : State) : State := t.onCtx s.cs fun x => { x with pc := s.iss.pc + 32 * immediate s o }
    (x.lc ≠ 0 → Does (.loop p o) s (taken (turn (x.lc - 1) ec true))) ∧
    (x.lc = 0 → 1 < x.ec.toNat → Does (.loop p o) s (taken (turn lc (x.ec - 1) false))) ∧
    (x.lc = 0 → x.ec = 1 → Does (.loop p o) s (turn lc 0 false)) ∧
    (x.lc = 0 → x.ec = 0 → Does (.loop p o) s s)

/-- Branches and the hardware loop. -/
def Obligations.ControlFlow : Prop :=
  Sys2Proof.Claims.Branches ∧
  Sys2Proof.Claims.LoopPreparation ∧
  Sys2Proof.Claims.LoopTurns

/-- The floating-point lanes of VA: each result, its latency, the NaN operand order a, b or s, old d, the lane of an origin
NaN, and the four cycles in which the engine is occupied (R40, R141, R143, R145 to R148). -/
def Sys2Proof.Claims.VectorFloat : Prop :=
  ∀ (s : State) (p : BitVec 4) (d a b : BitVec 6) (r : BitVec 5) (m : BitVec 2),
    let x := lane (s.vreg a)
    let y := lane (s.vreg b)
    let z := lane (s.vreg d)
    let v : Lane := (s.cx.sreg r).truncate 32
    let org := originNaN s.iss.pc
    let go (i : Instr) (lat : Nat) (f : Nat → Lane) : Prop := DoesIf (EngineFree s.ico.vaFree 4 s) i s
      ((s.result lat (.tile (s.cx.phys d.toNat) (tileOf f))).onCore s.iss.core fun k => { k with vaFree := s.cycle + 4 })
    go (.vaddF p d a b) 6 (fun j => fadd (org j) (x j) (y j)) ∧
    go (.vsubF p d a b) 6 (fun j => fsub (org j) (x j) (y j)) ∧
    go (.vmulF p d a b) 6 (fun j => fmul (org j) (x j) (y j)) ∧
    go (.vfmaF p d a b) 6 (fun j => ffma (org j) (x j) (y j) (z j)) ∧
    go (.vmaxF p d a b) 6 (fun j => fmaxOp (x j) (y j)) ∧
    go (.vminF p d a b) 6 (fun j => fminOp (x j) (y j)) ∧
    go (.vaddsF p d a r) 6 (fun j => fadd (org j) (x j) v) ∧
    go (.vmulsF p d a r) 6 (fun j => fmul (org j) (x j) v) ∧
    go (.vfmasF p d a r) 6 (fun j => ffma (org j) (x j) v (z j)) ∧
    go (.vexp2 p d a b) 10 (fun j => fexp2 (org j) (x j) (y j) s.cx.esc) ∧
    go (.vrcp p d a) 12 (fun j => frcp (x j)) ∧
    go (.vrsq p d a) 12 (fun j => frsq (org j) (x j)) ∧
    (m = 0 → go (.vabsF p d a m) 6 (fun j => x j &&& 0x7FFFFFFF)) ∧
    (m = 1 → go (.vabsF p d a m) 6 (fun j => x j ^^^ 0x80000000)) ∧
    (m = 2 → go (.vabsF p d a m) 6 (fun j => x j ||| 0x80000000)) ∧
    (m = 3 → decodeSlot 2 (encode (.vabsF p d a m)) = .error .badLimit)

/-- The integer and bitwise lanes of VA (R149 to R154). -/
def Sys2Proof.Claims.VectorInteger : Prop :=
  ∀ (s : State) (p : BitVec 4) (d a b : BitVec 6) (c : BitVec 2) (n : BitVec 6) (i : BitVec 8),
    let x := lane (s.vreg a)
    let y := lane (s.vreg b)
    let z := lane (s.vreg d)
    let amount (j : Nat) : Nat := (y j).toNat % 32
    let mask (q : Nat → Prop) [DecidablePred q] (j : Nat) : Lane := if q j then 0xFFFFFFFF else 0
    let byteS (v : Lane) (e : Nat) : Int := (v.extractLsb' (8 * e) 8).toInt
    let byteU (v : Lane) (e : Nat) : Int := (v.extractLsb' (8 * e) 8).toNat
    let clamp (t : Int) : Lane := BitVec.ofInt 32 (max (-2 ^ 31) (min (2 ^ 31 - 1) t))
    let go (i : Instr) (lat : Nat) (f : Nat → Lane) : Prop := DoesIf (EngineFree s.ico.vaFree 4 s) i s
      ((s.result lat (.tile (s.cx.phys d.toNat) (tileOf f))).onCore s.iss.core fun k => { k with vaFree := s.cycle + 4 })
    go (.vaddI p d a b) 4 (fun j => BitVec.ofInt 32 ((x j).toInt + (y j).toInt)) ∧
    go (.vsubI p d a b) 4 (fun j => BitVec.ofInt 32 ((x j).toInt - (y j).toInt)) ∧
    go (.vmulI p d a b) 4 (fun j => BitVec.ofInt 32 ((x j).toInt * (y j).toInt)) ∧
    go (.vmaxI p d a b) 4 (fun j => BitVec.ofInt 32 (max (x j).toInt (y j).toInt)) ∧
    go (.vminI p d a b) 4 (fun j => BitVec.ofInt 32 (min (x j).toInt (y j).toInt)) ∧
    go (.vand p d a b) 4 (fun j => x j &&& y j) ∧
    go (.vor p d a b) 4 (fun j => x j ||| y j) ∧
    go (.vxor p d a b) 4 (fun j => x j ^^^ y j) ∧
    go (.vshl p d a b) 4 (fun j => BitVec.ofNat 32 ((x j).toNat * 2 ^ amount j)) ∧
    go (.vshr p d a b) 4 (fun j => BitVec.ofNat 32 ((x j).toNat / 2 ^ amount j)) ∧
    go (.vsra p d a b) 4 (fun j => BitVec.ofInt 32 ((x j).toInt / 2 ^ amount j)) ∧
    (c = 0 → n.toNat < 32 → go (.vshifti p d a c n) 4 (fun j => BitVec.ofNat 32 ((x j).toNat * 2 ^ n.toNat))) ∧
    (c = 1 → n.toNat < 32 → go (.vshifti p d a c n) 4 (fun j => BitVec.ofNat 32 ((x j).toNat / 2 ^ n.toNat))) ∧
    (c = 2 → n.toNat < 32 → go (.vshifti p d a c n) 4 (fun j => BitVec.ofInt 32 ((x j).toInt / 2 ^ n.toNat))) ∧
    (c = 3 ∨ 32 ≤ n.toNat → decodeSlot 2 (encode (.vshifti p d a c n)) = .error .badLimit) ∧
    go (.vaddiI p d a i) 4 (fun j => x j + (immediate s i).truncate 32) ∧
    (c = 0 → go (.vcmpi p d a b c) 4 (mask fun j => x j = y j) ∧ go (.vcmpu p d a b c) 4 (mask fun j => x j = y j)) ∧
    (c = 1 → go (.vcmpi p d a b c) 4 (mask fun j => x j ≠ y j) ∧ go (.vcmpu p d a b c) 4 (mask fun j => x j ≠ y j)) ∧
    (c = 2 → go (.vcmpi p d a b c) 4 (mask fun j => (x j).toInt < (y j).toInt) ∧
      go (.vcmpu p d a b c) 4 (mask fun j => (x j).toNat < (y j).toNat)) ∧
    (c = 3 → go (.vcmpi p d a b c) 4 (mask fun j => (x j).toInt ≤ (y j).toInt) ∧
      go (.vcmpu p d a b c) 4 (mask fun j => (x j).toNat ≤ (y j).toNat)) ∧
    go (.vcmpf p d a b c) 4 (mask fun j => fcmp c.toNat (x j) (y j) = true) ∧
    go (.vsel p d a b) 4 (fun j => (x j &&& z j) ||| (y j &&& ~~~(z j))) ∧
    go (.vdot4 p d a b) 6 (fun j => clamp ((z j).toInt + byteS (x j) 0 * byteS (y j) 0 + byteS (x j) 1 * byteS (y j) 1 +
      byteS (x j) 2 * byteS (y j) 2 + byteS (x j) 3 * byteS (y j) 3)) ∧
    go (.vdot4u p d a b) 6 (fun j => clamp ((z j).toInt + byteU (x j) 0 * byteS (y j) 0 + byteU (x j) 1 * byteS (y j) 1 +
      byteU (x j) 2 * byteS (y j) 2 + byteU (x j) 3 * byteS (y j) 3))

/-- Floating-point, integer and bitwise lanes. -/
def Obligations.VectorArithmetic : Prop :=
  Sys2Proof.Claims.VectorFloat ∧
  Sys2Proof.Claims.VectorInteger

/-- Moves, rotations, broadcasts and single lanes of VB: where each lane comes from, the limits, and the occupancy, four
cycles but one for VGET and VPUT (R33, R40, R155 to R157, R161, R162). -/
def Sys2Proof.Claims.VectorMoves : Prop :=
  ∀ (s : State) (p : BitVec 4) (d a : BitVec 6) (b e : BitVec 5) (m : BitVec 2) (n : BitVec 8),
    let x (r c : Nat) : Lane := lane (s.vreg a) (64 * r + c)
    let lin : Nat := s.immVx n
    let held (t : State) (k : Nat) : State := t.onCore s.iss.core fun y => { y with vbFree := s.cycle + k }
    let go (i : Instr) (lat : Nat) (f : Nat → Nat → Lane) : Prop := DoesIf (EngineFree s.ico.vbFree 4 s) i s
      (held (s.result lat (.tile (s.cx.phys d.toNat) (tileOf fun j => f (j / 64) (j % 64)))) 4)
    go (.vmov p d a) 2 x ∧
    go (.vsplat p d b) 2 (fun _ _ => (s.cx.sreg b).truncate 32) ∧
    (m = 0 → go (.vidx p d m) 2 (fun r _ => BitVec.ofNat 32 r)) ∧
    (m = 1 → go (.vidx p d m) 2 (fun _ c => BitVec.ofNat 32 c)) ∧
    (m = 2 → go (.vidx p d m) 2 (fun r c => BitVec.ofNat 32 (64 * r + c))) ∧
    (m = 3 → decodeSlot 3 (encode (.vidx p d m)) = .error .badLimit) ∧
    (n.toNat < 64 → go (.rrot p d a n) 3 (fun r c => x r ((((c : Int) - n.toNat) % 64).toNat))) ∧
    (n.toNat < 16 → go (.crot p d a n) 5 (fun r c => x ((((r : Int) - n.toNat) % 16).toNat) c)) ∧
    go (.rrotv p d a b) 3 (fun r c => x r ((((c : Int) - (s.cx.sreg b).toNat) % 64).toNat)) ∧
    (n.toNat < 64 → go (.rbcst p d a n) 3 (fun r _ => x r n.toNat)) ∧
    (n.toNat < 16 → go (.cbcst p d a n) 5 (fun _ c => x n.toNat c)) ∧
    (64 ≤ n.toNat → decodeSlot 3 (encode (.rrot p d a n)) = .error .badLimit ∧
      decodeSlot 3 (encode (.rbcst p d a n)) = .error .badLimit) ∧
    (16 ≤ n.toNat → decodeSlot 3 (encode (.crot p d a n)) = .error .badLimit ∧
      decodeSlot 3 (encode (.cbcst p d a n)) = .error .badLimit) ∧
    DoesIf (EngineFree s.ico.vbFree 1 s) (.vget p e a n) s (held (s.result 3 (.scalar e.toNat
      ((x (lin / 16 % 16) (4 * (lin % 16) + lin / 256 % 4)).signExtend 64))) 1) ∧
    DoesIf (EngineFree s.ico.vbFree 1 s) (.vput p d b n) s (held (s.result 3 (.lane (s.cx.phys d.toNat)
      (64 * (lin / 16 % 16) + (4 * (lin % 16) + lin / 256 % 4)) ((s.cx.sreg b).truncate 32))) 1) ∧
    (s.iss.sure = false → 1024 ≤ lin → exec (.vget p e a n) s =
      .next (s.takeTrap { code := 0x01, stage := 3, word := true })) ∧
    (s.iss.sure = false → 1024 ≤ lin → exec (.vput p d b n) s =
      .next (s.takeTrap { code := 0x01, stage := 3, word := true }))

/-- VCVT: each kind's lane, and the codes that are ILLOP (R69, R160). -/
def Sys2Proof.Claims.LaneConversion : Prop :=
  ∀ (s : State) (p : BitVec 4) (d a : BitVec 6) (k : BitVec 8),
    let x := lane (s.vreg a)
    let go (f : Lane → Lane) : Prop := DoesIf (EngineFree s.ico.vbFree 4 s) (.vcvt p d a k) s
      ((s.result 5 (.tile (s.cx.phys d.toNat) (tileOf fun j => f (x j)))).onCore s.iss.core fun y =>
        { y with vbFree := s.cycle + 4 })
    (k = 0 → go fun v => BitVec.ofInt 32 (f32ToInt false (-2 ^ 31) (2 ^ 31 - 1) v)) ∧
    (k = 1 → go fun v => BitVec.ofInt 32 (f32ToInt true (-2 ^ 31) (2 ^ 31 - 1) v)) ∧
    (k = 2 → go fun v => rneInt v.toInt 0) ∧
    (k = 3 → go fun v => rtzInt v.toInt) ∧
    (k = 4 → go fun v => rneInt v.toNat 0) ∧
    (k = 5 → go fun v => widen fmtBF16 (narrow fmtBF16 v)) ∧
    (k = 6 → go fun v => widen fmtF16 (narrow fmtF16 v)) ∧
    (k = 7 → go fun v => widen fmtE4M3 (narrow fmtE4M3 v)) ∧
    (k = 8 → go fun v => widen fmtE5M2 (narrow fmtE5M2 v)) ∧
    (8 < k.toNat → decodeSlot 3 (encode (.vcvt p d a k)) = .error .badLimit)

/-- Lanes that move and lanes that are converted. -/
def Obligations.VectorMovesAndConversion : Prop :=
  Sys2Proof.Claims.VectorMoves ∧
  Sys2Proof.Claims.LaneConversion

/-- Reductions and scans of VB: the fixed trees of rows and columns, the sequential scan, the result in every lane of the
reduced axis, and the LANE of an origin NaN (R77, R78, R158, R159). -/
def Sys2Proof.Claims.VectorReductions : Prop :=
  ∀ (s : State) (p : BitVec 4) (d a o : BitVec 6),
    let x (r c : Nat) : Lane := lane (s.vreg a) (64 * r + c)
    let node (j : Nat) (u v : Lane) : Lane := redNode o.toNat (originNaN s.iss.pc j) u v
    let go (i : Instr) (lat : Nat) (f : Nat → Nat → Lane) : Prop := DoesIf (EngineFree s.ico.vbFree 4 s) i s
      ((s.result lat (.tile (s.cx.phys d.toNat) (tileOf fun j => f (j / 64) (j % 64)))).onCore s.iss.core fun y =>
        { y with vbFree := s.cycle + 4 })
    -- a level of a tree halves it: position c takes c and c + h
    let level (at' : Nat → Nat) (h : Nat) (l : Nat → Lane) : Nat → Lane := fun c => node (at' c) (l c) (l (c + h))
    let row (r : Nat) : Lane := [32, 16, 8, 4, 2, 1].foldl (fun l h => level (fun c => 64 * r + c) h l) (x r) 0
    let col (c : Nat) : Lane := [8, 4, 2, 1].foldl (fun l h => level (fun r => 64 * r + c) h l) (fun r => x r c) 0
    let scan (r c : Nat) : Lane := (List.range c).foldl (fun y k => node (64 * r + (k + 1)) y (x r (k + 1))) (x r 0)
    (o.toNat < 6 → go (.rred p d a o) 9 (fun r _ => row r) ∧ go (.cred p d a o) 6 (fun _ c => col c)) ∧
    (6 ≤ o.toNat → decodeSlot 3 (encode (.rred p d a o)) = .error .badLimit ∧
      decodeSlot 3 (encode (.cred p d a o)) = .error .badLimit) ∧
    (o = 0 ∨ o = 3 ∨ o = 6 → go (.rscan p d a o) 11 scan) ∧
    (o ≠ 0 → o ≠ 3 → o ≠ 6 → decodeSlot 3 (encode (.rscan p d a o)) = .error .badLimit) ∧
    (∀ (g u v : Lane), redNode 0 g u v = fadd g u v ∧ redNode 1 g u v = fmaxOp u v ∧ redNode 2 g u v = fminOp u v ∧
      redNode 3 g u v = BitVec.ofInt 32 (u.toInt + v.toInt) ∧ redNode 4 g u v = BitVec.ofInt 32 (max u.toInt v.toInt) ∧
      redNode 5 g u v = BitVec.ofInt 32 (min u.toInt v.toInt) ∧ redNode 6 g u v = u ^^^ v)

/-- The integer sum of a row does not depend on its tree: it is the sum of the 64 lanes (R55, R77, R158). -/
def Sys2Proof.Claims.RowSumIsTheSum : Prop :=
  ∀ (pc : Word) (t : Tile) (r : Nat), r < 16 →
    (redRow 3 pc t r).toNat = ((List.range 64).map fun c => (lane t (64 * r + c)).toNat).sum % 2 ^ 32

/-- Reductions and scans, and that an integer row sum is the sum. -/
def Obligations.ReductionsAndScans : Prop :=
  Sys2Proof.Claims.VectorReductions ∧
  Sys2Proof.Claims.RowSumIsTheSum

/-- XTRN, XCVT, XPLS, XPLM and XFMT: the transposed blocks, the packed and unpacked rows, the bit planes of two tiles, the
reading of the top planes, and the narrow format register, seen by the third bundle from here (R43, R51, R73, R163 to R168). -/
def Obligations.Transforms : Prop :=
  ∀ (s : State) (p : BitVec 4) (d a b : BitVec 6) (k : BitVec 8) (g : BitVec 5),
    let x (r c : Nat) : Lane := lane (s.vreg a) (64 * r + c)
    let y (r c : Nat) : Lane := lane (s.vreg b) (64 * r + c)
    let n : Word := s.cx.nfrXc.zeroExtend 64
    let uns := s.cx.pq.getLsbD 5
    let q := s.cx.pq.toNat % 16
    let code (v : Lane) : Nat :=
      if uns then (max 0 (min 255 v.toInt)).toNat else ((max (-128) (min 127 v.toInt)) % 256).toNat
    let xcFree (t : State) : State := t.onCore s.iss.core fun z => { z with xcFree := s.cycle + 4 }
    let put (lat : Nat) (f : Nat → Nat → Lane) : State :=
      xcFree (s.result lat (.tile (s.cx.phys d.toNat) (tileOf fun j => f (j / 64) (j % 64))))
    let free := EngineFree s.ico.xcFree 4 s
    let byteOf (v : Lane) (e : Nat) : BitVec 8 := v.extractLsb' (8 * e) 8
    let pack (f : Lane → Nat) : State := put 6 fun r c =>
      if c < 16 then BitVec.ofNat 32 ((List.range 4).map fun e => f (x r (4 * c + e)) % 256 * 256 ^ e).sum else 0
    let unpack (f : BitVec 8 → Lane) : State := put 6 fun r c => f (byteOf (x r (c / 4)) (c % 4))
    DoesIf free (.xtrn p d a) s (put 8 fun r c => x (c % 16) (16 * (c / 16) + r)) ∧
    (k = 0 → DoesIf free (.xcvt p d a k) s (pack fun v => ((max (-128) (min 127 v.toInt)) % 256).toNat)) ∧
    (k = 1 → DoesIf free (.xcvt p d a k) s (pack fun v => (max 0 (min 255 v.toInt)).toNat)) ∧
    (k = 2 → DoesIf free (.xcvt p d a k) s (unpack fun e => e.signExtend 32)) ∧
    (k = 3 → DoesIf free (.xcvt p d a k) s (unpack fun e => e.zeroExtend 32)) ∧
    (k = 4 → DoesIf free (.xcvt p d a k) s (pack (narrow fmtE4M3))) ∧
    (k = 5 → DoesIf free (.xcvt p d a k) s (pack (narrow fmtE5M2))) ∧
    (k = 6 → DoesIf free (.xcvt p d a k) s (unpack fun e => widen fmtE4M3 e.toNat)) ∧
    (k = 7 → DoesIf free (.xcvt p d a k) s (unpack fun e => widen fmtE5M2 e.toNat)) ∧
    (k = 8 ∨ k = 9 → DoesIf free (.xcvt p d a k) s (put 6 fun r c => xcvtLane n k.toNat (s.vreg a) r c)) ∧
    (9 < k.toNat → decodeSlot 6 (encode (.xcvt p d a k)) = .error .badLimit) ∧
    (∃ f : Nat → Nat → Lane,
      (∀ t r c j, t < 2 → r < 16 → c < 64 → j < 8 →
        (f (7 - j) (32 * t + 16 * (r / 8) + (8 * (r % 8) + c / 8) / 4)).getLsbD (8 * ((8 * (r % 8) + c / 8) % 4) + c % 8)
          = (code (if t = 0 then x r c else y r c)).testBit j) ∧
      (∀ r c, 8 ≤ r → f r c = 0) ∧
      DoesIf free (.xpls p d a b) s (put 7 f)) ∧
    (∃ f : Nat → Nat → Int,
      (∀ r c, r < 16 → c < 64 → f r c = (if s.cx.pq.getLsbD 4 ∧ q < 8 then (2 : Int) ^ (7 - q) else 0) +
        ((List.range q).map fun i => if (x i (16 * (r / 8) + (8 * (r % 8) + c / 8) / 4)).getLsbD
            (8 * ((8 * (r % 8) + c / 8) % 4) + c % 8) then (if i = 0 ∧ uns = false then -128 else (2 : Int) ^ (7 - i)) else 0).sum) ∧
      DoesIf (free ∧ 1 ≤ q ∧ q ≤ 8) (.xplm p d a b) s (put 7 fun r c => BitVec.ofInt 32 ((y r c).toInt + f r c))) ∧
    (s.iss.sure = false → Free (.xplm p d a b) s → free → s.cx.preg p = true → q = 0 ∨ 8 < q →
      exec (.xplm p d a b) s = .next (s.takeTrap { code := 0x01, stage := 3 })) ∧
    -- the ILLOP ranks before the VREG of the same slot (R43); a bundle that waits takes the cause of its word alone
    (s.iss.sure = false → Tbl.find s.cx.prefixes s.iss.slot = none → s.cx.preg p = true → free →
      (∀ z ∈ s.cx.pending, z.saveIa ≠ none ∨ z.arrived = true) → q = 0 ∨ 8 < q →
      (∃ v ∈ [d, a, b], s.cx.vcount ≤ v.toNat) →
      exec (.xplm p d a b) s = .next (s.takeTrap { code := 0x01, stage := 3, behind := 0x04 })) ∧
    (let w := (s.cx.sreg g).toNat % 16
     DoesIf (1 ≤ w ∧ w ≤ 8) (.xfmt p g) s (s.onCtx s.cs fun z =>
        { z with nfrPend := z.nfrPend ++ [(true, (s.cx.sreg g).truncate 16 &&& 0xFF3F, 3)] }) ∧
     (s.iss.sure = false → Free (.xfmt p g) s → s.cx.preg p = true → w = 0 ∨ 8 < w →
      exec (.xfmt p g) s = .next (s.takeTrap { code := 0x01, stage := 3 })))

/-- Word loads and stores through a SCRATCH window: the loaded value comes after 8 cycles, 0 where the block is
poisoned, which traps late; a store writes its bytes, and no other byte and no coat (R169, R170, R191, R197). -/
def Sys2Proof.Claims.ScratchWords : Prop :=
  ∀ (s : State) (p : BitVec 4) (d a : BitVec 5) (n : BitVec 2) (x : BitVec 1) (o : BitVec 7) (sc : BitVec 3)
    (va : Nat) (w : Window), s.iss.core < 512 → va % 2 ^ n.toNat = 0 → va < 2 ^ 64 →
    findWindow s.cx.windows va = some w → w.kind = 1 →
    let acc := s.wordAcc va n.toNat
    let free (use : Use) (kinds : List Nat) : Prop := s.portWait acc.ports = false ∧ s.wordCausesAt acc use kinds = []
    let place := ownPlace s w va
    let len := 2 ^ n.toNat
    let v := bytesAt s place len
    let loads (i : Instr) (signed : Bool) : Prop :=
      (coatPoison (coatGet s.coats place) = false → DoesIf (free .read scalarLoadKinds) i s
        ((s.takePorts acc.ports).result 8 (.scalar d.toNat
          (if signed ∧ 256 ^ len ≤ 2 * v then BitVec.ofInt 64 ((v : Int) - 256 ^ len) else BitVec.ofNat 64 v)))) ∧
      (coatPoison (coatGet s.coats place) = true → DoesIf (free .read scalarLoadKinds) i s
        (((s.takePorts acc.ports).result 8 (.scalar d.toNat 0)).latePoison s.cs (s.cycle + 8)
          (some (BitVec.ofNat 64 (va / 64 * 64)))))
    let stores (i : Instr) : Prop := ∃ t : State,
      DoesIf (free .write scalarStoreKinds) i s t ∧
      t = { s.takePorts acc.ports with mem := t.mem, coats := t.coats } ∧
      (∀ q, coatGet t.coats q = coatGet s.coats q) ∧
      (∀ A, memGet t.mem A = if place ≤ A ∧ A < place + len then (s.cx.sreg d).extractLsb' (8 * (A - place)) 8
        else memGet s.mem A)
    (va = (s.cx.sreg a + immediate s o * BitVec.ofNat 64 len).toNat → loads (.sld p d a n x o) (x == 1) ∧
      stores (.sst p d a n o)) ∧
    (va = (s.cx.sreg a).toNat → stores (.sstr p d a n sc))

/-- Word loads of variable latency from a core's own memory: SLD through a WBANK window, and SLDA through a SCRATCH or WBANK
window. The value is that of the bytes of the core's scratchpad or of the active half of its weight bank, 0 where the block is
poisoned, which traps when the result returns; SLDA zero-extends (R39, R48, R169, R191, R192, R197, R251, R339). That the bytes are
read in the cycle of issue is the model's choice (log 28). -/
def Sys2Proof.Claims.OwnWordsOfVariableLatency : Prop :=
  ∀ (s : State) (p : BitVec 4) (d a : BitVec 5) (n : BitVec 2) (x : BitVec 1) (o : BitVec 7) (sc : BitVec 3)
    (va : Nat) (w : Window), s.iss.core < 512 → va % 2 ^ n.toNat = 0 → va < 2 ^ 64 →
    findWindow s.cx.windows va = some w →
    let acc := s.wordAcc va n.toNat
    let place := ownPlace s w va
    let len := 2 ^ n.toNat
    let v := bytesAt s place len
    let poisoned := coatPoison (coatGet s.coats place)
    let loads (i : Instr) (signed : Bool) : Prop := ∃ (t : State) (due : Nat),
      DoesIf (s.portWait acc.ports = false ∧ s.wordCausesAt acc .read scalarLoadKinds = []) i s t ∧ LoadFrame s t ∧
      s.cycle < due ∧
      Awaited s t due
        { id := 0, slot := 4, dest := .scalar d.toNat, reissue := true, va := BitVec.ofNat 64 va, width := n.toNat
          signed := signed, pc := s.iss.pc
          value := if poisoned then 0
            else if signed ∧ 256 ^ len ≤ 2 * v then BitVec.ofInt 64 ((v : Int) - 256 ^ len) else BitVec.ofNat 64 v
          poison := if poisoned then some (BitVec.ofNat 64 (va / 64 * 64)) else none }
    (w.kind = 2 → va = (s.cx.sreg a + immediate s o * BitVec.ofNat 64 len).toNat → ¬ (n = 3 ∧ x = 1) →
      loads (.sld p d a n x o) (x == 1)) ∧
    (w.kind = 1 ∨ w.kind = 2 → va = (s.cx.sreg a).toNat → loads (.slda p d a n sc) false)

/-- Words of the scratchpad and loads of words of the weight bank. -/
def Obligations.OwnMemoryWords : Prop :=
  Sys2Proof.Claims.ScratchWords ∧
  Sys2Proof.Claims.OwnWordsOfVariableLatency

/-- Tile loads through a SCRATCH or WBANK window: the rows' blocks of the core's own memory make the lanes, after 10 or 14
cycles and the occupancy of the busiest bank or of the port; CTLD reads the blocks' coats (R170, R192, R193, R195,
R251). -/
def Sys2Proof.Claims.OwnMemoryTileLoads : Prop :=
  ∀ (s : State) (p : BitVec 4) (d : BitVec 6) (a b : BitVec 5) (f : BitVec 4) (w : Window),
    s.iss.core < 512 → w.kind = 1 ∨ w.kind = 2 → findWindow s.cx.windows (s.cx.sreg a).toNat = some w →
    let loads (i : Instr) (coats : Bool) : Prop :=
      let acc := s.tileAcc a b f coats
      let rows := chunkBlocks acc.spans (acc.vas.map fun va => s.blockAt (ownPlace s w va / 64 * 64))
      let lat := (if w.kind = 1 then 10 else 14) + portOcc acc.ports
      DoesIf (s.portWait acc.ports = false ∧ s.tileCauses acc .read loadKinds = []) i s
        (((s.takePorts acc.ports).result lat (.tile (s.cx.phys d.toNat) (fullTile (acc.q.tile rows)))).latePoison s.cs
          (s.cycle + lat) (acc.q.poisonVa rows))
    loads (.vld p d a f b) false ∧ loads (.ctld p d a f b) true

/-- Tile stores through a SCRATCH window: each block of each row is written at its place, in row order; no byte that no
row covers changes, and CTST writes coats only (R169, R194, R196). -/
def Sys2Proof.Claims.ScratchTileStores : Prop :=
  ∀ (s : State) (p : BitVec 4) (d : BitVec 6) (a b : BitVec 5) (f : BitVec 4) (w : Window),
    s.iss.core < 512 → w.kind = 1 → findWindow s.cx.windows (s.cx.sreg a).toNat = some w →
    let acc := s.tileAcc a b f false
    s.tileCauses acc .write storeKinds = [] →
    let stored (ws : List VWrite) : State :=
      (ws.foldl (fun t x => t.writeAt (ownPlace s w x.va / 64 * 64) x.w) s).takePorts acc.ports
    DoesIf (s.portWait acc.ports = false) (.vst p d a f b) s (stored (acc.q.storeWrites acc.spans (s.vreg d))) ∧
    DoesIf (s.portWait acc.ports = false) (.ctst p d a f b) s (stored (acc.q.coatWrites acc.spans (s.vreg d))) ∧
    (∀ A, (∀ sp ∈ acc.spans, ∀ j, j < sp.len → A ≠ ownPlace s w (sp.va + j)) →
      memGet (stored (acc.q.storeWrites acc.spans (s.vreg d))).mem A = memGet s.mem A) ∧
    (∀ A, memGet (stored (acc.q.coatWrites acc.spans (s.vreg d))).mem A = memGet s.mem A)

/-- A tile that VST.F32, VST.I32 or VST.PACK8 stores, four blocks a row, is the tile that the same format loads (R69, R70,
R139, R193, R194). -/
def Sys2Proof.Claims.StoredTilesLoadBack : Prop :=
  ∀ (q : TileReq) (t : Tile) (spans : List Span), q.fmt = 1 ∨ q.fmt = 6 ∨ q.fmt = 14 → q.coats = false → spans.length = 16 →
    (∀ sp ∈ spans, sp.len = 256 ∧ sp.va % 64 = 0 ∧ sp.va + 256 ≤ 2 ^ 64) →
    let blocks := (q.storeWrites spans t).map fun x => x.w.apply { data := 0, coat := 0 }
    ∀ j, j < 1024 → lane (q.tile (chunkBlocks spans blocks)) j = lane t j

/-- The lanes of a tile load under an explicit format: each element lies in its row's bits in order, and reads as its format gives
it; a zero block reads as 0, and a poisoned one as origin NaNs in F32 lanes, 0 in PACK8 lanes, and SUB, where SUBEN is on, or 0 in
integer lanes (R61, R65 to R69, R193). -/
def Sys2Proof.Claims.ExplicitLanes : Prop :=
  ∀ (q : TileReq) (rows : List (Span × List BlockVal)) (w : Nat),
    q.coats = false → FmtWidth q.nfr q.fmt w → RowsOf w rows →
    ∀ r c sp bs b, r < 16 → c < 64 → rows[r]? = some (sp, bs) → bs[w * c / 512]? = some b →
    let code : Nat := b.data / 2 ^ (8 * (sp.va % 64) + w * c % 512) % 2 ^ w
    let x := lane (q.tile rows) (64 * r + c)
    let sub : Lane := (q.nfr.extractLsb' 8 8).signExtend 32
    (coatPoison b.coat = true → q.fmt ≤ 5 → x = originNaN q.pc (64 * r + c)) ∧
    (coatPoison b.coat = true → q.fmt = 14 → x = 0) ∧
    (coatPoison b.coat = true → 6 ≤ q.fmt → q.fmt ≠ 14 →
      x = if q.nfr.getLsbD 5 then (if q.nfr.getLsbD 4 then sub else (q.nfr.extractLsb' 8 8).zeroExtend 32) else 0) ∧
    (coatPoison b.coat = false → coatE b.coat = -128 → x = 0) ∧
    (coatPoison b.coat = false → coatE b.coat ≠ -128 →
      (q.fmt = 1 ∨ q.fmt = 14 ∨ q.fmt = 6 → x = BitVec.ofNat 32 code) ∧
      (q.fmt = 2 → x = widen fmtBF16 code) ∧ (q.fmt = 3 → x = widen fmtF16 code) ∧
      (q.fmt = 4 → x = widen fmtE4M3 code) ∧ (q.fmt = 5 → x = widen fmtE5M2 code) ∧
      (q.fmt = 7 → x = (BitVec.ofNat 16 code).signExtend 32) ∧ (q.fmt = 8 → x = (BitVec.ofNat 8 code).signExtend 32) ∧
      (q.fmt = 10 → x = (BitVec.ofNat 4 code).signExtend 32) ∧ (q.fmt = 9 ∨ q.fmt = 11 → x = BitVec.ofNat 32 code) ∧
      (q.fmt = 13 → x =
        if q.nfr.getLsbD 4 = false then BitVec.ofNat 32 code
        else if q.nfr.getLsbD 5 ∧ code = 2 ^ (w - 1) then sub
        else if 2 ^ (w - 1) ≤ code then BitVec.ofInt 32 ((code : Int) - 2 ^ w) else BitVec.ofNat 32 code))

/-- The lanes of a tile load under COAT: the CODE of a row's first block gives the row's format, and each element is scaled by the
E of its own block and rounded once; a zero block gives +0, a block of another CODE and a row of no format give origin NaNs (R65,
R66, R68, R193). That a later zero block of another CODE gives +0 as well is the model's choice (log 141). -/
def Sys2Proof.Claims.CoatedLanes : Prop :=
  ∀ (q : TileReq) (rows : List (Span × List BlockVal)), q.coats = false → q.fmt = 0 → rows.length = 16 →
    (∀ x ∈ rows, ∃ b l, x.2 = b :: l ∧
      (1 ≤ coatCode b.coat ∧ coatCode b.coat ≤ 12 → ∃ w, FmtWidth q.nfr (codeFmt (coatCode b.coat)) w ∧ RowOf w x) ∧
      (coatCode b.coat = 0 ∨ 12 < coatCode b.coat → x.1.va % 64 = 0 ∧ l = [])) →
    ∀ r c sp b0 bs, r < 16 → c < 64 → rows[r]? = some (sp, b0 :: bs) →
    let x := lane (q.tile rows) (64 * r + c)
    let nan := originNaN q.pc (64 * r + c)
    let k := coatCode b0.coat
    (k = 0 ∨ 12 < k → x = if coatPoison b0.coat = false ∧ coatE b0.coat = -128 then 0 else nan) ∧
    (∀ w b, 1 ≤ k → k ≤ 12 → FmtWidth q.nfr (codeFmt k) w → (b0 :: bs)[w * c / 512]? = some b →
      let code : Nat := b.data / 2 ^ (8 * (sp.va % 64) + w * c % 512) % 2 ^ w
      let e := coatE b.coat
      (coatPoison b.coat = true → x = nan) ∧
      (coatPoison b.coat = false → e = -128 → x = 0) ∧
      (coatPoison b.coat = false → e ≠ -128 → coatCode b.coat ≠ k → x = nan) ∧
      (coatCode b.coat = k → e ≠ -128 → CoatValue q.nfr k w code e x))

/-- The lanes of a PLANE load: the reading of an element's bits of the planes 7 down to 8 - Q of its patch. A block with another
CODE than its plane's is poisoned; with zero blocks alone the element is 0, and one among others gives zero bits (R65, R66, R73 to
R75, R193). That a zero block of another CODE than its plane's is poisoned is the model's reading (log 121). -/
def Sys2Proof.Claims.PlaneLanes : Prop :=
  ∀ (q : TileReq) (rows : List (Span × List BlockVal)),
    let planes := q.pq.toNat % 16
    let uns := q.pq.getLsbD 5
    q.coats = false → q.fmt = 12 → PqKept q.pq → rows.length = 2 * planes → (∀ x ∈ rows, x.2.length = 1) →
    ∀ r c, r < 16 → c < 64 →
    let x := lane (q.tile rows) (64 * r + c)
    ∀ bs : Nat → BlockVal, (∀ i, i < planes → ∃ sp, rows[r / 8 * planes + i]? = some (sp, [bs i])) →
    let right (i : Nat) : Prop := coatCode (bs i).coat = (if uns then 0x20 else 0x10) + i
    let bit (i : Nat) : Bool :=
      decide (coatE (bs i).coat ≠ -128) && (bs i).data.testBit (8 * (8 * (r % 8) + c / 8) + c % 8)
    ((∃ i, i < planes ∧ ¬ right i) → x = if q.nfr.getLsbD 5 then
      (if q.nfr.getLsbD 4 then (q.nfr.extractLsb' 8 8).signExtend 32 else (q.nfr.extractLsb' 8 8).zeroExtend 32) else 0) ∧
    ((∀ i, i < planes → right i ∧ coatE (bs i).coat = -128) → x = 0) ∧
    ((∀ i, i < planes → right i) → (∃ i, i < planes ∧ coatE (bs i).coat ≠ -128) →
      x = BitVec.ofInt 32 ((if q.pq.getLsbD 4 ∧ planes < 8 then (2 : Int) ^ (7 - planes) else 0) +
        ((List.range planes).map fun i => if bit i then (if i = 0 ∧ uns = false then -128 else (2 : Int) ^ (7 - i)) else 0).sum))

/-- The blocks that VST writes under an explicit format: each row's bytes, block by block, with the CODE of the format and its
scale E; the floating formats that keep E = 0 are converted, and a scaled integer format takes the least E from 0 at which every
lane fits, -128 where all are zero, and stores each lane over 2^E, rounded to nearest even and saturated (R62, R68 to R72, R194). -/
def Sys2Proof.Claims.StoredBlocks : Prop :=
  ∀ (q : TileReq) (t : Tile) (spans : List Span) (w : Nat), q.fmt ≠ 12 → FmtWidth q.nfr q.fmt w → spans.length = 16 →
    (∀ sp ∈ spans, sp.len = 8 * w ∧ sp.va + 8 * w ≤ 2 ^ 64 ∧ (if 8 ≤ w then sp.va % 64 = 0 else sp.va % 64 + 8 * w ≤ 64)) →
    let blocks := if w < 8 then 1 else w / 8
    let per := 64 / blocks
    ∀ r k sp, r < 16 → k < blocks → spans[r]? = some sp → ∃ (y : VWrite) (e : Int) (code : Nat),
      (q.storeWrites spans t)[r * blocks + k]? = some y ∧
      y.va = sp.va + 64 * k ∧
      (∀ j, j < 512 → y.w.mask.testBit j = decide (8 * (sp.va % 64) ≤ j ∧ j < 8 * (sp.va % 64) + w * per)) ∧
      y.w.coat = some (mkCoat e code) ∧
      code = (if q.fmt = 14 then 8 else if q.fmt = 13 then 12 else q.fmt) ∧
      let x (j : Nat) : Lane := lane t (64 * r + per * k + j)
      let stored (j : Nat) : Nat := y.w.data / 2 ^ (8 * (sp.va % 64) + w * j) % 2 ^ w
      (q.fmt = 1 ∨ q.fmt = 6 ∨ q.fmt = 14 → e = 0 ∧ ∀ j, j < per → stored j = (x j).toNat) ∧
      (q.fmt = 2 → e = 0 ∧ ∀ j, j < per → stored j = narrow fmtBF16 (x j)) ∧
      (q.fmt = 3 → e = 0 ∧ ∀ j, j < per → stored j = narrow fmtF16 (x j)) ∧
      (q.fmt = 4 ∨ q.fmt = 5 → let f := if q.fmt = 4 then fmtE4M3 else fmtE5M2
        ScaleIs (-127) (fun g => ∀ j, j < per → fitsAt (.flt f) g (fv (x j)) = true)
          (∀ j, j < per → x j = 0 ∨ x j = 0x80000000) e ∧
        ∀ j, j < per → stored j = narrow f (x j) (-e)) ∧
      (∀ lo hi, IntRange q.nfr q.fmt w lo hi →
        ScaleIs 0 (fun g => ∀ j, j < per → (lo = 0 ∧ 0 < hi ∧ (x j).toInt < 0) ∨
            ∃ v, NearestEven (x j).toInt g.toNat v ∧ lo ≤ v ∧ v ≤ hi) (∀ j, j < per → x j = 0) e ∧
        ∀ j, j < per → ∃ v, NearestEven (x j).toInt e.toNat v ∧
          (stored j : Int) = (max lo (min hi v)) % 2 ^ w)

/-- The blocks that a PLANE store writes: the Q top planes of each patch, each with its own CODE and with the one scale that the
patch's lanes have, and each bit that of the lane's code (R71, R73, R75, R194). -/
def Sys2Proof.Claims.StoredPlanes : Prop :=
  ∀ (q : TileReq) (t : Tile) (spans : List Span), q.fmt = 12 → PqKept q.pq →
    let planes := q.pq.toNat % 16
    let uns := q.pq.getLsbD 5
    let lo : Int := if uns then 0 else -128
    let hi : Int := if uns then 255 else 127
    ∀ p, p < 2 → ∃ e : Int,
      ScaleIs 0 (fun g => ∀ j, j < 512 → (lo = 0 ∧ (lane t (512 * p + j)).toInt < 0) ∨
        ∃ v, NearestEven (lane t (512 * p + j)).toInt g.toNat v ∧ lo ≤ v ∧ v ≤ hi) (∀ j, j < 512 → lane t (512 * p + j) = 0) e ∧
      ∀ i, i < planes → ∃ y : VWrite, (q.storeWrites spans t)[p * planes + i]? = some y ∧
        (y.va : Int) = (q.base.toNat + i * (q.pq.toNat / 2 ^ 16 % 2 ^ 32 : Nat) + p * q.stride.toInt) % 2 ^ 64 / 64 * 64 ∧
        y.w.mask = 2 ^ 512 - 1 ∧ y.w.coat = some (mkCoat e ((if uns then 0x20 else 0x10) + i)) ∧
        ∀ r c, r < 8 → c < 64 → ∃ v, NearestEven (lane t (512 * p + 64 * r + c)).toInt e.toNat v ∧
          y.w.data.testBit (8 * (8 * r + c / 8) + c % 8) = ((max lo (min hi v)) % 256).toNat.testBit (7 - i)

/-- Tile loads and stores in a core's own memory, the lanes that a load forms and the blocks that a store writes under each format, and that a stored tile loads back. -/
def Obligations.OwnMemoryTiles : Prop :=
  Sys2Proof.Claims.OwnMemoryTileLoads ∧
  Sys2Proof.Claims.ScratchTileStores ∧
  Sys2Proof.Claims.StoredTilesLoadBack ∧
  Sys2Proof.Claims.ExplicitLanes ∧
  Sys2Proof.Claims.CoatedLanes ∧
  Sys2Proof.Claims.PlaneLanes ∧
  Sys2Proof.Claims.StoredBlocks ∧
  Sys2Proof.Claims.StoredPlanes

/-- Word accesses through a NORMAL window whose line the home slice holds: SLD and SLDA return the line's bytes as a
result of variable latency, and SST and SSTR write theirs, keep the coat and trigger the monitors on the line (R39, R179,
R180, R191, R197, R332, R339). That the value is captured, and the store performed, in the cycle of issue is the model's choice
(logs 28 and 29). -/
def Sys2Proof.Claims.SharedWordsHeld : Prop :=
  ∀ (s : State) (p : BitVec 4) (d a : BitVec 5) (n : BitVec 2) (x : BitVec 1) (o : BitVec 7) (sc : BitVec 3)
    (va : Nat) (w : Window) (ln : Line), va % 2 ^ n.toNat = 0 → va < 2 ^ 64 → LineHit s w va ln →
    let ia := w.toIa va
    let acc := s.wordAcc va n.toNat
    let len := 2 ^ n.toNat
    let raw : Nat := ln.data / 256 ^ (va % 64) % 256 ^ len
    let free (use : Use) (kinds : List Nat) : Prop := s.wordCausesAt acc use kinds = []
    let loads (i : Instr) (signed : Bool) : Prop := ∃ (t : State) (due : Nat),
      DoesIf (free .read scalarLoadKinds) i s t ∧ LoadFrame s t ∧
      s.cycle + s.leastLatency s.iss.core s.ipart ia ≤ due ∧
      Awaited s t due
        { id := 0, slot := 4, dest := .scalar d.toNat, reissue := true, va := BitVec.ofNat 64 va, width := n.toNat
          signed := signed, pc := s.iss.pc
          value := if coatPoison ln.coat then 0
            else if signed ∧ 256 ^ len ≤ 2 * raw then BitVec.ofInt 64 ((raw : Int) - 256 ^ len) else BitVec.ofNat 64 raw
          poison := if coatPoison ln.coat then some (BitVec.ofNat 64 (va / 64 * 64)) else none }
    let stores (i : Instr) : Prop := ∃ t : State,
      DoesIf (free .write scalarStoreKinds) i s t ∧ LineWritten s t ia len ((s.cx.sreg d).toNat % 256 ^ len) ln
    (va = (s.cx.sreg a + immediate s o * BitVec.ofNat 64 len).toNat → loads (.sld p d a n x o) (x == 1) ∧
      stores (.sst p d a n o)) ∧
    (va = (s.cx.sreg a).toNat → loads (.slda p d a n sc) false ∧ stores (.sstr p d a n sc))

/-- Word accesses through a NORMAL or STAGING window, whether or not a slice holds the line: a load's value comes from the block
as memory gives it, or from the flash port in its turn, and a store writes its bytes in the block and keeps the coat; what memory
refuses comes back as a trap, with nothing written (R39, R179, R180, R182, R185, R191, R197, R288, R289, R290, R339). That the
value is captured, and the store performed, in the cycle of issue is the model's choice (logs 28 and 29). -/
def Sys2Proof.Claims.SharedWordsAnyLine : Prop :=
  ∀ (s : State) (p : BitVec 4) (d a : BitVec 5) (n : BitVec 2) (x : BitVec 1) (o : BitVec 7) (sc : BitVec 3)
    (va : Nat) (w : Window), va % 2 ^ n.toNat = 0 → va < 2 ^ 64 → findWindow s.cx.windows va = some w → w.kind = 0 ∨ w.kind = 3 →
    let ia := w.toIa va
    let acc := s.wordAcc va n.toNat
    let len := 2 ^ n.toNat
    let free (use : Use) (kinds : List Nat) : Prop := s.wordCausesAt acc use kinds = []
    let least := s.cycle + s.leastLatency s.iss.core s.ipart ia
    let loads (i : Instr) (signed primary : Bool) : Prop :=
      let q := { s.winReq (some w) with primary := primary }
      let z : Pending := { id := 0, slot := 4, dest := .scalar d.toNat, reissue := true, va := BitVec.ofNat 64 va
                           width := n.toNat, signed := signed, pc := s.iss.pc }
      let back (u : State) (y : Pending) : Prop := ∃ (t : State) (due : Nat),
        DoesIf (free .read scalarLoadKinds) i s t ∧ least ≤ due ∧ LoadFrame u t ∧
        (¬ InPort s (s.winReq (some w)) ia → Awaited u t due y) ∧
        (InPort s (s.winReq (some w)) ia → AtPort u t (iaRegion ia) due y)
      (∀ b u, s.iaRead q (ia / 64 * 64) = (.ok b, u) →
        let raw : Nat := b.data / 256 ^ (va % 64) % 256 ^ len
        back u { z with
          value := if coatPoison b.coat then 0
            else if signed ∧ 256 ^ len ≤ 2 * raw then BitVec.ofInt 64 ((raw : Int) - 256 ^ len) else BitVec.ofNat 64 raw
          poison := if coatPoison b.coat then some (BitVec.ofNat 64 (va / 64 * 64)) else none }) ∧
      (∀ code u, s.iaRead q (ia / 64 * 64) = (.fail code, u) →
        back u { z with fault := some (code, BitVec.ofNat 64 va) })
    let stores (i : Instr) : Prop :=
      let write : BWrite := { mask := (2 ^ (8 * len) - 1) * 2 ^ (8 * (va % 64))
                              data := (s.cx.sreg d).toNat % 2 ^ (8 * len) * 2 ^ (8 * (va % 64)) }
      (∀ u, s.iaWrite (s.winReq (some w)) (ia / 64 * 64) write = (none, u) → ∃ t : State,
        DoesIf (free .write scalarStoreKinds) i s t ∧ LoadFrame u t ∧ t.ctx s.cs = u.ctx s.cs ∧ t.agenda = u.agenda) ∧
      (∀ code u, s.iaWrite (s.winReq (some w)) (ia / 64 * 64) write = (some code, u) → ∃ (t : State) (due : Nat),
        DoesIf (free .write scalarStoreKinds) i s t ∧ LoadFrame s t ∧ least ≤ due ∧
        Awaited s t due { id := 0, slot := 4, dest := .nothing, reissue := false
                          fault := some (code, BitVec.ofNat 64 va) })
    (va = (s.cx.sreg a + immediate s o * BitVec.ofNat 64 len).toNat → loads (.sld p d a n x o) (x == 1) false ∧
      stores (.sst p d a n o)) ∧
    (va = (s.cx.sreg a).toNat → loads (.slda p d a n sc) false (decide (4 ≤ sc.toNat)) ∧ stores (.sstr p d a n sc))

/-- Word accesses through a CONFIG window: a load of 8 bytes returns the register and one of 4 bytes its half, and a store
writes the register at once; what the register's block does not admit comes back as an ACCESS trap, a write that R7 forbids traps
with PRIV at issue, and an access of less than 4 bytes with ACCESS (R7, R43, R197, R449, R450). -/
def Sys2Proof.Claims.ConfigurationWords : Prop :=
  ∀ (s : State) (p : BitVec 4) (d a : BitVec 5) (n : BitVec 2) (x : BitVec 1) (o : BitVec 7) (sc : BitVec 3)
    (va : Nat) (w : Window), va % 2 ^ n.toNat = 0 → va < 2 ^ 64 → findWindow s.cx.windows va = some w → w.kind = 5 →
    iaRegion (w.toIa va) = 0xF →
    let ia := w.toIa va
    let acc := s.wordAcc va n.toNat
    let free (use : Use) (kinds : List Nat) : Prop := s.wordCausesAt acc use kinds = []
    let high : Bool := n == 2 && ia % 8 == 4
    let traps (i : Instr) (k : Cause) : Prop := s.iss.sure = false → Free i s → Live i s → exec i s = .next (s.takeTrap k)
    let narrow (i : Instr) (write : Bool) : Prop := n.toNat < 2 → w.badByte (w.toIa va) va = false →
      (write = true → ∀ r, regOf ia = some r → s.regWriteCheck s.cx.priv s.ipart r ≠ .priv) →
      traps i { code := 0x09, addr := BitVec.ofNat 64 va, stage := 5 }
    let refused (y : Pending) (t : State) : Prop := ∃ due, s.cycle < due ∧ LoadFrame s t ∧
      Awaited s t due { y with fault := some (0x09, BitVec.ofNat 64 va) }
    let loads (i : Instr) (signed : Bool) : Prop := 2 ≤ n.toNat →
      let z : Pending := { id := 0, slot := 4, dest := .scalar d.toNat, reissue := true, va := BitVec.ofNat 64 va
                           width := n.toNat, signed := signed, pc := s.iss.pc }
      ∃ t : State, DoesIf (free .read scalarLoadKinds) i s t ∧
        (regOf ia = none → refused z t) ∧
        (∀ r, regOf ia = some r → s.regReadable s.cx.priv s.ipart r = false → refused z t) ∧
        (∀ r, regOf ia = some r → s.regReadable s.cx.priv s.ipart r = true →
          let v := (s.regRead r).toNat
          let half : Nat := if ia % 8 = 4 then v / 2 ^ 32 % 2 ^ 32 else v % 2 ^ 32
          ∃ due, s.cycle < due ∧ LoadFrame s t ∧ Awaited s t due { z with
            value := if n = 3 then s.regRead r
              else if signed ∧ 2 ^ 31 ≤ half then BitVec.ofInt 64 ((half : Int) - 2 ^ 32) else BitVec.ofNat 64 half })
    let stores (i : Instr) : Prop := 2 ≤ n.toNat →
      (∀ r, regOf ia = some r → s.regWriteCheck s.cx.priv s.ipart r high = .priv → traps i { code := 0x05, stage := 3 }) ∧
      ∃ t : State, DoesIf (free .write scalarStoreKinds) i s t ∧
        (regOf ia = none → refused { id := 0, slot := 4, dest := .nothing, reissue := false } t) ∧
        (∀ r, regOf ia = some r → s.regWriteCheck s.cx.priv s.ipart r high = .refuse →
          refused { id := 0, slot := 4, dest := .nothing, reissue := false } t) ∧
        (∀ r, regOf ia = some r → s.regWriteCheck s.cx.priv s.ipart r high = .ok → n = 3 →
          t = { s with todo := .write s.cx.priv s.ipart ia (s.cx.sreg d) :: s.todo }) ∧
        (∀ r, regOf ia = some r → high = true → r.lowOnly = true → s.regWriteCheck s.cx.priv s.ipart r high = .ok → t = s) ∧
        (∀ r, regOf ia = some r → s.regWriteCheck s.cx.priv s.ipart r high = .ok → n = 2 → r.lowOnly = false → ∃ m : Word,
          t = { s with todo := .write s.cx.priv s.ipart (ia / 8 * 8) m :: s.todo } ∧
          ∀ j, j < 32 → m.getLsbD (j + if ia % 8 = 4 then 32 else 0) = (s.cx.sreg d).getLsbD j)
    (va = (s.cx.sreg a + immediate s o * BitVec.ofNat 64 (2 ^ n.toNat)).toNat →
      (¬ (n = 3 ∧ x = 1) → loads (.sld p d a n x o) (x == 1) ∧ narrow (.sld p d a n x o) false) ∧ stores (.sst p d a n o) ∧
      narrow (.sst p d a n o) true) ∧
    (va = (s.cx.sreg a).toNat → loads (.slda p d a n sc) false ∧ stores (.sstr p d a n sc) ∧ narrow (.slda p d a n sc) false ∧
      narrow (.sstr p d a n sc) true)

/-- Tiles through a NORMAL or STAGING window: a load's lanes are formed from the blocks of its rows as memory gives them one
after the other, and come as a result of variable latency, or from the flash port in its turn; a store makes its block writes in
row order, CTST of coats only; what memory refuses comes back as a trap, and a store that meets it writes nothing (R39, R65, R179,
R180, R185, R191 to R196, R288 to R290). That the values are captured, and the stores performed, in the cycle of issue is the
model's choice (logs 28 and 29). -/
def Sys2Proof.Claims.SharedTiles : Prop :=
  ∀ (s : State) (p : BitVec 4) (d : BitVec 6) (a b l : BitVec 5) (f : BitVec 4) (w : Window),
    w.kind = 0 ∨ w.kind = 3 → findWindow s.cx.windows (s.cx.sreg a).toNat = some w →
    let q := s.winReq (some w)
    let place (va : Nat) : Nat := w.toIa va / 64 * 64
    let rowsOf (acc : TileAcc) (bs : List BlockVal) : List (Span × List BlockVal) := chunkBlocks acc.spans bs
    let inPort (acc : TileAcc) : Prop := ∃ va ∈ acc.vas, InPort s q (w.toIa va)
    let later (acc : TileAcc) (due : Nat) : Prop := ∀ va ∈ acc.vas, s.cycle + s.leastLatency s.iss.core s.ipart (w.toIa va) ≤ due
    let refuses (acc : TileAcc) (va code : Nat) (u : State) : Prop := ∃ l r bs v, acc.vas = l ++ va :: r ∧
      ReadsTo q s (l.map place) bs v ∧ v.iaRead q (place va) = (.fail code, u)
    let loads (i : Instr) (coats : Bool) : Prop :=
      let acc := s.tileAcc a b f coats
      let z : Pending := { id := 0, slot := 4, dest := .tile (s.cx.phys d.toNat), reissue := true, coats := coats
                           va := s.cx.sreg a, stride := s.cx.sreg b, fmt := f.toNat, nfr := s.cx.nfrXc.zeroExtend 64
                           pq := s.cx.pq, pc := s.iss.pc }
      let back (u : State) (y : Pending) : Prop := ∃ (t : State) (due : Nat),
        DoesIf (s.tileCauses acc .read loadKinds = []) i s t ∧ later acc due ∧ LoadFrame u t ∧
        (¬ inPort acc → Awaited u t due y) ∧ (inPort acc → ∃ d, AtPort u t d due y)
      (∀ bs u, ReadsTo q s (acc.vas.map place) bs u →
        back u { z with tile := acc.q.tile (rowsOf acc bs), poison := acc.q.poisonVa (rowsOf acc bs) }) ∧
      (∀ va code u, refuses acc va code u → back u { z with fault := some (code, BitVec.ofNat 64 va) })
    let stores (i : Instr) (ws : TileReq → List Span → Tile → List VWrite) : Prop :=
      let acc := s.tileAcc a b f false
      let l := ws acc.q acc.spans (s.vreg d)
      (∀ u, WritesTo q s (l.map fun x => (place x.va, x.w)) u → ∃ t : State,
        DoesIf (s.tileCauses acc .write storeKinds = []) i s t ∧ LoadFrame u t ∧ t.ctx s.cs = u.ctx s.cs ∧ t.agenda = u.agenda) ∧
      (∀ x l1 l2 code u v, l = l1 ++ x :: l2 → WritesTo q s (l1.map fun x => (place x.va, x.w)) u →
        u.iaWrite q (place x.va) x.w = (some code, v) → ∃ (t : State) (due : Nat),
        DoesIf (s.tileCauses acc .write storeKinds = []) i s t ∧ LoadFrame s t ∧ later acc due ∧
        Awaited s t due { id := 0, slot := 4, dest := .nothing, reissue := false, fault := some (code, BitVec.ofNat 64 x.va) })
    loads (.vld p d a f b) false ∧ loads (.ctld p d a f b) true ∧
    stores (.vst p d a f b) TileReq.storeWrites ∧ stores (.ctst p d a f b) TileReq.coatWrites ∧
    -- a timed load fills its landing slot in the same way
    (let acc := s.tileAcc a b f false
     let y : Landing := { st := .waiting, owner := s.iss.ctx, va := s.cx.sreg a, stride := s.cx.sreg b, fmt := f.toNat
                          nfr := s.cx.nfrXc.zeroExtend 64, pq := s.cx.pq, pc := s.iss.pc, issued := s.cycle }
     (Tbl.look s.ico.landing l.toNat {}).st = .empty →
     ∀ bs u, ReadsTo q s (acc.vas.map place) bs u → ∃ (t : State) (due : Nat),
      DoesIf (s.tileCauses acc .read loadKinds = []) (.vldt p l a f b) s t ∧ later acc due ∧
      t.mem = u.mem ∧ t.lines = u.lines ∧ (t.ctx s.cs).landpend = s.cx.landpend ||| BitVec.ofNat 32 (2 ^ l.toNat) ∧
      let full : Landing := { y with lanes := fullTile (acc.q.tile (rowsOf acc bs)), poison := acc.q.poisonVa (rowsOf acc bs) }
      (¬ inPort acc → Tbl.look (t.core s.iss.core).landing l.toNat {} = { full with due := some due } ∧
        { due := due, src := srcCore s.iss.core, ev := .vldtLanded s.iss.core l.toNat } ∈ t.agenda) ∧
      (inPort acc → Tbl.look (t.core s.iss.core).landing l.toNat {} = { full with least := due } ∧
        ∃ d, (t.dom d).fwdQ = (u.dom d).fwdQ ++ [.landing s.iss.core l.toNat]))

/-- Accesses to memory that cores share, and to configuration registers. -/
def Obligations.SharedWords : Prop :=
  Sys2Proof.Claims.SharedWordsHeld ∧
  Sys2Proof.Claims.SharedWordsAnyLine ∧
  Sys2Proof.Claims.ConfigurationWords ∧
  Sys2Proof.Claims.SharedTiles

/-- Where a word access traps: at an address that its size does not divide with ALIGN, at one that no window holds with
XLATE, and where the window does not permit it with ACCESS; TADDR is the address (R43, R192, R197, R283, R285). -/
def Sys2Proof.Claims.WordAddressTraps : Prop :=
  ∀ (s : State) (p : BitVec 4) (d a : BitVec 5) (n : BitVec 2) (x : BitVec 1) (o : BitVec 7) (sc : BitVec 3) (va : Nat),
    s.iss.sure = false → va < 2 ^ 64 →
    let traps (i : Instr) (write : Bool) : Prop := Free i s → Live i s →
      let trap (code : Nat) : Prop :=
        exec i s = .next (s.takeTrap { code := code, addr := BitVec.ofNat 64 va, stage := 5 })
      (findWindow s.cx.windows va = none → va % 2 ^ n.toNat ≠ 0 → trap 0x0D) ∧
      (findWindow s.cx.windows va = none → va % 2 ^ n.toNat = 0 → trap 0x08) ∧
      (∀ w, findWindow s.cx.windows va = some w → w.kind = 0 → (if write then w.w else w.r) = false →
        va % 2 ^ n.toNat ≠ 0 → trap 0x0D) ∧
      (∀ w, findWindow s.cx.windows va = some w → w.kind = 0 → (if write then w.w else w.r) = false →
        va % 2 ^ n.toNat = 0 → w.toIa va < 9 * 2 ^ 48 → trap 0x09)
    (va = (s.cx.sreg a + immediate s o * BitVec.ofNat 64 (2 ^ n.toNat)).toNat → traps (.sld p d a n x o) false ∧
      traps (.sst p d a n o) true) ∧
    (va = (s.cx.sreg a).toNat → traps (.slda p d a n sc) false ∧ traps (.sstr p d a n sc) true)

/-- What a window kind does not permit: tiles through MCAST and CONFIG, stores through WBANK, and words through MCAST trap with
ACCESS, TADDR the base (R192, R194, R196). -/
def Sys2Proof.Claims.KindTraps : Prop :=
  ∀ (s : State) (p : BitVec 4) (d : BitVec 6) (e a b l : BitVec 5) (f : BitVec 4) (n : BitVec 2) (x : BitVec 1) (o : BitVec 7)
    (sc : BitVec 3) (w : Window) (va : Nat), s.iss.sure = false → findWindow s.cx.windows va = some w → va < 2 ^ 64 →
    let traps (i : Instr) : Prop :=
      exec i s = .next (s.takeTrap { code := 0x09, addr := BitVec.ofNat 64 va, stage := 5 })
    let tile (i : Instr) (coats : Bool) (use : Use) (kinds : List Nat) : Prop :=
      let acc := s.tileAcc a b f coats
      Free i s → Live i s → s.portWait acc.ports = false → (∀ c ∈ s.tileCauses acc use kinds, c.code = 0x09) → traps i
    let word (i : Instr) (use : Use) (kinds : List Nat) : Prop :=
      let acc := s.wordAcc va n.toNat
      Free i s → Live i s → s.portWait acc.ports = false → (∀ c ∈ s.wordCausesAt acc use kinds, c.code = 0x09) → traps i
    (va = (s.cx.sreg a).toNat →
      (w.kind = 4 ∨ w.kind = 5 → tile (.vld p d a f b) false .read loadKinds ∧ tile (.ctld p d a f b) true .read loadKinds ∧
        tile (.vldt p l a f b) false .read loadKinds) ∧
      (w.kind = 2 ∨ w.kind = 4 ∨ w.kind = 5 → tile (.vst p d a f b) false .write storeKinds ∧
        tile (.ctst p d a f b) false .write storeKinds) ∧
      (w.kind = 4 → word (.slda p e a n sc) .read scalarLoadKinds) ∧
      (w.kind = 2 ∨ w.kind = 4 → word (.sstr p e a n sc) .write scalarStoreKinds)) ∧
    (va = (s.cx.sreg a + immediate s o * BitVec.ofNat 64 (2 ^ n.toNat)).toNat →
      (w.kind = 4 → word (.sld p e a n x o) .read scalarLoadKinds) ∧
      (w.kind = 2 ∨ w.kind = 4 → word (.sst p e a n o) .write scalarStoreKinds))

/-- A tile access under PLANE with a PQ outside its limits, a Q of 0 or above 8 or a stride of 0 with more than one plane, traps
with ILLOP, before the VREG of the same slot (R43, R75). -/
def Sys2Proof.Claims.PlaneLimitTraps : Prop :=
  ∀ (s : State) (p : BitVec 4) (d : BitVec 6) (a b l : BitVec 5), s.iss.sure = false → ¬ PqKept s.cx.pq →
    let traps (i : Instr) (coats : Bool) : Prop :=
      s.portWait (s.tileAcc a b 12 coats).ports = false → Live i s →
      (Free i s → exec i s = .next (s.takeTrap { code := 0x01, stage := 3 })) ∧
      ((∃ n ∈ vregsOf i, s.cx.vcount ≤ n.toNat) → i.wf = true → Instr.badImm i s = false →
        (Tbl.find s.cx.prefixes s.iss.slot = none ∨ Instr.takesPrefix i = true) →
        (∀ z ∈ s.cx.pending, z.saveIa ≠ none ∨ z.arrived = true) →
        exec i s = .next (s.takeTrap { code := 0x01, stage := 3, behind := 0x04 }))
    traps (.vld p d a 12 b) false ∧ traps (.vst p d a 12 b) false ∧ traps (.ctld p d a 12 b) true ∧
    traps (.ctst p d a 12 b) false ∧ traps (.vldt p l a 12 b) false

/-- The traps of addresses, permissions and window kinds. -/
def Obligations.AddressTraps : Prop :=
  Sys2Proof.Claims.WordAddressTraps ∧
  Sys2Proof.Claims.KindTraps ∧
  Sys2Proof.Claims.PlaneLimitTraps

/-- Timed loads: VLDT through a SCRATCH or WBANK window fills an EMPTY slot's landing in its fixed time, VLAND takes a LANDED
slot in two cycles, with its trap where it is poisoned, or claims a WAITING one, and each traps with ACCESS where the slot is not
in its state (R174 to R176, R191, R192, R216, R217). -/
def Sys2Proof.Claims.TimedLoads : Prop :=
  ∀ (s : State) (p : BitVec 4) (l a b : BitVec 5) (f : BitVec 4) (d : BitVec 6) (w : Window),
    let slot := Tbl.look s.ico.landing l.toNat {}
    let bit : BitVec 32 := BitVec.ofNat 32 (2 ^ l.toNat)
    let acc := s.tileAcc a b f false
    (s.iss.core < 512 → w.kind = 1 ∨ w.kind = 2 → findWindow s.cx.windows (s.cx.sreg a).toNat = some w → slot.st = .empty →
      ∃ t : State, DoesIf (s.portWait acc.ports = false ∧ s.tileCauses acc .read loadKinds = []) (.vldt p l a f b) s t ∧
        (t.ctx s.cs).landpend = s.cx.landpend ||| bit ∧
        (let rows := chunkBlocks acc.spans (acc.vas.map fun va => s.blockAt (ownPlace s w va / 64 * 64))
         let due := s.cycle + (if w.kind = 1 then 10 else 14) + portOcc acc.ports
         Tbl.look (t.core s.iss.core).landing l.toNat {} =
           { st := .waiting, owner := s.iss.ctx, va := s.cx.sreg a, stride := s.cx.sreg b, fmt := f.toNat
             nfr := s.cx.nfrXc.zeroExtend 64, pq := s.cx.pq, pc := s.iss.pc, lanes := fullTile (acc.q.tile rows)
             poison := acc.q.poisonVa rows, due := some due, issued := s.cycle } ∧
         { due := due, src := srcCore s.iss.core, ev := .vldtLanded s.iss.core l.toNat } ∈ t.agenda) ∧
        t.mem = s.mem ∧ t.coats = s.coats) ∧
    (slot.st = .landed → slot.owner = s.iss.ctx → slot.poison = none →
      DoesIf True (.vland p d l) s (((s.onCtx s.cs fun x => { x with landpend := x.landpend &&& ~~~bit }).onCore s.iss.core
        fun k => { k with landing := Tbl.del k.landing l.toNat }).result 2 (.tile (s.cx.phys d.toNat) slot.lanes))) ∧
    (∀ v, slot.st = .landed → slot.owner = s.iss.ctx → slot.poison = some v →
      DoesIf True (.vland p d l) s ((((s.onCtx s.cs fun x => { x with landpend := x.landpend &&& ~~~bit }).onCore s.iss.core
        fun k => { k with landing := Tbl.del k.landing l.toNat }).result 2 (.tile (s.cx.phys d.toNat) slot.lanes)).latePoison
          s.cs (s.cycle + 2) (some v))) ∧
    (∀ due, slot.st = .waiting → slot.owner = s.iss.ctx → slot.due = some due →
      ∃ t : State, DoesIf True (.vland p d l) s t ∧
        Tbl.find (t.core s.iss.core).landing l.toNat = none ∧ (t.ctx s.cs).landpend = s.cx.landpend &&& ~~~bit ∧
        (∃ z : Pending, z.dest = .tile (s.cx.phys d.toNat) ∧ z.tile = slot.lanes ∧ z.poison = slot.poison ∧
          z.fault = slot.fault ∧ (t.ctx s.cs).pending = s.cx.pending ++ [{ z with id := s.fresh, issued := s.cycle }]) ∧
        { due := due + 2, src := srcCore s.iss.core, ev := .loadResult s.cs s.fresh } ∈ t.agenda) ∧
    (s.iss.sure = false → Free (.vland p d l) s → s.cx.preg p = true → slot.st = .empty ∨ slot.owner ≠ s.iss.ctx →
      exec (.vland p d l) s = .next (s.takeTrap { code := 0x09, addr := BitVec.ofNat 64 l.toNat, stage := 5 })) ∧
    (s.iss.sure = false → Free (.vldt p l a f b) s → s.cx.preg p = true → s.portWait acc.ports = false →
      s.tileCauses acc .read loadKinds = [] → slot.st ≠ .empty →
      exec (.vldt p l a f b) s = .next (s.takeTrap { code := 0x09, addr := BitVec.ofNat 64 l.toNat, stage := 5 }))

/-- The events that bring results: a pending result is written to its register with the trap it brings, or, where its
context has stopped, into the save area; a lane that a later bundle has written in the same cycle stays; a timed load makes its
slot LANDED; a line fills the instruction cache and ends the wait of every context for it, with a trap where its bundle still lies
in the line that memory refuses (R39, R113, R115, R144, R191, R214, R216, R289, R414). That a timed load which memory refuses leaves
its slot EMPTY is the model's choice (log 33), and so is TSLOT 0 of a fetch (log 130). -/
def Sys2Proof.Claims.ResultsReturn : Prop :=
  ∀ (s : State) (c id core slot line : Nat) (z : Pending),
    let x := s.ctx c
    let gone (t : State) : State := t.onCtx c fun y => { y with pending := y.pending.filter fun q => q.id != id }
    -- the trap of context `k` that falls in this cycle, after those that fell before it or whose loads were issued no later
    let owed (t : State) (k : Nat) (u : LateTrap) : State :=
      let first (v : LateTrap) : Bool := decide (v.fell < s.cycle) || (v.fell == s.cycle && decide (v.issued ≤ u.issued))
      t.onCtx k fun y => if y.run = .halted ∨ y.run = .stopping then y else { y with
        late := y.late.filter first ++ { u with fell := s.cycle } :: y.late.filter fun v => !first v }
    let found : Prop := (x.pending.find? fun q => q.id == id && !q.flash) = some z
    (found → z.saveIa = none → s.frozen (coreOf c) = false →
      (∀ n, z.dest = .scalar n → z.fault = none → z.poison = none →
        exec (.loadResult c id) s = .next ((gone s).onCtx c fun y => y.setS n z.value)) ∧
      (∀ n v, z.dest = .scalar n → z.fault = none → z.poison = some v →
        exec (.loadResult c id) s = .next (owed ((gone s).onCtx c fun y => y.setS n z.value) c
          { code := 0x0B, addr := v, slot := z.slot, issued := z.issued })) ∧
      (∀ q, z.dest = .tile q → z.fault = none → ∃ t : State, exec (.loadResult c id) s = .next t ∧
        (∀ r, r ≠ q → (t.core (coreOf c)).tile r = (s.core (coreOf c)).tile r) ∧ t.mem = s.mem ∧
        (t.ctx c).pending = x.pending.filter (fun q => q.id != id) ∧ (t.ctx c).s = x.s ∧
        (∀ d, d ≠ c → t.ctx d = s.ctx d) ∧
        (z.poison = none → (t.ctx c).late = x.late) ∧
        (∀ j, j < 1024 → (∀ e ∈ x.undo, ∀ v, e.1.w = .lane q j v → e.1.issued ≤ z.issued) →
          lane ((t.core (coreOf c)).tile q) j = lane z.tile j) ∧
        (∀ j v, j < 1024 → (∃ e ∈ x.undo, e.1.w = .lane q j v ∧ z.issued < e.1.issued) →
          (∀ e ∈ x.undo, ∀ u, e.1.w = .lane q j u → z.issued < e.1.issued → u = v) →
          lane ((t.core (coreOf c)).tile q) j = v)) ∧
      (∀ b, z.dest = .arrival → b = z.barrier → z.fault = none → z.poison = none →
        exec (.loadResult c id) s = .next ((gone s).onCtx c fun y => { y with arrival := some (b, z.value.toNat) })) ∧
      (∀ code v, z.fault = some (code, v) →
        exec (.loadResult c id) s =
          .next (owed (gone s) c { code := code, addr := v, slot := z.slot, issued := z.issued }))) ∧
    (found → z.saveIa = none → s.frozen (coreOf c) = true → exec (.loadResult c id) s = .next (s.onCtx c fun y =>
      { y with pending := y.pending.map fun q => if q.id = id then { q with arrived := true } else q })) ∧
    ((x.pending.find? fun q => q.id == id && !q.flash) = none → exec (.loadResult c id) s = .next s) ∧
    (∀ ia, found → z.saveIa = some ia → x.run ≠ .stopping → exec (.loadResult c id) s = .next ((gone s).saveResult c z ia)) ∧
    (∀ ia, found → z.saveIa = some ia → x.run = .stopping →
      exec (.loadResult c id) s = .next (s.schedule (s.cycle + 1) (srcCore (coreOf c)) (.loadResult c id))) ∧
    (let y := Tbl.look (s.core core).landing slot {}
     ∀ due, y.st = .waiting → y.due = some due → due ≤ s.cycle →
      (y.fault = none → exec (.vldtLanded core slot) s =
        .next (s.onCore core fun k => { k with landing := Tbl.put k.landing slot { y with st := .landed } })) ∧
      (∀ code v, y.fault = some (code, v) → ∃ t, exec (.vldtLanded core slot) s = .next t ∧
        (Tbl.look (t.core core).landing slot {}).st = .empty ∧ t.mem = s.mem)) ∧
    (∀ k l, s.missing core line = k :: l →
      (∀ b u, s.iaRead (s.coreReq k (s.fetchAlloc k)) (line * 64) = (.ok b, u) →
        ∃ t, exec (.icacheFill core line) s = .next t ∧ (∀ j ∈ k :: l, (t.ctx j).fetchMiss = none ∧ (t.ctx j).late = (u.ctx j).late) ∧
          Tbl.find (t.core core).icache line = some (leBytes 64 b.data) ∧ t.mem = u.mem ∧ t.lines = u.lines) ∧
      (∀ code u, s.iaRead (s.coreReq k (s.fetchAlloc k)) (line * 64) = (.fail code, u) →
        ∃ t, exec (.icacheFill core line) s = .next t ∧ t.mem = u.mem ∧ (t.core core).icache = (u.core core).icache ∧
          ∀ j ∈ k :: l, (t.ctx j).fetchMiss = none ∧
            (u.fetchesLine j line = false → (t.ctx j).late = (u.ctx j).late) ∧
            (u.fetchesLine j line = true → (u.ctx j).run = .free → ∃ v ∈ (t.ctx j).late,
              v.code = code ∧ v.addr = (u.ctx j).pc ∧ v.slot = 0 ∧ v.fell = u.cycle)))

/-- Timed loads and the return of results of variable latency. -/
def Obligations.TimedLoadsAndResults : Prop :=
  Sys2Proof.Claims.TimedLoads ∧
  Sys2Proof.Claims.ResultsReturn

/-- The atomics on a line that its home slice holds: the old value is returned, and the new one written, in one step; CAS
writes only where the old value is sd's (R332, R334 to R337). That the step is made, and the value captured, in the cycle of issue is
the model's choice (logs 28 and 29). -/
def Sys2Proof.Claims.AtomicsHeld : Prop :=
  ∀ (s : State) (p : BitVec 4) (d a b : BitVec 5) (sc : BitVec 3) (w : Window) (ln : Line),
    let va := (s.cx.sreg a).toNat
    let ia := w.toIa va
    LineHit s w va ln →
    let v := s.cx.sreg b
    let old (n : Nat) : Nat := ln.data / 256 ^ (va % 64) % 256 ^ n
    let o : Word := BitVec.ofNat 64 (old 8)
    let e : Lane := BitVec.ofNat 32 (old 4)
    let u : Lane := v.truncate 32
    let org := originNaN s.iss.pc 0
    let returns (t : State) (n : Nat) : Prop := ∃ due, s.cycle + s.leastLatency s.iss.core s.ipart ia ≤ due ∧
      Awaited s t due { id := 0, slot := 4, dest := .scalar d.toNat, reissue := false, va := s.cx.sreg a
                        value := BitVec.ofNat 64 (old n) }
    let does (i : Instr) (n new : Nat) : Prop := va % n = 0 → ∃ t : State,
      DoesIf (s.normalCauses va n .both = []) i s t ∧ LineWritten s t ia n new ln ∧ returns t n
    does (.amoadd p d a b sc) 8 (o + v).toNat ∧
    does (.amoand p d a b sc) 8 (o &&& v).toNat ∧
    does (.amoor p d a b sc) 8 (o ||| v).toNat ∧
    does (.amoxor p d a b sc) 8 (o ^^^ v).toNat ∧
    does (.amomin p d a b sc) 8 (BitVec.ofInt 64 (min o.toInt v.toInt)).toNat ∧
    does (.amomax p d a b sc) 8 (BitVec.ofInt 64 (max o.toInt v.toInt)).toNat ∧
    does (.amominu p d a b sc) 8 (min o.toNat v.toNat) ∧
    does (.amomaxu p d a b sc) 8 (max o.toNat v.toNat) ∧
    does (.amoswap p d a b sc) 8 v.toNat ∧
    does (.amofadd p d a b sc) 4 (fadd org e u).toNat ∧
    does (.amofmin p d a b sc) 4 (amoPick fminOp e u).toNat ∧
    does (.amofmax p d a b sc) 4 (amoPick fmaxOp e u).toNat ∧
    (o = s.cx.sreg d → does (.cas p d a b sc) 8 v.toNat) ∧
    (o ≠ s.cx.sreg d → va % 8 = 0 → ∃ t : State, DoesIf (s.normalCauses va 8 .both = []) (.cas p d a b sc) s t ∧
      LoadFrame s t ∧ returns t 8)

/-- Atomics on any line that a NORMAL window reaches, held or not: one indivisible step on the block as memory gives it, for a
replicated page at its primary; the old value is returned, from the flash port in its turn, and what memory refuses comes back
as a trap (R288, R289, R290, R295, R334 to R337). That the step is made, and the value captured, in the cycle of issue is the model's
choice (logs 28 and 29). -/
def Sys2Proof.Claims.AtomicsAnyLine : Prop :=
  ∀ (s : State) (p : BitVec 4) (d a b : BitVec 5) (sc : BitVec 3) (w : Window),
    let va := (s.cx.sreg a).toNat
    let ia := w.toIa va
    findWindow s.cx.windows va = some w → w.kind = 0 →
    let q : Req := { s.winReq (some w) with primary := true }
    let v := s.cx.sreg b
    let u32 : Lane := v.truncate 32
    let org := originNaN s.iss.pc 0
    let z : Pending := { id := 0, slot := 4, dest := .scalar d.toNat, reissue := false, va := s.cx.sreg a }
    let back (i : Instr) (n : Nat) (u : State) (y : Pending) : Prop := ∃ (t : State) (due : Nat),
      DoesIf (s.normalCauses va n .both = []) i s t ∧ s.cycle + s.leastLatency s.iss.core s.ipart ia ≤ due ∧ LoadFrame u t ∧
      (¬ InPort s (s.winReq (some w)) ia → Awaited u t due y) ∧
      (InPort s (s.winReq (some w)) ia → AtPort u t (iaRegion ia) due y)
    let write (n new : Nat) : BWrite :=
      { mask := (2 ^ (8 * n) - 1) * 2 ^ (8 * (va % 64)), data := new % 2 ^ (8 * n) * 2 ^ (8 * (va % 64)) }
    -- `f` gives the new value of the old, or none where nothing is written
    let does (i : Instr) (n : Nat) (f : Nat → Option Nat) : Prop := va % n = 0 →
      (∀ blk r, s.iaRead q (ia / 64 * 64) = (.ok blk, r) →
        let old : Nat := blk.data / 256 ^ (va % 64) % 256 ^ n
        (f old = none → back i n r { z with value := BitVec.ofNat 64 old }) ∧
        (∀ new t, f old = some new → s.iaWrite q (ia / 64 * 64) (write n new) = (none, t) →
          back i n t { z with value := BitVec.ofNat 64 old }) ∧
        (∀ new code t, f old = some new → s.iaWrite q (ia / 64 * 64) (write n new) = (some code, t) →
          back i n t { z with fault := some (code, s.cx.sreg a) })) ∧
      (∀ code r, s.iaRead q (ia / 64 * 64) = (.fail code, r) →
        back i n r { z with fault := some (code, s.cx.sreg a) })
    let int (i : Instr) (f : Word → Word) : Prop := does i 8 fun old => some (f (BitVec.ofNat 64 old)).toNat
    let flt (i : Instr) (f : Lane → Lane) : Prop := does i 4 fun old => some (f (BitVec.ofNat 32 old)).toNat
    int (.amoadd p d a b sc) (fun o => o + v) ∧ int (.amoand p d a b sc) (fun o => o &&& v) ∧
    int (.amoor p d a b sc) (fun o => o ||| v) ∧ int (.amoxor p d a b sc) (fun o => o ^^^ v) ∧
    int (.amomin p d a b sc) (fun o => BitVec.ofInt 64 (min o.toInt v.toInt)) ∧
    int (.amomax p d a b sc) (fun o => BitVec.ofInt 64 (max o.toInt v.toInt)) ∧
    int (.amominu p d a b sc) (fun o => BitVec.ofNat 64 (min o.toNat v.toNat)) ∧
    int (.amomaxu p d a b sc) (fun o => BitVec.ofNat 64 (max o.toNat v.toNat)) ∧
    int (.amoswap p d a b sc) (fun _ => v) ∧
    flt (.amofadd p d a b sc) (fun o => fadd org o u32) ∧
    flt (.amofmin p d a b sc) (fun o => amoPick fminOp o u32) ∧ flt (.amofmax p d a b sc) (fun o => amoPick fmaxOp o u32) ∧
    does (.cas p d a b sc) 8 (fun old => if old = (s.cx.sreg d).toNat then some v.toNat else none)

/-- The atomics on a line that its home slice holds, and on any line. -/
def Obligations.Atomics : Prop :=
  Sys2Proof.Claims.AtomicsHeld ∧
  Sys2Proof.Claims.AtomicsAnyLine

/-- WATCH arms the monitor on the place that its context's loads read; SNOOZE ends at once without a monitor, with one that has
triggered and past its limit, and otherwise sleeps until a trigger or the limit, of which the trigger wins; MARK waits, but for
scope CTX, until every earlier access of its context has been performed, a wait of variable latency (R39, R331 to R333, R340). The
cycle in which a limit ends a SNOOZE is the model's choice (log 36), and so is the list of what MARK waits for, which follows from
the accesses performed at issue (logs 28 and 35). -/
def Obligations.MonitorsAndSleep : Prop :=
  ∀ (s : State) (p : BitVec 4) (d a : BitVec 5) (sc : BitVec 3) (w : Window) (c : Nat), s.iss.ctx < 4 →
    let va := (s.cx.sreg a).toNat
    let ia := w.toIa va
    let limit := s.cx.sreg a
    let passed : Prop := limit.toNat ≤ s.gtc ∧ cycleOfNs limit.toNat < s.cycle
    let ends (v : Word) : State :=
      (s.onCtx s.cs fun x => { x with monitor := .disarmed }).result 1 (.scalar d.toNat v)
    let out : Prop :=
      (∃ y ∈ s.doms, ∃ h ∈ y.2.heldW, h.ctx = some s.cs ∧ h.issued < s.cycle) ∨
      (∃ z ∈ s.cx.pending, z.saveIa = none ∧ (z.slot = 4 ∨ z.dest = .arrival) ∧ z.issued < s.cycle) ∨
      (∃ l ∈ s.ico.landing, l.2.st = .waiting ∧ l.2.owner = s.iss.ctx ∧ l.2.issued < s.cycle)
    (∀ key, findWindow s.cx.windows va = some w → iaRegion ia ≤ 8 →
      (match (s.winReq (some w)).frameOf (ia / 64 * 64) with
        | some f => key = 2 ^ 58 + (2 ^ 20 * iaRegion ia + f) * 1024 + ia % 65536 / 64
        | none => if iaRegion ia = 8 then key = (s.homeDom (s.winReq (some w)) (ia / 64 * 64) + 1) * 2 ^ 52 + ia / 64
          else key = ia / 64) →
      DoesIf (s.normalCauses va 1 .read = []) (.watch p a) s
        (s.onCtx s.cs fun x => { x with monitor := .armed key })) ∧
    (s.cx.monitor = .disarmed → Does (.snooze p d a) s (ends 3)) ∧
    (∀ k, s.cx.monitor = .triggered k → Does (.snooze p d a) s (ends 0)) ∧
    (∀ k, s.cx.monitor = .armed k → passed → Does (.snooze p d a) s (ends 1)) ∧
    (∀ k, s.cx.monitor = .armed k → ¬ passed → Does (.snooze p d a) s
      ((s.onCtx s.cs fun x => { x with sleep := { x.sleep with snooze := some (d.toNat, limit) } }).schedule (cycleOfNs limit.toNat + 1)
        (srcCore s.iss.core) (.snoozeTimeout s.cs))) ∧
    (∀ n m, (s.ctx c).sleep.snooze = some (n, m) → (s.ctx c).run ≠ .halted → m.toNat ≤ s.gtc →
      exec (.snoozeTimeout c) s = .next (s.onCtx c fun x =>
        { x.setS n (match x.monitor with | .triggered _ => 0 | _ => 1) with sleep := { x.sleep with snooze := none }, monitor := .disarmed })) ∧
    DoesIf (sc = 0 ∨ ¬ out) (.mark p sc) s s ∧
    (s.iss.sure = false → Free (.mark p sc) s → Live (.mark p sc) s → sc ≠ 0 → out →
      exec (.mark p sc) s = .next (s.hold true))

/-- SYNC, the tag waits and FFR: each commits when its condition holds, waits while it does not, and delays the next bundle
by STALL (R41, R53, R276, R277). -/
def Sys2Proof.Claims.SyncAndTagWaits : Prop :=
  ∀ (s : State) (n : BitVec 4) (m : BitVec 16) (a d : BitVec 5),
    let v := s.cx.sreg a
    let waits (i : Instr) (c : Prop) : Prop := s.iss.sure = false → Free i s → c → exec i s = .next (s.hold true)
    DoesIf (∀ j < 16, m.getLsbD j = true → s.ico.flags.getLsbD j = true) (.sync n m) s (stalled n s) ∧
    waits (.sync n m) (∃ j < 16, m.getLsbD j = true ∧ s.ico.flags.getLsbD j = false) ∧
    DoesIf (v = 0 ∨ ∃ j < 64, v.getLsbD j = true ∧ s.cx.tags.getLsbD j = true) (.waitany n a) s (stalled n s) ∧
    waits (.waitany n a) (v ≠ 0 ∧ ∀ j < 64, v.getLsbD j = true → s.cx.tags.getLsbD j = false) ∧
    DoesIf (∀ j < 64, v.getLsbD j = true → s.cx.tags.getLsbD j = true) (.waitall n a) s (stalled n s) ∧
    waits (.waitall n a) (∃ j < 64, v.getLsbD j = true ∧ s.cx.tags.getLsbD j = false) ∧
    (∀ t, t < 64 → (s.cx.tags &&& v).getLsbD t = true → (∀ j, j < t → (s.cx.tags &&& v).getLsbD j = false) →
      Does (.ffr n a d) s (stalled n (s.result 2 (.scalar d.toNat
        (BitVec.ofNat 64 (t + 256 * (Tbl.look s.ico.tstat t 0).toNat)))))) ∧
    (s.cx.tags &&& v = 0 → Does (.ffr n a d) s (stalled n (s.result 2 (.scalar d.toNat (BitVec.ofInt 64 (-1))))))

/-- FSET and FCLR put an operation on its way to the target core: to its own core from the next cycle on, elsewhere later,
and never before an earlier one of the same context on that core, nor, as FlagsArrive states, before the accesses that its context
has issued earlier; with none of either outstanding, one to the own core comes in the next cycle. A target that may not be reached
is an ACCESS trap (R53, R322 to R326). What counts as performed follows from the accesses performed at issue (log 28). -/
def Sys2Proof.Claims.FlagWords : Prop :=
  ∀ (s : State) (n : BitVec 4) (c : BitVec 3) (f : BitVec 4) (a : BitVec 5),
    let target := (s.cx.sreg a).toNat
    let reached (scope : Nat) : Prop := target ≤ 511 ∧ s.owns s.ipart (faceOf target) = true ∧
      (scope ≤ 1 → target = s.iss.core) ∧ (scope = 2 → pairOf target = pairOf s.iss.core) ∧
      (scope = 3 → faceOf target = faceOf s.iss.core) ∧ (scope = 4 → domOf target = domOf s.iss.core)
    let sends (core : Nat) (set : Bool) (t : State) (near : Bool) : Prop := ∃ due,
      (t.core core).flagOps = (s.core core).flagOps ++
        [{ due := due, flag := f.toNat, set := set, origin := some s.cs, issued := s.cycle }] ∧
      s.cycle + 2 ≤ due ∧ (∀ o ∈ (s.core core).flagOps, o.origin = some s.cs → o.due < due) ∧
      (near = true → ¬ Unperformed s s.cs s.cycle → (∀ o ∈ (s.core core).flagOps, o.origin = some s.cs → o.due ≤ s.cycle + 1) →
        due = s.cycle + 2) ∧
      (t.core core).flags = (s.core core).flags ∧ t.mem = s.mem ∧ t.ctxs = s.ctxs
    (∃ t, DoesIf (reached c.toNat) (.fset n c f a) s (stalled n t) ∧ sends target true t false) ∧
    (∃ t, DoesIf (reached 6) (.fclr n f a) s (stalled n t) ∧ sends target false t false) ∧
    (∃ t, Does (.fsetSelf n c f) s (stalled n t) ∧ sends s.iss.core true t (decide (c.toNat ≤ 1))) ∧
    (∃ t, Does (.fclrSelf n f) s (stalled n t) ∧ sends s.iss.core false t true) ∧
    (s.iss.sure = false → Free (.fset n c f a) s → ¬ reached c.toNat → exec (.fset n c f a) s =
      .next (s.takeTrap { code := 0x09, addr := s.cx.sreg a, stage := 5 })) ∧
    (s.iss.sure = false → Free (.fclr n f a) s → ¬ reached 6 → exec (.fclr n f a) s =
      .next (s.takeTrap { code := 0x09, addr := s.cx.sreg a, stage := 5 }))

/-- A flag operation arrives once it is due and every load and store that its context issued before it has been performed. Then a
flag that some of them sets is 1, one that they only clear is 0, and any other keeps its
value; the others stay on their way (R53, R324 to R326). -/
def Sys2Proof.Claims.FlagsArrive : Prop :=
  ∀ (s : State) (c j : Nat), j < 16 → (∀ o ∈ (s.core c).flagOps, o.flag < 16) →
    let k := s.core c
    let t := s.landFlags.core c
    let lands (o : FlagOp) : Prop := o.due ≤ s.cycle ∧ ∀ x, o.origin = some x → ¬ Unperformed s x o.issued
    let arrives (set : Bool) : Prop := ∃ o ∈ k.flagOps, lands o ∧ o.set = set ∧ o.flag = j
    (arrives true → t.flags.getLsbD j = true) ∧
    (¬ arrives true → arrives false → t.flags.getLsbD j = false) ∧
    (¬ arrives true → ¬ arrives false → t.flags.getLsbD j = k.flags.getLsbD j) ∧
    (∀ o, o ∈ t.flagOps ↔ o ∈ k.flagOps ∧ ¬ lands o)

/-- Waits, and flags sent and received. -/
def Obligations.WaitsAndFlags : Prop :=
  Sys2Proof.Claims.SyncAndTagWaits ∧
  Sys2Proof.Claims.FlagWords ∧
  Sys2Proof.Claims.FlagsArrive

/-- BARRIVE: one indivisible step on the line that holds the barrier, which counts the arrival or ends the phase, and the
old phase goes to the arrival record (R327 to R329). That the step is made in the cycle of issue is the model's choice (logs 28
and 37). -/
def Sys2Proof.Claims.BarrierArrival : Prop :=
  ∀ (s : State) (n : BitVec 4) (a : BitVec 5) (c : BitVec 3) (w : Window) (ln : Line),
    let va := (s.cx.sreg a).toNat
    let ia := w.toIa va
    let old := ln.data % 2 ^ 128
    let arrived := old % 2 ^ 32
    let parties := old / 2 ^ 32 % 2 ^ 32
    let phase := old / 2 ^ 64 % 2 ^ 32
    let new : Nat :=
      if parties ≤ arrived + 1 then old - arrived - phase * 2 ^ 64 + (phase + 1) % 2 ^ 32 * 2 ^ 64 else old + 1
    LineHit s w va ln → va % 64 = 0 →
    (∃ t due, DoesIf (s.barrierCauses va .both = [] ∧ s.cx.arriving = false) (.barrive n a c) s (stalled n t) ∧
      LineWritten s t ia 16 new ln ∧ s.cycle + s.leastLatency s.iss.core s.ipart ia ≤ due ∧
      Awaited s t due { id := 0, slot := 7, dest := .arrival, reissue := false, va := s.cx.sreg a
                        barrier := BitVec.ofNat 64 ia, value := BitVec.ofNat 64 phase }) ∧
    (s.iss.sure = false → Instr.wf (.barrive n a c) = true → Tbl.find s.cx.prefixes s.iss.slot = none →
      s.cx.arriving = true → exec (.barrive n a c) s = .next (s.hold true))

/-- BARRIVE on any line that a NORMAL window reaches, held or not: one indivisible step on the block as memory gives it, and the
answer comes from the flash port in its turn; what memory refuses comes back as a trap. BARWAIT reads PHASE from the block as
memory gives it (R288, R289, R290, R328, R329, R330). That the step is made in the cycle of issue is the model's choice (logs 28 and
37). -/
def Sys2Proof.Claims.BarriersAnyLine : Prop :=
  ∀ (s : State) (n : BitVec 4) (a : BitVec 5) (c : BitVec 3) (w : Window),
    let va := (s.cx.sreg a).toNat
    let ia := w.toIa va
    findWindow s.cx.windows va = some w → w.kind = 0 → va % 64 = 0 →
    let q : Req := { s.winReq (some w) with primary := true }
    let z : Pending := { id := 0, slot := 7, dest := .arrival, reissue := false, va := s.cx.sreg a, barrier := BitVec.ofNat 64 ia }
    let back (u : State) (y : Pending) : Prop := ∃ (t : State) (due : Nat),
      DoesIf (s.barrierCauses va .both = [] ∧ s.cx.arriving = false) (.barrive n a c) s (stalled n t) ∧
      s.cycle + s.leastLatency s.iss.core s.ipart ia ≤ due ∧ LoadFrame u t ∧
      (¬ InPort s (s.winReq (some w)) ia → Awaited u t due y) ∧
      (InPort s (s.winReq (some w)) ia → AtPort u t (iaRegion ia) due y)
    (∀ blk r, s.iaRead q (ia / 64 * 64) = (.ok blk, r) →
      let old := blk.data % 2 ^ 128
      let arrived := old % 2 ^ 32
      let parties := old / 2 ^ 32 % 2 ^ 32
      let phase := old / 2 ^ 64 % 2 ^ 32
      let new : Nat :=
        if parties ≤ arrived + 1 then old - arrived - phase * 2 ^ 64 + (phase + 1) % 2 ^ 32 * 2 ^ 64 else old + 1
      let made := s.iaWrite q (ia / 64 * 64) { mask := 2 ^ 128 - 1, data := new }
      (∀ t, made = (none, t) → back t { z with value := BitVec.ofNat 64 phase }) ∧
      (∀ code t, made = (some code, t) → back t { z with fault := some (code, s.cx.sreg a) })) ∧
    (∀ code r, s.iaRead q (ia / 64 * 64) = (.fail code, r) → back r { z with fault := some (code, s.cx.sreg a) }) ∧
    (∀ k j, (∀ blk r, s.iaRead { s.coreReq k true with primary := true } j = (.ok blk, r) →
        s.barPhase k j = .ok (blk.data / 2 ^ 64 % 2 ^ 32)) ∧
      ∀ code r, s.iaRead { s.coreReq k true with primary := true } j = (.fail code, r) → s.barPhase k j = .error code)

/-- BARWAIT: it takes its reference phase from the arrival record of its barrier, else from PHASE now, holds until PHASE
differs, and then gives 0 and clears the record; past its limit it gives 1 and leaves the record (R288, R329, R330). That a BARWAIT
makes one request, when its wait begins, and that the slice then watches the line for it, is the model's choice (log 37). -/
def Sys2Proof.Claims.BarrierWait : Prop :=
  ∀ (s : State) (n : BitVec 4) (a b d : BitVec 5) (w : Window) (c : Nat),
    let va := (s.cx.sreg a).toNat
    let ia := s.effIa s.iss.core w va
    let i : Instr := .barwait n a b d
    (s.iss.sure = false → Free i s → s.cx.arriving = false → s.cx.sleep.bar = none → findWindow s.cx.windows va = some w →
      s.barrierCauses va .read = [] → ∃ (t : State) (seen : Nat), exec i s = .next (t.hold true) ∧
        (∀ now, s.barPhase s.cs ia = .ok now → (t.ctx s.cs).sleep.bar = some (.waiting (s.cx.sreg b) ia
          (match s.cx.arrival with | some (k, old) => if k.toNat = ia then old else now | none => now) seen)) ∧
        (∀ r u, s.iaRead { s.winReq (some w) with primary := true } ia = (r, u) → t.mem = u.mem ∧ t.lines = u.lines ∧ t.doms = u.doms) ∧
        (s.cx.sreg b ≠ BitVec.ofInt 64 (-1) → ∃ due, s.cycle ≤ due ∧ seen ≤ due ∧
          { due := due, src := srcCore s.iss.core, ev := .barwaitTimeout s.cs } ∈ t.agenda)) ∧
    (∀ l k ph seen p, s.cx.sleep.bar = some (.waiting l k ph seen) → s.barPhase s.cs k = .ok p → p ≠ ph →
      DoesIf (seen ≤ s.cycle ∧ s.cx.arriving = false ∧ s.barrierCauses va .read = []) i s
        (stalled n ((s.onCtx s.cs fun x => { x with sleep := { x.sleep with bar := none }, arrival := none }).result 1
          (.scalar d.toNat 0)))) ∧
    (s.cx.sleep.bar = some .over → DoesIf (s.cx.arriving = false ∧ s.barrierCauses va .read = []) i s
      (stalled n ((s.onCtx s.cs fun x => { x with sleep := { x.sleep with bar := none } }).result 1 (.scalar d.toNat 1)))) ∧
    (∀ l k ph seen, (s.ctx c).sleep.bar = some (.waiting l k ph seen) → (s.ctx c).run ≠ .halted → l.toNat ≤ s.gtc →
      seen ≤ s.cycle → s.barPhase c k = .ok ph →
      exec (.barwaitTimeout c) s = .next (s.onCtx c fun x => { x with sleep := { x.sleep with bar := some .over } }))

/-- Barriers in memory. -/
def Obligations.Barriers : Prop :=
  Sys2Proof.Claims.BarrierArrival ∧
  Sys2Proof.Claims.BarriersAnyLine ∧
  Sys2Proof.Claims.BarrierWait

/-- SLK sets what is left of the slack, up to what the plan still grants; UNBOOK asks the controller to release the ticks that
follow, which it then does but for HOLD entries; neither does anything in a context that is not BOOKED (R205, R208, R209). -/
def Sys2Proof.Claims.SlackAndUnbook : Prop :=
  ∀ (s : State) (n : BitVec 4) (k : BitVec 20) (f b : Nat) (z : Booking),
    (s.cx.run ≠ .booked → Does (.slk n k) s (stalled n s) ∧ Does (.unbook n) s (stalled n s)) ∧
    (s.cx.run = .booked → f = faceOf (coreOf s.cs) → s.cx.bid = some b → Tbl.find (s.face f).bookings b = some z →
      (s.face f).bookings.Pairwise (fun x y => x.1 < y.1) →
      Does (.slk n k) s (stalled n (s.onCtx s.cs fun x => { x with slack := min k.toNat (z.slack - x.paid) })) ∧
      Does (.unbook n) s (stalled n ((s.onFace f fun y => { y with
        requests := Asked y.requests (.release (coreOf s.cs) b s.tick true) }).onCtx s.cs fun x => { x with unbook := true })) ∧
      (let t := s.release f b s.tick true;
        t.mem = s.mem ∧ t.cores = s.cores ∧ t.ctxs = s.ctxs ∧
        (∀ row u, s.tick < u → (∀ x ∈ z.rows, x.covers row u = true → x.hold = false) →
          (t.face f).owner row u ≠ .bid b) ∧
        (∀ row u, u ≤ s.tick → (∃ x ∈ z.rows, x.covers row u = true) →
          ∃ y, Tbl.find (t.face f).bookings b = some y ∧ ∃ x ∈ y.rows, x.covers row u = true)) ∧
      (∀ row u, s.tick < u → ((s.release f b s.tick false).face f).owner row u ≠ .bid b))

/-- HALT and TDONE halt the context with no save area: vector results in flight are discarded, scalar and predicate results
are not, its registers keep their values, and an instance's end is counted; TYIELD halts an instance and gives it back to
its queue, and has no effect outside a task (R103, R112, R140, R369, R371, R411). -/
def Sys2Proof.Claims.ContextEnds : Prop :=
  ∀ (s : State) (n : BitVec 4) (q d : Nat) (u : Task),
    let leaves (t : State) : Prop :=
      Halted s t s.cs ∧ (t.ctx s.cs).s = s.cx.s ∧ (t.ctx s.cs).p = s.cx.p ∧ (t.ctx s.cs).pc = s.cx.pc ∧ t.mem = s.mem ∧
      (∀ i ∈ s.cx.inflight, (∀ r v, i.w ≠ .tile r v) → (∀ r j v, i.w ≠ .lane r j v) → (∀ u, i.w ≠ .owe u) →
        i ∈ (t.ctx s.cs).inflight) ∧
      (∀ i ∈ (t.ctx s.cs).inflight, i ∈ s.cx.inflight ∧ (∀ r v, i.w ≠ .tile r v) ∧ ∀ r j v, i.w ≠ .lane r j v)
    let task (t : State) (f : Task → Prop) : Prop := s.taskOf s.cx = some (d, u) → u ∈ (s.disp d).tasks →
      ∃ v ∈ (t.disp d).tasks, v.seq = u.seq ∧ f v
    (∃ t, Does (.halt n) s (stalled n t) ∧ leaves t ∧ task t (fun v => v.ended = u.ended + 1) ∧
      (s.isSup s.cs = true → q = s.partOf (coreOf s.cs) → (t.part q).hasSup = false)) ∧
    (∃ t, Does (.tdone n) s (stalled n t) ∧ leaves t ∧ task t (fun v => v.ended = u.ended + 1)) ∧
    (s.cx.taskid ≠ 0 → ∃ t, Does (.tyield n) s (stalled n t) ∧ leaves t ∧
      task t (fun v => v.ended = u.ended ∧ v.yielded = u.yielded ++ [u.linear s.cx.inst])) ∧
    (s.cx.taskid = 0 → Does (.tyield n) s (stalled n s))

/-- Slack and release of a booked task, and the words that end a context. -/
def Obligations.SlackAndContextEnds : Prop :=
  Sys2Proof.Claims.SlackAndUnbook ∧
  Sys2Proof.Claims.ContextEnds

/-- TRAP and TRAP.BRK trap with TRAPI and BREAK, their code in TADDR (R410). -/
def Sys2Proof.Claims.TrapWords : Prop :=
  ∀ (s : State) (n : BitVec 4) (c : BitVec 16), s.iss.sure = false →
    (Free (.trap n c) s → exec (.trap n c) s =
      .next (s.takeTrap { code := 0x18, addr := c.zeroExtend 64, stage := 5 })) ∧
    (Free (.trapBrk n c) s → exec (.trapBrk n c) s =
      .next (s.takeTrap { code := 0x19, addr := c.zeroExtend 64, stage := 5 }))

/-- Taking a trap: TCAUSE, TPC, TADDR and TSLOT name it, the context stops at the bundle's own address with nothing of the
bundle done, at once unless a step of its macro-ops is still in progress, and no other context changes but for a monitor (R43,
R249, R406, R409, R413). -/
def Sys2Proof.Claims.TakingATrap : Prop :=
  ∀ (s : State) (k : Cause),
    let t := s.takeTrap k
    Stopped s t s.cs ∧ t.iss.verdict = .trapped k ∧
    (t.ctx s.cs).tcause = BitVec.ofNat 64 (k.sub * 256 + k.code) ∧ (t.ctx s.cs).tpc = s.iss.pc ∧
    (t.ctx s.cs).taddr = k.addr ∧ (t.ctx s.cs).tslot = s.iss.slot ∧ (t.ctx s.cs).pc = s.iss.pc ∧
    (t.ctx s.cs).inflight = [] ∧ (t.ctx s.cs).late = [] ∧
    (∀ c, c ≠ s.cs → ∃ m, t.ctx c = { s.ctx c with monitor := m })

/-- The trap words and the taking of a trap. -/
def Obligations.Traps : Prop :=
  Sys2Proof.Claims.TrapWords ∧
  Sys2Proof.Claims.TakingATrap

/-- CTXSTOP, RFT and CTXRUN are the supervisor's: at task privilege they trap with PRIV; otherwise they send their request,
and a context number that the partition does not own is an ACCESS trap (R52, R409, R416, R417, R422, R424). -/
def Sys2Proof.Claims.ContextRequests : Prop :=
  ∀ (s : State) (n : BitVec 4) (a b : BitVec 5) (w : Window),
    let c := (s.cx.sreg a).toNat
    let owned : Prop := c ≤ 2047 ∧ s.owns s.ipart (faceOf (coreOf c)) = true
    let sup (i : Instr) (cond : Prop) (t : State) : Prop :=
      s.cx.priv ≠ 0 → (s.iss.sure = true ∨ (Free i s ∧ cond)) → exec i s = .next (stalled n t).commit
    let needsSup (i : Instr) : Prop := s.cx.priv = 0 → s.iss.sure = false → Free i s →
      exec i s = .next (s.takeTrap { code := 0x05, stage := 3, word := true })
    let asked (target : Option Nat) (va : Nat) : State :=
      { s with resumes := s.resumes ++ [{ id := s.fresh, target := target, sa := s.effIa s.iss.core w va, part := s.ipart
                                          priv := s.cx.priv }]
               fresh := s.fresh + 1 }
    let stopped : State :=
      { s with resumes := s.resumes.map (fun r => if (s.resumeTarget r) = some c then { r with stopped := true } else r) }
    needsSup (.ctxstop n a) ∧ needsSup (.rft n a) ∧ needsSup (.ctxrun n a b) ∧
    ((s.ctx c).run = .free ∨ (s.ctx c).run = .booked → ∃ t due, sup (.ctxstop n a) (owned ∧ c ≠ s.cs) t ∧
      s.cycle < due ∧ due ≤ s.cycle + 160 ∧
      { due := due, src := srcCore (coreOf c), ev := .contextStop c 2 } ∈ t.agenda ∧
      (∃ k, 2 ≤ k ∧ (t.ctx c).stopReq = some k) ∧ (t.ctx c).pc = (s.ctx c).pc) ∧
    ((s.ctx c).run = .halted ∨ (s.ctx c).run = .stopping → sup (.ctxstop n a) (owned ∧ c ≠ s.cs) stopped) ∧
    (s.iss.sure = false → s.cx.priv ≠ 0 → Free (.ctxstop n a) s → ¬ owned ∨ c = s.cs →
      exec (.ctxstop n a) s = .next (s.takeTrap { code := 0x09, addr := s.cx.sreg a, stage := 5 })) ∧
    (findWindow s.cx.windows c = some w → sup (.rft n a) (s.resumeCauses c = []) (asked none c)) ∧
    (findWindow s.cx.windows (s.cx.sreg b).toNat = some w →
      sup (.ctxrun n a b) (s.resumeCauses (s.cx.sreg b).toNat = [] ∧ owned) (asked (some c) (s.cx.sreg b).toNat))

/-- BOOK, CALQ, SPAWN and SPAWN.W: what each sends and how it is answered; SPAWN.W of a FREE context waits while its answer
would be FULL, and one of a BOOKED context answers as SPAWN does (R205, R206, R207, R355, R357). That a SPAWN is processed in its cycle
of issue, and the order of its checks, are the model's choices (logs 72 and 73), and so is a plan read at issue (log 40). -/
def Sys2Proof.Claims.RequestWords : Prop :=
  ∀ (s : State) (n : BitVec 4) (a d : BitVec 5) (q : BitVec 4),
    let va := (s.cx.sreg a).toNat
    let plan := s.readVaPlan va
    let reply (t u : State) (v : Word) : Prop := ∃ lat, 0 < lat ∧ u = t.pendLoad s.cs lat none
      { id := 0, slot := 7, dest := .scalar d.toNat, reissue := false, value := v }
    let asks (r : CalReq) (t : State) : State := t.onFace s.iface fun f => { f with requests := Asked f.requests r }
    let spawns (i : Instr) : Prop := ∀ (w : State) (v : Word),
      ((s.askSpawn va q.toNat = (.noQueue, w) ∧ v = 3) ∨ (s.askSpawn va q.toNat = (.bad, w) ∧ v = 2) ∨
       (∃ t w', s.askSpawn va q.toNat = (.empty t, w') ∧ w = w'.doneAct t ∧ v = 0) ∨
       (∃ t k w', s.askSpawn va q.toNat = (.ready t k, w') ∧ w = w'.placeTask t k ∧ v = 0)) →
      ∃ u, reply w u v ∧ DoesIf (s.readCauses va 128 128 = []) i s (stalled n u)
    (s.cx.run = .booked → ∃ u, reply s u (BitVec.ofInt 64 (-3)) ∧
      DoesIf (s.readCauses va 16 16 = []) (.book n a d) s (stalled n u)) ∧
    (s.cx.run ≠ .booked → (∀ code v, plan.1 ≠ .fault code v) →
      DoesIf (s.readCauses va 16 16 = []) (.book n a d) s (stalled n (asks (.book s.cs plan.1.plan (plan.2.vaIa va))
        (plan.2.onCtx s.cs fun x => { x with sleep := { x.sleep with book := some (d.toNat, 0) } })))) ∧
    ((∀ code v, plan.1 ≠ .fault code v) → ∃ t, DoesIf (s.readCauses va 16 16 = []) (.calq n a d) s (stalled n t) ∧
      (t.face s.iface).requests = Asked (plan.2.face s.iface).requests (.calq s.cs plan.2.fresh plan.1.plan) ∧
      (t.ctx s.cs).pending = (plan.2.ctx s.cs).pending ++
        [{ id := plan.2.fresh, slot := 7, dest := .scalar d.toNat, reissue := false }]) ∧
    (∀ code v, plan.1 = .fault code v → ∃ lat, 0 < lat ∧
      let u := plan.2.pendLoad s.cs lat none { id := 0, slot := 7, dest := .scalar d.toNat, reissue := false
                                               fault := some (code, BitVec.ofNat 64 v) }
      (s.cx.run ≠ .booked → DoesIf (s.readCauses va 16 16 = []) (.book n a d) s (stalled n u)) ∧
      DoesIf (s.readCauses va 16 16 = []) (.calq n a d) s (stalled n u)) ∧
    spawns (.spawn n a d q) ∧ spawns (.spawnW n a d q) ∧
    (∀ w, s.askSpawn va q.toNat = (.full, w) → ∃ u, reply (w.queueFull (srcCore s.iss.core) s.ipart q.toNat 0 0 0 0 (ctxId s.cs)) u 1 ∧
      DoesIf (s.readCauses va 128 128 = []) (.spawn n a d q) s (stalled n u) ∧
      (s.cx.run = .booked → DoesIf (s.readCauses va 128 128 = []) (.spawnW n a d q) s (stalled n u))) ∧
    (s.iss.sure = false → Free (.spawnW n a d q) s → s.cx.run = .free → s.readCauses va 128 128 = [] →
      (s.askSpawn va q.toNat).1 = .full → exec (.spawnW n a d q) s = .next (s.hold true))

/-- Words that ask another unit. -/
def Obligations.Requests : Prop :=
  Sys2Proof.Claims.ContextRequests ∧
  Sys2Proof.Claims.RequestWords

/-- rne32 gives the nearest F32, and of two that are equally near the even one; from 2^128 − 2^103 on it gives an infinity
(R57). -/
def Sys2Proof.Claims.RoundsToNearestEven : Prop :=
  ∀ (neg : Bool) (m : Nat) (e : Int),
    let x : ℚ := (if neg then -1 else 1) * m * (2 : ℚ) ^ e
    let r := rne32 neg m e
    (|x| < 2 ^ 128 - 2 ^ 103 → IsFin r ∧
      ∀ y, IsFin y → |x - rat r| ≤ |x - rat y| ∧ (|x - rat r| = |x - rat y| → rat y ≠ rat r → r.getLsbD 0 = false)) ∧
    (2 ^ 128 - 2 ^ 103 ≤ |x| → fv r = .inf neg)

/-- Rounding to F32. -/
def Obligations.RoundingIsNearestEven : Prop :=
  Sys2Proof.Claims.RoundsToNearestEven

/-- A segment of finite operands: one rounding of the exact sum of its products, scaled by the blocks' coats (R76, R237). -/
def Sys2Proof.Claims.SegmentsAreExact : Prop :=
  ∀ (org : Lane) (k : Int) (xs : List (Lane × Lane)), (∀ z ∈ xs, IsFin z.1 ∧ IsFin z.2) →
    ∃ (sum e : Int), segPartial org k xs = rneInt sum (e + k) ∧
      (sum : ℚ) * (2 : ℚ) ^ e = (xs.map fun z => rat z.1 * rat z.2).sum

/-- The operands of a segment: a column of plane-major B is read from the bit planes that the macro-op names, with the scale of
its first block that is not a zero block and the centring term, and none where a plane block is poisoned or has another
plane's code; a block of A, and of B in F8 and BF, gives the elements of its code (R73, R74, R235, R237, R238). That a column group
whose plane-7 block has no plane CODE is signed is the model's choice (log 134). With a signed NFR.MX of width 8 and SUBEN, an A code
-128 reads as SUB (R68). -/
def Sys2Proof.Claims.OperandsAreRead : Prop :=
  ∀ (s : State) (o : MxOp) (g h i : Nat) (b : BlockVal), o.groupOk = true → o.op = 1 ∨ o.op = 2 ∨ o.op = 3 → o.kind ≤ 2 →
    h < 32 → i < 8 →
    let p := pairOf o.core
    let byte (off : Nat) : Nat :=
      let a : Int := o.bIa + g * o.segStride + off
      if o.bWbank then wbankPlace p (s.pair p).active (a % 2 ^ 24).toNat else devicePlace a.toNat
    let plane (j : Nat) : BlockVal := s.blockAt (byte ((7 - j) * o.pstride + 64 * h))
    let top := coatCode (s.blockAt (byte (64 * h))).coat
    let uns : Bool := decide (0x28 ≤ top ∧ top ≤ 0x2F)
    let planes : List Nat := [7, 6, 5, 4, 3, 2, 1, 0].filter fun j =>
      if o.op = 2 then decide (8 - o.qr ≤ j ∧ j ≤ 7 - o.q) else decide (8 - o.q ≤ j)
    let bad (j : Nat) : Prop := coatPoison (plane j).coat = true ∨
      (coatZero (plane j).coat = false ∧ coatCode (plane j).coat ≠ (if uns then 0x28 else 0x18) + (7 - j))
    let col := (s.bColumns o g).1.getD (8 * h + i) none
    let centre (q : Nat) : Int := if o.cen ∧ q < 8 then 2 ^ (7 - q) else 0
    let weight (k : Nat) : Int := (if o.op = 2 then centre o.qr - centre o.q else centre o.q) +
      (planes.map fun j => if coatZero (plane j).coat ∨ (plane j).data.testBit (8 * k + i) = false then (0 : Int)
        else if j = 7 ∧ uns = false then -128 else 2 ^ j).sum
    let signed (k : Nat) : Int := (BitVec.ofNat 8 (b.data / 256 ^ k)).toInt
    let elem (w : Bool) : Option (Int × List Lane) := opndBlock o w b
    (o.op ≠ 1 ∨ o.kind = 0 →
      ((∃ j ∈ planes, bad j) → col = none) ∧
      ((∀ j ∈ planes, ¬ bad j) → (∀ j ∈ planes, coatZero (plane j).coat = true) → col = some (0, List.replicate 64 0)) ∧
      (∀ l j r, planes = l ++ j :: r → (∀ j ∈ planes, ¬ bad j) → (∀ k ∈ l, coatZero (plane k).coat = true) →
        coatZero (plane j).coat = false →
        col = some (coatE (plane j).coat, (List.range 64).map fun k => rneInt (weight k) 0))) ∧
    (o.op = 1 → o.kind ≠ 0 → col = opndBlock o true (s.blockAt (byte (64 * (8 * h + i))))) ∧
    (∀ w, coatPoison b.coat = true → elem w = none) ∧
    (∀ w, coatPoison b.coat = false → coatZero b.coat = true →
      elem w = some (0, List.replicate (if o.op = 1 ∧ o.kind = 2 then 32 else 64) 0)) ∧
    (coatPoison b.coat = false → coatZero b.coat = false →
      (o.op ≠ 1 ∨ o.kind = 0 →
        (coatCode b.coat = 8 → elem false = some (coatE b.coat, (List.range 64).map fun k =>
          rneInt (if o.nfr.getLsbD 4 ∧ o.nfr.getLsbD 5 ∧ o.nfr.toNat % 16 = 8 ∧ signed k = -128 then (o.nfr.extractLsb' 8 8).toInt
            else signed k) 0)) ∧
        (coatCode b.coat = 9 → elem false = some (coatE b.coat, (List.range 64).map fun k =>
          rneInt (b.data / 256 ^ k % 256 : Nat) 0)) ∧
        (coatCode b.coat ≠ 8 → coatCode b.coat ≠ 9 → elem false = none)) ∧
      (o.op = 1 → o.kind = 1 → ∀ w,
        (coatCode b.coat = 4 → elem w = some (coatE b.coat, (List.range 64).map fun k =>
          widen fmtE4M3 (b.data / 256 ^ k % 256))) ∧
        (coatCode b.coat = 5 → elem w = some (coatE b.coat, (List.range 64).map fun k =>
          widen fmtE5M2 (b.data / 256 ^ k % 256))) ∧
        (coatCode b.coat ≠ 4 → coatCode b.coat ≠ 5 → elem w = none)) ∧
      (o.op = 1 → o.kind = 2 → ∀ w,
        (coatCode b.coat = 2 → elem w = some (coatE b.coat, (List.range 32).map fun k =>
          widen fmtBF16 (b.data / 65536 ^ k % 65536))) ∧
        (coatCode b.coat ≠ 2 → elem w = none)))

/-- A compute step adds to each cell of its bank the rounded partial of the segment: the A block of the row against the B
column, or an origin NaN where either is poisoned; a poisoned block sets the bank's poison bit (R58, R76, R237, R246). Where cell
and partial are both NaNs, the cell's stays, which is the model's choice (log 111), and so is the order in which APSN takes poisoned blocks (log 135). -/
def Sys2Proof.Claims.ComputeAddsPartials : Prop :=
  ∀ (s : State) (o : MxOp) (g m n : Nat), m < o.m → n < 256 →
    let p := pairOf o.core
    let b := Tbl.look (s.pair p).acc o.acc {}
    let b' := Tbl.look ((s.compute o g).pair p).acc o.acc {}
    let a := opndBlock o false (s.blockAt (devicePlace ((o.aIa : Int) + (m * o.aStride + 64 * g)).toNat))
    let col := (s.bColumns o g).1.getD n none
    let org := originNaN o.pc (accLane m n)
    (∀ r < o.m, (b.row p o.acc r).length = 256) →
    (∀ x y, a = some x → col = some y →
      (b'.row p o.acc m).getD n 0 = fadd org ((b.row p o.acc m).getD n 0) (segPartial org (x.1 + y.1) (x.2.zip y.2))) ∧
    (a = none ∨ col = none → (b'.row p o.acc m).getD n 0 = fadd org ((b.row p o.acc m).getD n 0) org) ∧
    (a = none ∨ col = none → b'.poison = true) ∧
    (b.poison = false → a = none →
      (∀ r < m, opndBlock o false (s.blockAt (devicePlace ((o.aIa : Int) + (r * o.aStride + 64 * g)).toNat)) ≠ none) →
      b'.apsn = ((o.aIa : Int) + (m * o.aStride + 64 * g)).toNat) ∧
    (b.poison = true → b'.poison = true ∧ b'.apsn = b.apsn) ∧
    (∀ r, o.m ≤ r → b'.row p o.acc r = b.row p o.acc r)

/-- The arithmetic of the matrix array. -/
def Obligations.ArrayArithmetic : Prop :=
  Sys2Proof.Claims.SegmentsAreExact ∧
  Sys2Proof.Claims.OperandsAreRead ∧
  Sys2Proof.Claims.ComputeAddsPartials

/-- The macro-op words enter their context's queue, one booked and one free for each core, with the number of their steps;
with eight entries there they wait (R230, R231, R236, R240, R241, R244). -/
def Obligations.MacroOpsQueue : Prop :=
  ∀ (s : State) (p : BitVec 4) (c : BitVec 1) (k : BitVec 2) (g : BitVec 5) (e : BitVec 1) (f : BitVec 4),
    let q := 2 * (s.iss.core % 2) + (if s.cx.run = .booked then 1 else 0)
    let pair := s.pair s.ipair
    let queued (i : Instr) (op kind steps : Nat) (eff : BitVec 1) (fl : BitVec 4) : Prop :=
      (∃ (t : State) (m : MxOp),
        DoesIf ((pair.queue q).length < 8 ∧ s.mxCauses (s.mxMake op i c kind g eff fl) = []) i s t ∧
        (t.pair s.ipair).queue q = pair.queue q ++ [m] ∧
        m.op = op ∧ m.acc = c.toNat ∧ m.kind = kind ∧ m.core = s.iss.core ∧ m.ctx = s.iss.ctx ∧ m.pc = s.iss.pc ∧
        m.steps = steps ∧ m.issued = s.cycle ∧ m.flagEn = (eff == 1) ∧ m.flag = fl.toNat ∧ m.seg = 0 ∧ m.rows = 0 ∧
        (op ≠ 4 → m.group = s.cx.group g) ∧
        (∀ r, r ≠ q → (t.pair s.ipair).queue r = pair.queue r) ∧
        (t.pair s.ipair).acc = pair.acc ∧
        t.mem = s.mem ∧ t.coats = s.coats ∧ t.ctxs = s.ctxs) ∧
      (s.iss.sure = false → Free i s → s.cx.preg p = true → 8 ≤ (pair.queue q).length → exec i s = .next (s.hold true))
    let per (n : Nat) : Nat := (s.cx.grp g 4).toNat / n
    queued (.mma p c k g e f) 1 k.toNat (if k = 2 then per 32 else per 64) e f ∧
    queued (.mref p c g e f) 2 0 (per 64) e f ∧
    queued (.mlut p c g e f) 3 0 (per 64) e f ∧
    queued (.mzero p c) 4 0 1 0 0 ∧
    queued (.mldacc p c g e f) 5 0 ((s.cx.grp g 6).toNat / 16) e f ∧
    queued (.mdrain p c g e f) 6 0 ((s.cx.grp g 6).toNat / 16) e f

/-- MFMT sets the narrow format that the third bundle from here sees; MPROG returns the progress record; MRESUME puts the held
macro-ops into the queue in their order, as entries become free while its bundle waits (R51, R242, R248, R250). -/
def Sys2Proof.Claims.ArrayFormatAndProgress : Prop :=
  ∀ (s : State) (p : BitVec 4) (g d : BitVec 5),
    let w := (s.cx.sreg g).toNat % 16
    DoesIf (1 ≤ w ∧ w ≤ 8) (.mfmt p g) s (s.onCtx s.cs fun z =>
      { z with nfrPend := z.nfrPend ++ [(false, (s.cx.sreg g).truncate 16 &&& 0xFF3F, 3)] }) ∧
    (s.iss.sure = false → Free (.mfmt p g) s → s.cx.preg p = true → w = 0 ∨ 8 < w →
      exec (.mfmt p g) s = .next (s.takeTrap { code := 0x01, stage := 3 })) ∧
    Does (.mprog p d) s (s.result 2 (.scalar d.toNat s.progress)) ∧
    (s.cx.held = [] → Does (.mresume p) s (s.onCtx s.cs fun x =>
      { x with held := [], sleep := { x.sleep with resume := false } })) ∧
    (∃ t, DoesIf ((s.cx.sleep.resume = true ∨ s.resumeMxCauses = []) ∧ s.cx.held.length ≤ s.mxRoom) (.mresume p) s t ∧
      (t.ctx s.cs).held = [] ∧ (t.ctx s.cs).sleep.resume = false ∧
      (let q := 2 * (s.iss.core % 2) + (if s.cx.run = .booked then 1 else 0)
       ((t.pair s.ipair).queue q).map (fun m => (m.word, m.pc, m.group, m.seg, m.rows)) =
        ((s.pair s.ipair).queue q).map (fun m => (m.word, m.pc, m.group, m.seg, m.rows)) ++
          s.cx.held.map (fun m => (m.word, m.pc, m.group, m.seg, m.rows)))) ∧
    -- while there is not room for all of them, those enter that have room, and the bundle holds
    (s.iss.sure = false → Free (.mresume p) s → s.cx.preg p = true →
      s.cx.sleep.resume = true ∨ s.resumeMxCauses = [] → s.mxRoom < s.cx.held.length →
      ∃ t : State, exec (.mresume p) s = .next (t.hold true) ∧ (t.ctx s.cs).held = s.cx.held.drop s.mxRoom ∧
        (t.ctx s.cs).sleep.resume = true ∧
        (let q := 2 * (s.iss.core % 2) + (if s.cx.run = .booked then 1 else 0)
         ((t.pair s.ipair).queue q).map (fun m => (m.word, m.pc, m.group, m.seg, m.rows)) =
          ((s.pair s.ipair).queue q).map (fun m => (m.word, m.pc, m.group, m.seg, m.rows)) ++
            (s.cx.held.take s.mxRoom).map (fun m => (m.word, m.pc, m.group, m.seg, m.rows)))) ∧
    -- which goes on whether or not the context may issue
    (∀ c, (s.ctx c).sleep.resume = true → (∀ j, j < 4 → 4 * coreOf c + j ≠ c → (s.ctx (4 * coreOf c + j)).sleep.resume = false) →
      (s.pair (pairOf (coreOf c))).freeze = none →
      let q := 2 * (coreOf c % 2) + (if (s.ctx c).run = .booked then 1 else 0)
      ((s.resumeHeld (coreOf c)).ctx c).held =
        (s.ctx c).held.drop (8 - ((s.pair (pairOf (coreOf c))).queue q).length))

/-- The progress record that MPROG returns: VALID, OP, ACC, HELD, and the rows or segments completed, of the context's macro-op
in progress at the head of its free or booked queue, whose step in progress does not count, and otherwise of the first that it
holds; 0 where there is none (R248). That an MZERO in progress is not shown, and that one first among the held shows its opcode, is
the model's choice (log 133). -/
def Sys2Proof.Claims.ProgressRecord : Prop :=
  ∀ (s : State) (o : MxOp), s.iss.ctx < 4 →
    let head (b : Nat) : Option MxOp := ((s.pair s.ipair).queue (2 * (s.iss.core % 2) + b)).head?
    let going (m : MxOp) : Prop := m.core = s.iss.core ∧ m.ctx = s.iss.ctx ∧ m.op ≠ 4 ∧
      (if m.op = 5 ∨ m.op = 6 then 16 ≤ m.rows else 1 ≤ m.seg)
    let busy : Prop := ∃ e, o.busy = some e ∧ s.cycle < e
    let record (held rows seg : Nat) : Word :=
      BitVec.ofNat 64 (2 ^ 48 + 2 ^ 44 * o.op + 2 ^ 43 * o.acc + 2 ^ 42 * held + 2 ^ 32 * rows + seg)
    let here : Prop := head 0 = some o ∨ (head 1 = some o ∧ ∀ m, head 0 = some m → ¬ going m)
    let idle : Prop := ∀ b m, b < 2 → head b = some m → ¬ going m
    (here → going o → ¬ busy → s.progress = record 0 o.rows o.seg) ∧
    (here → going o → busy → s.progress = record 0 (o.rows - 16) (o.seg - 1)) ∧
    (idle → s.cx.held.head? = some o → s.progress = record 1 o.rows o.seg) ∧
    (idle → s.cx.held = [] → s.progress = 0)

/-- WSWAP: a BOOKED task that owns both weight-bank rows at the tick leaves the swap pending; a FREE context asks its
controller and holds, and goes on when both rows were FREE, the swap being pending since then, or traps with ACCESS when they
were not; a tick that is not 2 to 8,191 ahead, or a second swap, is an ACCESS trap, and a BOOKED task that does not own both rows traps
with OVERRUN (R205, R211, R253). -/
def Sys2Proof.Claims.WeightSwapRequest : Prop :=
  ∀ (s : State) (p : BitVec 4) (g : BitVec 5) (e : BitVec 1) (f : BitVec 4) (b : Nat),
    let i : Instr := .wswap p g e f
    let tick := (s.cx.grp g 0).toNat
    let rest : Prop := ∀ j, 1 ≤ j → j ≤ 7 → s.cx.grp g j = 0
    let pair := s.ipair
    let near : Prop := s.tick + 2 ≤ tick ∧ tick ≤ s.tick + 8191 ∧ (s.pair pair).swap = none
    let rows := [0x120 + 2 * (pair % 8), 0x121 + 2 * (pair % 8)]
    let accepted : State :=
      ((s.onPair pair fun x =>
        { x with swap := some { tick := tick, core := s.iss.core, flagEn := e == 1, flag := f.toNat } }).schedule
          (32 * tick) (srcArray pair) (.weightSwap pair)).schedule (32 * (tick + 1)) (srcArray pair) (.swapDone pair)
    (s.cx.run = .booked → s.cx.bid = some b → s.cx.sleep.swap = none →
      DoesIf (rest ∧ near ∧ ∀ r ∈ rows, (s.face s.iface).owner r tick = .bid b) i s accepted) ∧
    (∀ r l1 l2, s.iss.sure = false → Free i s → s.cx.preg p = true → rest → near → s.cx.run = .booked → s.cx.bid = some b →
      s.cx.sleep.swap = none → rows = l1 ++ r :: l2 → (∀ x ∈ l1, (s.face s.iface).owner x tick = .bid b) →
      (s.face s.iface).owner r tick ≠ .bid b →
      exec i s = .next (s.takeTrap { code := 0x10, addr := BitVec.ofNat 64 r, stage := 4 })) ∧
    (s.cx.run = .free → s.cx.sleep.swap = some (some true) →
      DoesIf rest i s (s.onCtx s.cs fun x => { x with sleep := { x.sleep with swap := none } })) ∧
    (s.iss.sure = false → Free i s → s.cx.preg p = true → rest → s.cx.run = .free → s.cx.sleep.swap = some (some false) →
      exec i s = .next (s.takeTrap { code := 0x09, addr := s.cx.grp g 0, stage := 5 })) ∧
    (s.iss.sure = false → Free i s → s.cx.preg p = true → rest → s.cx.run = .free → s.cx.sleep.swap = some none →
      exec i s = .next (s.hold true)) ∧
    (s.iss.sure = false → Free i s → s.cx.preg p = true → rest → s.cx.run = .free → s.cx.sleep.swap = none → near →
      exec i s = .next (((s.onCtx s.cs fun x => { x with sleep := { x.sleep with swap := some none } }).onFace s.iface fun y =>
        { y with requests := Asked y.requests (.wswap s.cs tick (e == 1) f.toNat) }).hold true)) ∧
    (s.iss.sure = false → Free i s → s.cx.preg p = true → rest → s.cx.sleep.swap = none → ¬ near →
      exec i s = .next (s.takeTrap { code := 0x09, addr := s.cx.grp g 0, stage := 5 }))

/-- The swap tick exchanges the halves; the next tick ends the swap and sets its flag (R253). -/
def Sys2Proof.Claims.WeightSwapHappens : Prop :=
  ∀ (s : State) (p : Nat) (z : Swap), (s.pair p).swap = some z →
    (z.done = false → z.tick ≤ s.tick → exec (.weightSwap p) s =
      .next (s.onPair p fun x => { x with active := !x.active, swap := some { z with done := true } })) ∧
    (z.done = true → z.tick < s.tick → ∃ t, exec (.swapDone p) s = .next t ∧
      t.pair p = { s.pair p with swap := none } ∧ t.mem = s.mem ∧
      (z.flagEn = true → (t.core z.core).flagOps = (s.core z.core).flagOps ++
        [{ due := s.cycle + 1, flag := z.flag, set := true, origin := none, issued := s.cycle }]))

/-- The array's format, progress and the weight-bank swap. -/
def Obligations.ArrayFormatAndSwap : Prop :=
  Sys2Proof.Claims.ArrayFormatAndProgress ∧
  Sys2Proof.Claims.ProgressRecord ∧
  Sys2Proof.Claims.WeightSwapRequest ∧
  Sys2Proof.Claims.WeightSwapHappens

/-- A step of the sequencer: the head of the chosen queue advances by one step, the array is held to the end of the step, and
MZERO clears its bank; no step writes memory when it starts; a macro-op whose last step has ended leaves its queue and sets its flag
(R227, R228, R230, R232, R233, R236, R240, R245). That the effect of a compute, MZERO or MLDACC step takes place when it starts is
the model's choice (log 50), and so is the start of a booked queue's free steps in LEASE mode (log 132). -/
def Sys2Proof.Claims.StepOfTheSequencer : Prop :=
  ∀ (s : State) (p q : Nat) (o : MxOp) (l : Option (Nat × Nat)),
    let half := if (s.pair (pairOf o.core)).lease then 0 else o.core % 2
    let last := advance16 (s.mxPar o) s.cycle (s.stepUse o o.done).len
    ((s.pair p).freeze = none → pairOf o.core = p → s.chosen p q = some (o, l) → s.stepNow o = true →
      (o.op = 6 → o.done = 0 → s.drainPoison o = none) →
      ∃ t, exec (.arrayStep p q) s = .next t ∧
        ((t.pair p).queue q).head? = some { o with
          busy := some last
          parked := false
          bias := if o.op = 6 then s.bias o else []
          solid := if o.done = 0 then s.overlapsB o else o.solid
          seg := if o.op = 5 ∨ o.op = 6 then o.seg else o.seg + 1
          rows := if o.op = 5 ∨ o.op = 6 then o.rows + 16 else o.rows } ∧
        ((t.pair p).queue q).tail = ((s.pair p).queue q).tail ∧
        Tbl.look (t.pair p).arrFree half 0 = last ∧
        (∀ h n, l = some (h, n) → (t.pair p).holder = h) ∧
        t.mem = s.mem ∧ t.coats = s.coats ∧ (o.op ≠ 6 → (t.pair p).out = (s.pair p).out) ∧
        (s.overlapsB o = true ↔ o.op = 6 ∧ (let b := Tbl.look (s.pair p).acc o.acc {}; b.bLo < b.bHi ∧ o.cMeets b.bLo b.bHi = true)) ∧
        (o.op = 6 → o.bias = [] → o.biasIa ≠ 0 → o.biasIa % 64 = 0 → s.bias o = (List.range 256).map fun j =>
          BitVec.ofNat 32 (bytesAt s (devicePlace (o.biasIa + 64 * (j / 16)) + 4 * (j % 16)) 4)) ∧
        (o.op = 6 → o.bias = [] → o.biasIa = 0 → s.bias o = List.replicate 256 0) ∧ (o.bias ≠ [] → s.bias o = o.bias) ∧
        (o.op = 4 → (Tbl.look (t.pair p).acc o.acc {}).poison = false ∧
          ∀ m, (Tbl.look (t.pair p).acc o.acc {}).row p o.acc m = List.replicate 256 0)) ∧
    (s.mxHead p q = some o → o.steps ≤ o.done → (∃ b, o.busy = some b ∧ b ≤ s.cycle) → (s.pair p).freeze = none →
      ∃ t, exec (.macroopComplete p q) s = .next t ∧ (t.pair p).queue q = ((s.pair p).queue q).tail ∧ t.mem = s.mem ∧
        (o.flagEn = true → (t.core o.core).flagOps = (s.core o.core).flagOps ++
          [{ due := s.cycle + 1, flag := o.flag, set := true, origin := none, issued := s.cycle }]) ∧
        (o.flagEn = false → t.cores = s.cores))

/-- The length of a step: Tkind of its macro-op, the term of the weight bank's port and those of the banks, 128 bytes a cycle;
MZERO takes 8 cycles, and MLDACC and MDRAIN 8 and at least 16 for their rows (R236, R240, R241, R244). -/
def Sys2Proof.Claims.StepLengths : Prop :=
  ∀ (s : State) (o : MxOp) (k : Nat), o.groupOk = true → o.op = 1 ∨ o.op = 2 ∨ o.op = 3 ∨ o.op = 4 ∨ o.op = 5 ∨ o.op = 6 →
    let up (a b : Nat) : Nat := (a + b - 1) / b
    -- the bytes of these runs that lie in bank `b`, and the longest use of a bank
    let inBank (runs : List (Nat × Nat)) (b : Nat) : Nat :=
      (runs.map fun r => (List.range r.2).countP fun i => (r.1 + i) / 65536 % 32 == b).sum
    let term (runs : List (Nat × Nat)) : Nat := (List.range 32).foldl (fun m b => max m (up (inBank runs b) 128)) 0
    let at' (base : Nat) (off : Int) : Nat := ((base : Int) + off).toNat
    let planes := if o.op = 2 then o.qr - o.q else o.q
    let byPlanes (n : Nat) : Nat := if 5 ≤ n then 64 else if 3 ≤ n then 32 else 16
    let tkind : Nat :=
      if o.op = 1 ∧ o.kind = 1 then 64 else if o.op = 1 ∧ o.kind = 2 then 128
      else if o.op = 3 then (if o.q = 2 then 8 else 4) else byPlanes planes
    let a : List (Nat × Nat) := (List.range o.m).map fun r => (at' o.aIa (r * o.aStride + 64 * k), 64)
    let b : List (Nat × Nat) :=
      if o.op = 1 ∧ o.kind ≠ 0 then [(at' o.bIa (k * o.segStride), 16384)]
      else (List.range planes).map fun i =>
        (at' o.bIa (k * o.segStride + ((if o.op = 2 then o.q + i else i) * o.pstride : Nat)), 2048)
    let bytes : Nat := if o.op = 1 ∧ o.kind ≠ 0 then 16384 else 2048 * planes
    let half : Bool := (s.face (faceOf o.core)).ratio.getLsbD (pairOf o.core % 8)
    let row (n : Nat) : List (Nat × Nat) := (List.range 16).map fun i =>
      (at' o.aIa ((16 * k + i : Nat) * (o.g 1).toInt), if o.op = 6 then n else s.ldaccBytes o (16 * k + i))
    let ends (runs : List (Nat × Nat)) : Prop := ∀ r ∈ runs, r.1 + r.2 ≤ 2 ^ 64
    (o.op ≤ 3 → (o.kind ≤ 2) → ends a → ends b → (s.stepUse o k).len =
      max tkind (max (if o.bWbank then up bytes (if half then 128 else 256) else 0) (term (if o.bWbank then a else a ++ b)))) ∧
    (o.op = 4 → (s.stepUse o k).len = 8) ∧
    (o.op = 5 ∨ o.op = 6 → ends (row o.rowBytes) → (s.stepUse o k).len = 8 + max 16 (term (row o.rowBytes)))

/-- A step of MLDACC: sixteen rows of the bank take the lanes that a row of 256 elements has, under F32 or under COAT, with origin
NaNs of the MLDACC's PC for poisoned blocks; the first step clears the bank's poison bit, and a poisoned block sets it; the other
rows and memory stay (R58, R65, R66, R193, R241). That the step's effect takes place when it starts is the model's choice (log 50). -/
def Sys2Proof.Claims.AccumulatorsLoad : Prop :=
  ∀ (s : State) (p q i n : Nat) (o : MxOp) (l : Option (Nat × Nat)), (s.pair p).freeze = none → pairOf o.core = p →
    s.chosen p q = some (o, l) → s.stepNow o = true → o.op = 5 → o.aIa % 64 = 0 → (o.g 1).toNat % 64 = 0 → i < 16 → n < 256 →
    let k := o.rows / 16
    let r := 16 * k + i
    let block (r j : Nat) : BlockVal := s.blockAt (devicePlace (((o.aIa : Int) + r * (o.g 1).toInt).toNat + 64 * j))
    let b := Tbl.look (s.pair p).acc o.acc {}
    let org := originNaN o.pc (r % 16 * 64 + n % 64)
    let first (r : Nat) : Nat := coatCode (block r 0).coat
    let zero (x : BlockVal) : Prop := coatPoison x.coat = false ∧ coatE x.coat = -128
    let bad (r : Nat) : Prop :=
      if o.g 2 = 1 then ∃ j, j < 16 ∧ coatPoison (block r j).coat = true
      else if 1 ≤ first r ∧ first r ≤ 12 then
        ∃ j, j < (s.ldaccBytes o r + 63) / 64 ∧ ¬ zero (block r j) ∧ coatCode (block r j).coat ≠ first r
      else ¬ zero (block r 0)
    ∃ t, exec (.arrayStep p q) s = .next t ∧
      let b' := Tbl.look (t.pair p).acc o.acc {}
      let x := (b'.row p o.acc r).getD n 0
      (o.g 2 = 1 → let c := block r (n / 16)
        x = if coatPoison c.coat then org else if coatE c.coat = -128 then 0 else BitVec.ofNat 32 (c.data / 2 ^ (32 * (n % 16)))) ∧
      (o.g 2 ≠ 1 → first r = 0 ∨ 12 < first r → (zero (block r 0) → x = 0) ∧ (¬ zero (block r 0) → x = org)) ∧
      (∀ w code, o.g 2 ≠ 1 → 1 ≤ first r → first r ≤ 12 → FmtWidth o.nfr (codeFmt (first r)) w → code < 2 ^ w →
        (∀ j, j < w → code.testBit j = (block r ((w * n + j) / 512)).data.testBit ((w * n + j) % 512)) →
        let c := block r (w * n / 512)
        (zero c → x = 0) ∧ (¬ zero c → coatCode c.coat ≠ first r → x = org) ∧
        (¬ zero c → coatCode c.coat = first r → CoatValue o.nfr (first r) w code (coatE c.coat) x)) ∧
      (b'.poison = true ↔ (0 < k ∧ b.poison = true) ∨ ∃ j, j < 16 ∧ bad (16 * k + j)) ∧
      (∀ m, m < 16 * k ∨ 16 * k + 16 ≤ m → b'.row p o.acc m = b.row p o.acc m) ∧ t.mem = s.mem ∧ t.coats = s.coats

/-- A step of MDRAIN: sixteen rows of C are on their way to their banks, each cell scaled, biased, rounded once and clipped where
RELU asks for it, converted to the output format, and each block with the scale of its own values or with EFIX; no bank takes a
block before the step's ninth cycle, and the bank of accumulators stays (R57, R69 to R71, R171, R243, R244). A cell that straddles
two blocks, which only NARROW has, belongs to that of its lowest bit, which is the model's choice (log 137). -/
def Sys2Proof.Claims.DrainStep : Prop :=
  ∀ (s : State) (p q w : Nat) (o : MxOp) (l : Option (Nat × Nat)), (s.pair p).freeze = none → pairOf o.core = p →
    s.chosen p q = some (o, l) → s.stepNow o = true → o.op = 6 →
    let k := o.rows / 16
    let f := (o.g 2).toNat
    (k = 0 → s.drainPoison o = none) → (o.g 1).toNat % 64 = 0 → FmtWidth o.nfr f w → f ≠ 14 → (s.bias o).length = 256 →
    (∀ i, i < 16 → 0 ≤ (o.aIa : Int) + (16 * k + i : Nat) * (o.g 1).toInt) →
    let b := Tbl.look (s.pair p).acc o.acc {}
    (∀ i, i < 16 → (b.row p o.acc (16 * k + i)).length = 256) →
    let off := 8 * (o.aIa % 64)
    let blocks := (off + 256 * w + 511) / 512
    ∃ t out, exec (.arrayStep p q) s = .next t ∧ (t.pair p).out = (s.pair p).out ++ out ∧ out.length = 16 * blocks ∧
      t.mem = s.mem ∧ t.coats = s.coats ∧ (t.pair p).acc = (s.pair p).acc ∧ (∀ y ∈ out, s.cycle + 8 ≤ y.due) ∧
      ∀ i, i < 16 →
        let r := 16 * k + i
        let ia := ((o.aIa : Int) + r * (o.g 1).toInt).toNat
        let y (n : Nat) : Lane :=
          let v := ffma (originNaN o.pc (r % 16 * 64 + n % 64)) ((b.row p o.acc r).getD n 0) ((o.g 4).truncate 32) ((s.bias o).getD n 0)
          if (o.g 5).getLsbD 0 ∧ isNan v = false ∧ v.msb then 0 else v
        ∃ (e : Nat → Int) (code : Nat → Nat),
          (∀ j, j < blocks → ∃ z, out[i * blocks + j]? = some z ∧ z.place = devicePlace (ia / 64 * 64 + 64 * j) ∧
            z.coat = some (mkCoat (e j) (if f = 13 then 12 else f)) ∧
            (∀ x, x < 512 → z.mask.testBit x = decide (off ≤ 512 * j + x ∧ 512 * j + x < off + 256 * w)) ∧
            (∀ n u, n < 256 → u < w → (off + w * n + u) / 512 = j → z.data.testBit ((off + w * n + u) % 512) = (code n).testBit u)) ∧
          (∀ j, j < blocks →
            let here (n : Nat) : Prop := n < 256 ∧ (off + w * n) / 512 = j
            let scaled (lo : Int) (t : Target) : Prop := (if (o.g 5).getLsbD 1 then e j = ((o.g 5).extractLsb' 8 8).toInt
              else ScaleIs lo (fun g => ∀ n, here n → fitsAt t g (fv (y n)) = true) (∀ n, here n → y n = 0 ∨ y n = 0x80000000) (e j)) ∧
              ∀ n, here n → code n = storeCode t (e j) true (y n)
            (f = 1 → e j = 0 ∧ ∀ n, here n → code n = (y n).toNat) ∧
            (f = 2 → e j = 0 ∧ ∀ n, here n → code n = narrow fmtBF16 (y n)) ∧
            (f = 3 → e j = 0 ∧ ∀ n, here n → code n = narrow fmtF16 (y n)) ∧
            (f = 6 → e j = 0 ∧ ∀ n, here n → (code n : Int) = f32ToInt false (-2 ^ 31) (2 ^ 31 - 1) (y n) % 2 ^ 32) ∧
            (f = 4 → scaled (-127) (.flt fmtE4M3)) ∧ (f = 5 → scaled (-127) (.flt fmtE5M2)) ∧
            (∀ lo hi, IntRange o.nfr f w lo hi → scaled 0 (.int lo hi w)))

/-- The blocks of C that their banks take in a cycle are in memory from then on, in their order, with their coats, and no other
byte has changed; while the pair is frozen none is taken (R171, R214, R244). -/
def Sys2Proof.Claims.DrainedBlocksLand : Prop :=
  ∀ (s : State) (p : Nat), let x := s.pair p; let t := s.landDrain p
    (∀ w ∈ x.out, w.place % 64 = 0) →
    (∀ z, x.freeze = some z → t = s) ∧
    (x.freeze = none →
      (t.pair p).out = x.out.filter (fun w => decide (s.cycle < w.due)) ∧
      (∀ a w c, x.out.filter (fun w => decide (w.due ≤ s.cycle)) = a ++ w :: c → (∀ v ∈ c, v.place ≠ w.place) →
        (∀ j, j < 512 → w.mask.testBit j = true → (blockIn t w.place).data.testBit j = w.data.testBit j) ∧
        ∀ e, w.coat = some e → (blockIn t w.place).coat = e) ∧
      (∀ a, (∀ w ∈ x.out, w.due ≤ s.cycle → a < w.place ∨ w.place + 64 ≤ a) →
        memGet t.mem a = memGet s.mem a ∧ coatGet t.coats a = coatGet s.coats a))

/-- An MDRAIN whose bank's poison bit is set, or whose bias has a poisoned block, when its first step would start: it leaves its
queue, writes nothing and sets no flag, and its context traps with POISON at once where its next bundle is held; the poison bit
stays (R246, R247). -/
def Sys2Proof.Claims.PoisonedDrains : Prop :=
  ∀ (s : State) (p q : Nat) (o : MxOp) (l : Option (Nat × Nat)) (ia : Nat), (s.pair p).freeze = none → pairOf o.core = p →
    s.chosen p q = some (o, l) → s.stepNow o = true → o.op = 6 → o.rows < 16 → o.biasIa % 64 = 0 →
    let c := 4 * o.core + o.ctx
    let b := Tbl.look (s.pair p).acc o.acc {}
    let bad (j : Nat) : Bool := coatPoison (s.blockAt (devicePlace (o.biasIa + 64 * j))).coat
    (b.poison = true ∧ ia = b.apsn) ∨ (b.poison = false ∧ o.biasIa ≠ 0 ∧
      ∃ j, j < 16 ∧ bad j = true ∧ (∀ i, i < j → bad i = false) ∧ ia = o.biasIa + 64 * j) →
    ∃ t, exec (.arrayStep p q) s = .next t ∧ (t.pair p).queue q = ((s.pair p).queue q).tail ∧ t.mem = s.mem ∧ t.coats = s.coats ∧
      t.cores = s.cores ∧ (t.pair p).out = (s.pair p).out ∧ (t.pair p).acc = (s.pair p).acc ∧
      ((s.ctx c).run = .free ∨ (s.ctx c).run = .booked → ∃ v ∈ (t.ctx c).late, v.code = 0x0B ∧ v.addr = BitVec.ofNat 64 ia ∧
        v.slot = 5 ∧ v.atOnce = true) ∧
      ((s.ctx c).run = .halted → (t.ctx c).tcause = 0x0B ∧ (t.ctx c).taddr = BitVec.ofNat 64 ia ∧ (t.ctx c).tslot = 5 ∧
        (t.ctx c).tpc = (s.ctx c).pc)

/-- How the array advances, what the steps of MLDACC and MDRAIN do, and what poison stops. -/
def Obligations.SequencerSteps : Prop :=
  Sys2Proof.Claims.StepOfTheSequencer ∧
  Sys2Proof.Claims.StepLengths ∧
  Sys2Proof.Claims.AccumulatorsLoad ∧
  Sys2Proof.Claims.DrainStep ∧
  Sys2Proof.Claims.DrainedBlocksLand ∧
  Sys2Proof.Claims.PoisonedDrains

/-- ACFG and the accounting table: a write of AMODE takes effect from the next cycle, but not while the array is in use;
LEASEMAX 0 and above 64 are 64; a flush writes every entry of the table, 32 bytes each, to the next places of the spill ring
and empties the table (R254, R255). That ACCTPTR counts entries modulo 2^32 and an entry's place is ACCTPTR modulo the ring, is the
model's choice (log 53). -/
def Obligations.ArrayConfiguration : Prop :=
  ∀ (s : State) (p : Nat) (v : Word),
    let x := s.pair p
    let l := v.toNat / 256 % 128
    let mode := v.getLsbD 0
    let now := x.modeNext.getD x.lease
    (mode = now ∨ s.arrayInUse p = false → exec (.acfgWrite p v) s = .next (s.onPair p fun x =>
      { x with acfgErr := false, leaseMax := if l = 0 ∨ 64 < l then 64 else l, modeNext := some mode })) ∧
    (mode ≠ now → s.arrayInUse p = true →
      exec (.acfgWrite p v) s = .next (s.onPair p fun x => { x with acfgErr := true })) ∧
    (∃ t, exec (.acctFlush p) s = .next t ∧ (t.pair p).acct = [] ∧
      (t.pair p).acctPtr = (if x.acct = [] then x.acctPtr else (x.acctPtr + x.acct.length) % 2 ^ 32) ∧
      (x.acctSize ≤ 15 →
        let words (a : Acct) : List Word := [a.addr, BitVec.ofNat 64 a.compute, BitVec.ofNat 64 (2 ^ 32 * (a.awaitA % 2 ^ 32) + a.wload % 2 ^ 32),
          BitVec.ofNat 64 (a.drain % 2 ^ 32)]
        let u := x.acct.zipIdx.foldl (fun (u : State) a => (u.writeBytes (engineReq (p / 32) ((s.ownerOf (p / 8)).getD 0))
          (x.acctBase + 32 * ((x.acctPtr + a.2) % 2 ^ (x.acctSize + 4))) (bytesOfWords (words a.1))).2) s
        t.mem = u.mem ∧ t.coats = u.coats ∧ t.lines = u.lines))

/-- CPY, CPYSL, CPYMC and COLL sample their group and what the context holds, make their tag busy and enter the queue of their
engine; while the tag is busy or the queue holds 64 commands they wait. CPYCAN cancels the copy that holds its tag; a
collective, and a multicast whose tick has begun, is not one (R67, R257, R260, R262, R263, R271 to R273, R382, R383). That a CPYMC
source or target which crosses a bank is ILLOP is the model's choice (log 139). -/
def Obligations.CopyWords : Prop :=
  ∀ (s : State) (p : BitVec 4) (t : BitVec 6) (g : BitVec 5) (x : BitVec 9) (o : BitVec 2),
    let eng := (s.cx.grp g 4).toNat / 2 ^ 52 % 4
    let lt := (s.cx.grp g 6).toNat / 65536
    let busy (e : Nat) : Prop := (Tbl.look s.ico.tags t.toNat {}).busy = true ∨ 64 ≤ (s.engine e).queue.length
    let queued (i : Instr) (k : CopyKind) (xop n : Nat) (causes : CopyCmd → List Cause) (u : State) : Prop :=
      ∃ c : CopyCmd, Queued s u (4 * s.iface + n) t.toNat c ∧
        DoesIf (¬ busy (4 * s.iface + n) ∧ causes c = []) i s u ∧
        c.kind = k ∧ c.xop = xop ∧ c.core = s.iss.core ∧ c.ctx = s.iss.ctx ∧ c.tag = t.toNat ∧ c.part = s.ipart ∧
        c.bid = (if s.cx.run = .booked then s.cx.bid else none) ∧ c.group.take 4 = (s.cx.group g).take 4 ∧
        (k ≠ .coll → c.group = s.cx.group g) ∧ c.half = !(s.pair s.ipair).active ∧ c.nfr = s.cx.nfrXc.zeroExtend 64 ∧
        c.srcWin = s.cx.windowWords (s.cx.grp g 0) ∧ c.dstWin = s.cx.windowWords (s.cx.grp g 1) ∧
        c.issued = s.cycle ∧ c.done = 0 ∧ c.started = false ∧ c.cancelled = false ∧
        (s.iss.sure = false → Free i s → s.cx.preg p = true → busy (4 * s.iface + n) → exec i s = .next (s.hold true))
    (∃ u, queued (.cpy p t g x) .cpy x.toNat eng s.cpyCauses u) ∧
    (∃ u, queued (.cpysl p t g x) .cpysl x.toNat eng s.cpyCauses u) ∧
    (∃ u, queued (.cpymc p t g) .cpymc 0 eng s.cpymcCauses u ∧
      { due := 32 * lt, src := srcCopy (4 * s.iface + eng), ev := .cpymcWrite (4 * s.iface + eng) s.fresh } ∈ u.agenda ∧
      { due := 32 * (lt + 1), src := srcCopy (4 * s.iface + eng), ev := .copyComplete (4 * s.iface + eng) s.fresh } ∈
        u.agenda) ∧
    (∃ u, queued (.coll p t g o) .coll o.toNat ((s.cx.grp g 3).toNat % 4) (fun _ => s.collCauses g) u) ∧
    (s.iss.sure = false → Free (.coll p t g o) s → s.cx.preg p = true → ¬ busy (4 * s.iface + (s.cx.grp g 3).toNat % 4) →
      32 ≤ (s.cx.grp g 1).toNat ∨ 4 ≤ (s.cx.grp g 3).toNat ∨ (∃ j, 4 ≤ j ∧ j ≤ 7 ∧ s.cx.grp g j ≠ 0) →
      exec (.coll p t g o) s = .next (s.takeTrap { code := 0x01, stage := 3 })) ∧
    -- an ME of NMEM or more, of a descriptor that can be read
    (∀ w b u, s.iss.sure = false → Free (.coll p t g o) s → s.cx.preg p = true →
      ¬ busy (4 * s.iface + (s.cx.grp g 3).toNat % 4) → let va := (s.cx.grp g 0).toNat
      let nmem := b.data / 2 ^ (8 * (va % 64)) % 256
      va % 128 = 0 → findWindow s.cx.windows va = some w → s.readVa s.iss.core (s.winReq (some w)) w va = (.ok b, u) →
      accessCauses s.cx.windows s.ico.staging va [{ va := va, len := 128 }] .read [0, 1] = [] →
      2 ≤ nmem → nmem ≤ 32 → nmem ≤ (s.cx.grp g 1).toNat →
      exec (.coll p t g o) s = .next (s.takeTrap { code := 0x01, stage := 3 })) ∧
    (∃ u, Does (.cpycan p t) s u ∧ u.mem = s.mem ∧ u.coats = s.coats ∧ u.ctxs = s.ctxs ∧ u.cores = s.cores ∧
      ∀ e, (u.engine e).queue = (s.engine e).queue.map fun c =>
        if e / 4 = s.iface ∧ c.core = s.iss.core ∧ c.tag = t.toNat ∧ c.kind ≠ .coll ∧
          (c.kind = .cpymc → s.tick < c.aux / 65536) then { c with cancelled := true } else c)

/-- PCNT returns the precision counter as it stands at issue; PWAIT holds until its counter shows q planes or
has ended, PCANCEL and PCANCEL.TAG enter the pair's cancel queue and wait while it holds eight entries; a counter number above 255 is an ACCESS trap (R388 to R391). That a PWAIT with q = 0 passes at once is the model's reading
(log 101). -/
def Obligations.CounterWords : Prop :=
  ∀ (s : State) (p n q : BitVec 4) (d a : BitVec 5) (t : BitVec 6),
    let v := s.cx.sreg a
    let k := (s.pair s.ipair).counter v.toNat
    let passes : Prop := q.toNat ≤ k.planes ∨ k.cancelled = true ∨ k.error = true ∨ k.done = true
    let len := (s.pair s.ipair).cancelQ.length
    let asked (e : CancelEntry) : State :=
      s.onPair s.ipair fun y => { y with cancelQ := y.cancelQ ++ [e] }
    let word : Nat := k.planes + 2 ^ 8 * k.qt + 2 ^ 12 * k.armed.toNat + 2 ^ 13 * k.cancelled.toNat +
      2 ^ 14 * k.error.toNat + 2 ^ 15 * k.done.toNat + 2 ^ 17 * k.core + 2 ^ 18 * k.tag
    let outside (i : Instr) : Prop := s.iss.sure = false → Free i s → Live i s → 255 < v.toNat →
      exec i s = .next (s.takeTrap { code := 0x09, addr := v, stage := 5 })
    DoesIf (v.toNat ≤ 255) (.pcnt p d a) s (s.result 3 (.scalar d.toNat (BitVec.ofNat 64 word))) ∧
    DoesIf (v.toNat ≤ 255 ∧ passes) (.pwait n a q) s (stalled n s) ∧
    (s.iss.sure = false → Free (.pwait n a q) s → v.toNat ≤ 255 → ¬ passes →
      exec (.pwait n a q) s = .next (s.hold true)) ∧
    DoesIf (v.toNat ≤ 255 ∧ len < 8) (.pcancel p a) s (asked (.tile v.toNat)) ∧
    DoesIf (len < 8) (.pcancelTag p t) s (asked (.tag s.iss.core t.toNat)) ∧
    (s.iss.sure = false → Free (.pcancelTag p t) s → s.cx.preg p = true → 8 ≤ len →
      exec (.pcancelTag p t) s = .next (s.hold true)) ∧
    outside (.pcnt p d a) ∧ outside (.pwait n a q) ∧ (len < 8 → outside (.pcancel p a))

/-- WHFETCH and WHDROP send a command to the port of the core's domain and take an entry of the core's queue, and wait while
it holds eight; WHSTAT asks for the record; a handle that the partition does not hold is a HANDLE trap (R309, R313, R316,
R318). -/
def Sys2Proof.Claims.HandleWords : Prop :=
  ∀ (s : State) (p : BitVec 4) (d g : BitVec 5) (h : BitVec 9) (w : Window),
    let n := 512 * s.idom + h.toNat
    let held : Prop := (s.handle n).en = true ∧ (s.handle n).owner = s.ipart
    let sends (i : Instr) (c : Prop) (k : Nat) (t : State) (cmd : HandleCmd) : Prop :=
      DoesIf c i s t ∧ (t.stack s.idom).cmds = (s.stack s.idom).cmds ++ [cmd] ∧ cmd.kind = k ∧ cmd.c = s.cs ∧ cmd.h = n ∧
        cmd.part = s.ipart ∧ t.mem = s.mem ∧ t.handles = s.handles ∧ (∀ x, x ≠ s.idom → t.stack x = s.stack x)
    let wait (i : Instr) : Prop := s.iss.sure = false → Free i s → Live i s → 8 ≤ s.ico.whq →
      exec i s = .next (s.hold true)
    let refused (i : Instr) : Prop := s.iss.sure = false → Free i s → Live i s → ¬ held →
      exec i s = .next (s.takeTrap { code := 0x14, addr := BitVec.ofNat 64 n, stage := 5 })
    (findWindow s.cx.windows (s.cx.grp g 0).toNat = some w → ∃ t cmd,
      sends (.whfetch p g h) (s.ico.whq < 8 ∧ s.fetchCauses g n = []) 0 t cmd ∧
      cmd.descIa = w.toIa (s.cx.grp g 0).toNat ∧ cmd.q = (s.cx.grp g 1).toNat ∧ (cmd.prio = true ↔ s.cx.grp g 2 = 1) ∧
      cmd.dest = s.cx.grp g 3 ∧ (t.core s.iss.core).whq = s.ico.whq + 1) ∧
    (∃ t cmd, sends (.whdrop p h) (s.ico.whq < 8 ∧ held) 1 t cmd ∧ (t.core s.iss.core).whq = s.ico.whq + 1) ∧
    (∃ t cmd, sends (.whstat p d h) held 2 t cmd ∧ t.cores = s.cores ∧ cmd.id = s.fresh ∧ ∃ z : Pending,
      (t.ctx s.cs).pending = s.cx.pending ++ [z] ∧ z.id = s.fresh ∧ z.dest = .scalar d.toNat) ∧
    wait (.whfetch p g h) ∧ wait (.whdrop p h) ∧ (s.ico.whq < 8 → refused (.whdrop p h)) ∧ refused (.whstat p d h)

/-- WHWAIT: past the context's own earlier commands for the handle it goes on once the record is PARTIAL or READY with q
planes landed, holds before that, and traps with HANDLE where the record is IDLE or ERROR (R309, R317). -/
def Sys2Proof.Claims.HandleWait : Prop :=
  ∀ (s : State) (n q : BitVec 4) (h : BitVec 12),
    let x := s.handle h.toNat
    let held : Prop := x.en = true ∧ x.owner = s.ipart
    let earlier : Prop := ∃ c ∈ (s.stack s.idom).cmds, c.c = s.cs ∧ c.h = h.toNat ∧ c.kind ≠ 2
    let i : Instr := .whwait n h q
    let now (c : Prop) (t : State) : Prop := s.iss.sure = false → Free i s → c → exec i s = .next t
    let trap (v : Nat) : State := s.takeTrap { code := 0x14, addr := BitVec.ofNat 64 v, stage := 5 }
    DoesIf (held ∧ ¬ earlier ∧ (x.st = 2 ∨ x.st = 3) ∧ q.toNat ≤ x.landed) i s (stalled n s) ∧
    now (held ∧ (earlier ∨ x.st = 1 ∨ ((x.st = 2 ∨ x.st = 3) ∧ x.landed < q.toNat))) (s.hold true) ∧
    now (held ∧ ¬ earlier ∧ x.st = 0) (trap h.toNat) ∧
    now (held ∧ ¬ earlier ∧ x.st = 4) (trap (h.toNat + 2 ^ 16 * x.err)) ∧
    now (¬ held) (trap h.toNat)

/-- The words of weight handles. -/
def Obligations.HandleInstructions : Prop :=
  Sys2Proof.Claims.HandleWords ∧
  Sys2Proof.Claims.HandleWait

/-- The stops that reach a context between its bundles: a stop request that has reached its core and a stop point stop it at its
next bundle, a stop whose macro-op has ended is completed, and the watchdog traps a bundle that has been held for the limit,
which is looked at as GTC advances; where nothing is due nothing happens (R249, R407, R412, R413, R416, R418). That area and message
are written when the step in progress ends is the model's reading (log 128). -/
def Sys2Proof.Claims.StopsOfContexts : Prop :=
  ∀ (s : State) (c k p : Nat),
    let x := s.ctx c
    let q := s.part p
    let waits : Prop := ∃ z, x.stopping = some z ∧ z.due ≤ s.cycle ∧
      ∀ l ∈ (s.pair (pairOf (coreOf c))).queues, ∀ o ∈ l.2, o.core = coreOf c → o.ctx = ctxOf c →
        o.steps ≤ o.done ∧ ∃ e, o.busy = some e ∧ e ≤ s.cycle
    ((∃ m, x.stopReq = some m) → x.run = .free ∨ x.run = .booked → x.stopping = none → ∃ t, exec (.contextStop c k) s = .next t ∧
      Stopped s t c ∧ (t.ctx c).pc = x.pc ∧ (t.ctx c).tcause = x.tcause ∧ (t.ctx c).inflight = [] ∧ OnlyCtx s t c) ∧
    (∀ z, x.stopping = some z → waits → ∃ t u, exec (.contextStop c k) s = .next t ∧ Halted s t c ∧ (t.ctx c).pc = x.pc ∧
      u = z.area.foldl (fun u w => (u.writeBytes (engineReq (domOf (coreOf c)) (s.partOf (coreOf c))) w.1 w.2).2) s ∧
      t.mem = u.mem ∧ t.coats = u.coats ∧ t.lines = u.lines ∧
      t.outbox = s.outbox ++ z.msgs.map (fun m => (c, .message (s.partOf (coreOf c)) m.1 m.2))) ∧
    (x.stopReq = none → ¬ waits → ¬ c ∈ s.plat.preempts → exec (.contextStop c k) s = .next s) ∧
    (x.run = .stopping → ¬ waits → exec (.contextStop c k) s = .next s) ∧
    (s.partOf (coreOf c) = p → x.run = .free ∨ x.run = .booked → q.stopctl.getLsbD 63 = true →
      q.stopctl.toNat / 2 ^ 32 % 2 ^ 11 = c → q.stoppc = x.pc →
      (q.stopctl.getLsbD 62 = true ∨ q.stopctl.toNat % 2 ^ 32 = x.lc.toNat % 2 ^ 32) →
      ∃ t, exec (.stopPoint p) s = .next t ∧ Stopped s t c ∧ (t.ctx c).pc = x.pc ∧ OnlyCtx s t c ∧
        (t.part p).stopctl = q.stopctl &&& 0x7FFFFFFFFFFFFFFF) ∧
    (q.stopctl.getLsbD 63 = false → exec (.stopPoint p) s = .next s) ∧
    (let limit := (s.part (s.partOf (coreOf c))).wdlimit
     (∀ h, x.run ≠ .halted → x.heldAt = some h → limit ≠ 0 → s.cycle ≠ 0 → s.gtc ≠ (s.cycle - 1) * 5 / 9 →
        9 * limit ≤ 5 * (s.cycle - h) →
        ∃ t, exec (.watchdog c) s = .next t ∧ Trapped s t c 0x1C 0 (BitVec.ofNat 64 s.gtc) x.heldSlot ∧ OnlyCtx s t c) ∧
     (limit = 0 ∨ x.heldAt = none → exec (.watchdog c) s = .next s))

/-- What the stop of a context writes where none of its macro-ops is queued and it neither sleeps nor has a result of this cycle to
take back: a save area in its place of the partition's, with the header, the registers, its results in flight in the order of
their due cycles and its calendar position, its tiles, the tiles of its LANDED slots and those dumped, then a message for the
supervisor; the controller is asked to release its bookings after the current tick, its copies go on as free commands, and a result
that has returned in a freeze is on its way to the area (R205, R211, R214, R412 to R415, R417, R419 to R421). The order of entries of
one due cycle is the model's choice (log 103), and so is the moment at which area and message are written (log 128). -/
def Sys2Proof.Claims.StopWrites : Prop :=
  ∀ (s : State) (c k m : Nat),
    let x := s.ctx c
    let core := coreOf c
    let part := s.partOf core
    let kind := max k m
    let rank := (List.range (faceOf core)).countP (s.owns part)
    let area := (s.part part).savebase + 0xA2000 * (64 * rank + 4 * (core % 16) + c % 4)
    x.run = .free ∨ x.run = .booked → x.stopReq = some m → kind ≠ 1 → x.stopping = none → x.sleep = .awake → x.undo = [] →
    (∀ l ∈ (s.pair (pairOf core)).queues, ∀ o ∈ l.2, o.core = core → o.ctx ≠ ctxOf c) → faceOf core < 32 →
    x.inflight.length + 2 * x.pending.length ≤ 128 → x.held.length ≤ 9 →
    ∃ (t u : State) (q : List InFlight) (ws : List Word), exec (.contextStop c k) s = .next t ∧
      q.Pairwise (fun a b => a.due ≤ b.due) ∧
      (∀ d, q.filter (fun i => i.due == d) = x.inflight.filter fun i => dumped i && i.due == d) ∧
      AreaWords s c kind q ws ∧
      -- the writes, in a state that differs from this one outside memory only
      u = { s with ctxs := u.ctxs, cores := u.cores, pairs := u.pairs, faces := u.faces, engines := u.engines, disps := u.disps
                   colls := u.colls, agenda := u.agenda } ∧
      (let tiles : List (Nat × List Byte) :=
        (List.range x.vcount).map (fun i => (area + 0x2000 + 0x1000 * i, imageOf ((s.core core).tile (x.base + i)))) ++
        (List.range 32).filterMap (fun i => let l := Tbl.look (s.core core).landing i {}
          if l.st = .landed ∧ l.owner = ctxOf c then some (area + 0x42000 + 0x1000 * i, imageOf l.lanes) else none) ++
        (q.filterMap fun i => match i.w with
          | .tile _ v => some v
          | _ => none).zipIdx.map (fun v => (area + 0x62000 + 0x1000 * v.2, imageOf v.1))
       let w := ((area, bytesOfWords ws) :: tiles).foldl (fun u w => (u.writeBytes (engineReq (domOf core) part) w.1 w.2).2) u
       t.mem = w.mem ∧ t.coats = w.coats ∧ t.lines = w.lines) ∧
      t.outbox = s.outbox ++ [(c, .message part false [BitVec.ofNat 64 (kind + if x.run = .booked then 2 ^ 28 else 0),
        s.srRead c 0x000, x.pc, 0, BitVec.ofNat 64 area, s.gtcWord, x.taskid, 0])] ∧
      (∀ b, x.bid = some b → (t.face (faceOf core)).requests =
        Asked (s.face (faceOf core)).requests (.release core b s.tick false)) ∧
      (∀ z ∈ x.pending, z.arrived = true → { due := s.cycle + 1, src := srcCore core, ev := .loadResult c z.id } ∈ t.agenda) ∧
      (∀ e, e / 4 = faceOf core → ∀ z ∈ (t.engine e).queue, 4 * z.core + z.ctx = c → z.bid = none)

/-- The start of a context from a save area: the checks in their order with their RUNSTAT values; from a FULL area with no plan the
registers, the vector registers, the results in flight and the held macro-ops as the area's bytes give them, from a START area
the state of R100, and the remainder of a plan as a booking (R100, R104, R140, R261, R420, R422 to R425). What an area must hold
beyond the limits of R419 to R421, and NOFIT for a plan that has become unreadable, are the model's choices (log 82). -/
def Sys2Proof.Claims.ResumeStarts : Prop :=
  ∀ (s u : State) (id c base : Nat) (r : Resume) (ws : List Word),
    let w (o : Nat) : Word := saveWord ws o
    let core := coreOf c
    let face := faceOf core
    let ends (v : State) (n : Nat) : Prop := ∃ t, exec (.resumeStart id) s = .next t ∧ Ended v t r n
    (s.resumes.find? (fun r => r.id == id) = none → exec (.resumeStart id) s = .next s) ∧
    (s.resumes.find? (fun r => r.id == id) = some r → s.resumeTarget r = some c →
    (r.stopped = true → (∀ b ∈ (s.face face).bookings, b.2.resume ≠ some r.id) → ends s 7) ∧
    (r.stopped = true → ∀ b ∈ (s.face face).bookings, b.2.resume = some r.id → ∃ t v, exec (.resumeStart id) s = .next t ∧
      Ended v t r 7 ∧ v = { s with faces := v.faces, cores := v.cores, disps := v.disps } ∧
      ∃ n, (s.face face).bookings.find? (fun b => b.2.resume == some r.id) = some n ∧
        Tbl.find (v.face face).bookings n.1 = none) ∧
    (r.stopped = false → r.booked = false → s.resumeWaits r = false → s.readSave r = (some ws, u) →
      let full : Prop := saveForm ws = 1
      (saveHeaderOk ws = false → ends u 5) ∧
      (r.target = none → u.ownerOf face ≠ some r.part → ends u 5) ∧
      (saveHeaderOk ws = true → (r.target = none → u.ownerOf face = some r.part) →
        (u.isIdle c = false → ends u 1) ∧
        (u.isIdle c = true → full → (w 0x208).toNat / 4 % 4 ≠ 0 → r.priv < 2 → ends u 6) ∧
        (u.isIdle c = true → (full → (w 0x208).toNat / 4 % 4 = 0 ∨ 2 ≤ r.priv) →
          (saveValuesOk ws c = false → ends u 5) ∧
          (saveValuesOk ws c = true → u.freeBase core (saveVcount ws) = none → ends u 2) ∧
          (saveValuesOk ws c = true → u.freeBase core (saveVcount ws) = some base →
            -- a START area
            (saveForm ws = 2 → ∃ t v, exec (.resumeStart id) s = .next t ∧ Ended v t r 0 ∧
              v = { u with ctxs := v.ctxs, cores := v.cores } ∧ (∀ k, k ≠ c → v.ctx k = u.ctx k) ∧
              (let x := v.ctx c
               x.run = .free ∧ x.priv = 0 ∧ x.pc = w 0x20 ∧ x.base = base ∧ x.vcount = saveVcount ws ∧ x.rot = saveRot ws ∧
               (∀ i : BitVec 5, x.sreg i = if i = 1 then w 0x108 else 0) ∧ (∀ i : BitVec 4, x.preg i = (i == 0)) ∧
               x.lc = 0 ∧ x.ec = 0 ∧ x.taskid = 0 ∧ x.inst = 0 ∧ x.tcause = 0 ∧ s.cycle < x.ready ∧
               ∀ i, i < saveVcount ws → ∀ j, lane ((v.core core).tile (base + i)) j = 0)) ∧
            (full → savePlan ws = 0 → ∃ t v, exec (.resumeStart id) s = .next t ∧ Ended v t r 0 ∧
              v = (u.restore r ws c base (u.firstFree core) none).rejoin c ∧
              (let x := v.ctx c
               x.run = .free ∧ x.pc = w 0x20 ∧ x.base = base ∧ x.vcount = saveVcount ws ∧ x.rot = saveRot ws ∧
               (∀ i : BitVec 5, x.sreg i = if i = 0 then 0 else w (0x100 + 8 * i.toNat)) ∧
               (∀ i : BitVec 4, x.preg i = (i == 0 || (w 0x200).getLsbD i.toNat)) ∧
               x.lc = w 0x220 ∧ x.ec = w 0x228 ∧ x.taskid = w 0x240 ∧ x.inst = w 0x248 ∧ x.tags = w 0x250 ||| w 0x40 ∧
               x.tcause = w 0x260 ∧ x.tpc = w 0x268 ∧ x.taddr = w 0x270 ∧ x.slack = 0 ∧ x.bid = none ∧
               (∀ j, j < 32 → Tbl.look x.aw j 0 &&& awMask j = Tbl.look x.aw j 0 ∧
                 (w (0x300 + 8 * j) &&& awMask j = w (0x300 + 8 * j) → Tbl.look x.aw j 0 = w (0x300 + 8 * j))) ∧
               x.held.length = (w 0x410).toNat ∧
               s.cycle + (w 0x30).toNat % 256 < x.ready ∧
               -- results in flight: scalars, predicates and special registers
               (∀ es, saveDump ws = some es → ∀ e : Nat × Word × Nat × Word, e ∈ es →
                 let due := u.firstFree core + e.1 / 2 ^ 16 % 256
                 let n := e.1 / 2 ^ 8 % 64
                 (e.1 % 256 = 1 → ∃ f ∈ x.inflight, f.due = due ∧ f.w = .scalar n e.2.1) ∧
                 (e.1 % 256 = 2 → ∃ f ∈ x.inflight, f.due = due ∧ f.w = .pred n (e.2.1.getLsbD 0)) ∧
                 (e.1 % 256 = 5 → ∃ f ∈ x.inflight, f.due = due ∧ f.w = .sreg (e.1 / 2 ^ 44 % 4096) e.2.1) ∧
                 (e.1 % 256 = 9 → ∃ f ∈ x.inflight, f.due = due ∧ f.w = .loopShift (e.2.1.getLsbD 0)))) ∧
              -- the vector registers, read after the dumped tiles
              (∀ ds v1 ts v2, u.readTiles r ((dumpTiles ws).map fun n => 0x62000 + 0x1000 * n) = (ds, v1) →
                v1.readTiles r ((List.range (saveVcount ws)).map fun i => 0x2000 + 0x1000 * i) = (ts, v2) →
                ∀ i tile, ts[i]? = some tile → (v.core core).tile (base + i) = tile)) ∧
            -- a plan: its remainder is readmitted, or refused
            (full → savePlan ws ≠ 0 → ∀ y,
              (u.readPlan (saveReq r) (savePlan ws) = (none, y) → ends y 4) ∧
              (∀ pl, u.readPlan (saveReq r) (savePlan ws) = (some pl, y) → pl.good = true →
                let rest := pl.remainder (saveOffset ws) ((w 0x810).toNat % 2 ^ 32)
                ((∀ e ∈ rest.entries, entClass e ≠ 0) → ends y 8) ∧
                ((∃ e ∈ rest.entries, entClass e = 0) → y.halfFree core = false → ends y 3) ∧
                ((∃ e ∈ rest.entries, entClass e = 0) → y.halfFree core = true → y.findStart rest face [core] = none →
                  ends y 4) ∧
                (∀ b n, (∃ e ∈ rest.entries, entClass e = 0) → y.halfFree core = true → (y.face face).freeBid = some b →
                  y.findStart rest face [core] = some (n, core) → ∃ t z, exec (.resumeStart id) s = .next t ∧
                    Tbl.find (t.face face).bookings b = some z ∧ z.start = n ∧ z.rows = rest.uses core n (y.lease core) ∧
                    z.ctx = some c ∧ z.resume = some r.id ∧ z.vbase = base ∧ z.vcnt = saveVcount ws ∧
                    (t.ctx c).run = .halted ∧ ∀ q ∈ t.resumes, q.id = id → q.booked = true))))))))

/-- How a context stops between its bundles, what its stop writes, and how it starts from a save area. -/
def Obligations.StopsAndStarts : Prop :=
  Sys2Proof.Claims.StopsOfContexts ∧
  Sys2Proof.Claims.StopWrites ∧
  Sys2Proof.Claims.ResumeStarts

/-- The overruns of a booked task: past its last core-issue tick, with an engine step that finds no owned start, which waits for
the trap, and with no slack left for a bundle that is late, where PAD traps, and SLIP freezes the pair and asks the controller for a
slip test (R112, R205, R211, R213, R215). That ISSUEEND has TSLOT 0 and the current tick is the model's choice (log 41), and so is
TSLOT of PADSLACK (log 12). -/
def Sys2Proof.Claims.Overruns : Prop :=
  ∀ (s : State) (c n slot row : Nat) (b : Booking),
    let x := s.ctx c
    let f := faceOf (coreOf c)
    let tick : Word := BitVec.ofNat 64 s.tick
    x.run = .booked → x.bid = some n → Tbl.find (s.face f).bookings n = some b →
    ((∀ u ∈ b.rows, u.row = rowCore b.core → u.first + u.len ≤ s.tick) →
      ∃ t, exec (.issueend c) s = .next t ∧ Trapped s t c 0x10 1 tick 0 ∧ OnlyCtx s t c ∧
        (t.face f).overruns = min ((s.face f).overruns + 1) (2 ^ 32 - 1)) ∧
    (x.slack = 0 → x.lateAt = some s.cycle → (s.pair (pairOf (coreOf c))).freeze = none →
      (b.slip = false → ∃ t, exec (.slackExhausted c) s = .next t ∧ Trapped s t c 0x10 3 tick x.heldSlot ∧
        OnlyCtx s t c) ∧
      (b.slip = true → exec (.slackExhausted c) s = .next
        ((s.onPair (pairOf (coreOf c)) fun y => { y with freeze := some { start := s.cycle, c := c, k := 0 } }).onFace
          (pairOf (coreOf c) / 8) fun y => { y with requests := Asked y.requests (.slip c (pairOf (coreOf c))) }))) ∧
    ((∀ v ∈ x.late, v.fell < s.cycle ∨ (v.fell = s.cycle ∧ v.issued ≤ s.cycle)) →
      ∃ t, exec (.unbooked c slot row) s = .next t ∧
        t.ctx c = { x with late := x.late ++
          [{ code := 0x10, addr := BitVec.ofNat 64 row, slot := slot, issued := s.cycle, fell := s.cycle }] } ∧
        (∀ k, k ≠ c → t.ctx k = s.ctx k) ∧ t.mem = s.mem ∧
        (∀ p q, ((t.pair p).queue q).map (fun o => { o with stuck := false }) =
          ((s.pair p).queue q).map fun o => { o with stuck := false }) ∧
        (slot = 5 → ∀ o, ((s.pair (pairOf (coreOf c))).queue (2 * (coreOf c % 2) + 1)).head? = some o → o.core = coreOf c →
          o.ctx = ctxOf c →
          ((t.pair (pairOf (coreOf c))).queue (2 * (coreOf c % 2) + 1)).head? = some { o with stuck := true }) ∧
        (∀ e, (t.engine e).queue = (s.engine e).queue.map fun z =>
          if slot ≠ 5 ∧ e / 4 = f ∧ 4 * z.core + z.ctx = c ∧ z.bid.isSome then { z with stuck := true } else z))

/-- The controller's slip test of a frozen pair: it passes where each booking of the task from the freeze's tick on can move
by one tick more and the pair's rows are free or the task's own, and then they move; otherwise the task traps with SLIPFAIL
and the pair runs again. A freeze that ends is counted (R214, R215). That the booking's start moves with its ticks is the model's
reading (log 42). -/
def Sys2Proof.Claims.SlipTests : Prop :=
  ∀ (s : State) (p n : Nat) (z : Freeze) (b : Booking),
    let f := s.face (p / 8)
    let T := z.start / 32
    let own (row t : Nat) : Prop := f.owner row t = .free ∨ f.owner row t = .bid n
    let passes : Prop := (∀ u ∈ b.rows, T + z.k < u.first + u.len → own u.row (u.first + u.len)) ∧
      ∀ r ∈ pairRows p, ∀ i, i ≤ z.k → own r (T + i)
    (s.pair p).freeze = some z → s.cycle = z.start + 32 * z.k →
    ((s.ctx z.c).run = .booked → (s.ctx z.c).bid = some n → Tbl.find f.bookings n = some b →
      (passes → ∃ t y, exec (.slipTest p) s = .next t ∧ (t.pair p).freeze = some { z with k := z.k + 1 } ∧
        Tbl.find (t.face (p / 8)).bookings n = some y ∧ y.start = b.start + 1 ∧
        (∀ row u, (∃ x ∈ y.rows, x.covers row u = true) ↔
          if u < T + z.k then ∃ x ∈ b.rows, x.covers row u = true
          else T + z.k < u ∧ ∃ x ∈ b.rows, x.covers row (u - 1) = true) ∧
        t.ctxs = s.ctxs ∧ t.mem = s.mem) ∧
      (¬ passes → ∃ t, exec (.slipTest p) s = .next t ∧ (t.pair p).freeze = none ∧
        Trapped s t z.c 0x10 2 (BitVec.ofNat 64 s.tick) (s.ctx z.c).heldSlot)) ∧
    (z.k ≠ 0 → ∃ t, exec (.thaw p) s = .next t ∧ (t.pair p).freeze = none ∧
      (t.face (p / 8)).slips = min (f.slips + 1) (2 ^ 32 - 1) ∧
      (t.face (p / 8)).slipTicks = min (f.slipTicks + z.k) (2 ^ 32 - 1))

/-- What happens to a booked task that is late. -/
def Obligations.OverrunsAndSlip : Prop :=
  Sys2Proof.Claims.Overruns ∧
  Sys2Proof.Claims.SlipTests

/-- The controller answers its oldest request: BOOK gets the earliest start tick at which every tick that its plan needs is
FREE and books it there, or its status; CALQ gets the same answer and books nothing; a FREE context's WSWAP is accepted
where both weight-bank rows are FREE at its tick, which become CTL; a release that a core has asked for is made, and a slip
test takes its turn (R204, R205, R206, R207, R208, R214, R253). The model's choices: a booking takes the lowest free id (log 143), BUFFER says
that neither half is free of one core's code (log 20), and a WSWAP whose context no longer waits is dropped (log 112). -/
def Sys2Proof.Claims.Admission : Prop :=
  ∀ (s : State) (f c : Nat) (rest : List CalReq),
    let x := s.ctx c
    let core := coreOf c
    let u := s.onFace f fun y => { y with requests := rest }
    let answers (p : Option Plan) (v : Word) : Prop :=
      (p = none ∨ (∃ q, p = some q ∧ q.good = false)) ∧ v = BitVec.ofInt 64 (-2) ∨
      ∃ q, p = some q ∧ q.good = true ∧
        ((∀ b, b < 64 → Tbl.find (s.face f).bookings b ≠ none) ∧ v = BitVec.ofInt 64 (-4) ∨
         (∃ b, b < 64 ∧ Tbl.find (s.face f).bookings b = none) ∧ s.halfFree core = false ∧ v = BitVec.ofInt 64 (-5) ∨
         (∃ b, b < 64 ∧ Tbl.find (s.face f).bookings b = none) ∧ s.halfFree core = true ∧
          (∀ t, s.tick + q.lead ≤ t → t + q.total ≤ s.tick + 8192 →
            (s.face f).admits (q.uses core t (s.lease core)) q.ratio = false) ∧
          (let ratioOnly : Prop := ∃ t, s.tick + q.lead ≤ t ∧ t + q.total ≤ s.tick + 8192 ∧
            (s.face f).fitsButRatio (q.uses core t (s.lease core)) = true
           ratioOnly ∧ v = BitVec.ofInt 64 (-6) ∨ ¬ ratioOnly ∧ v = BitVec.ofInt 64 (-1)))
    let starts (q : Plan) (t : Nat) : Prop :=
      q.good = true ∧ s.halfFree core = true ∧ (∃ b, b < 64 ∧ Tbl.find (s.face f).bookings b = none) ∧
      s.tick + q.lead ≤ t ∧ t + q.total ≤ s.tick + 8192 ∧
      (s.face f).admits (q.uses core t (s.lease core)) q.ratio = true ∧
      ∀ t', s.tick + q.lead ≤ t' → t' < t → (s.face f).admits (q.uses core t' (s.lease core)) q.ratio = false
    faceOf core = f →
    (∀ p ia d, (s.face f).requests = .book c p ia :: rest → x.sleep.book = some (d, 0) →
      (∀ v, answers p v → exec (.admission f) s = .next (u.onCtx c fun y =>
        { (y.setS d v) with sleep := { y.sleep with book := none } })) ∧
      (∀ q t, p = some q → starts q t → ∃ z b y, exec (.admission f) s = .next z ∧
        z.ctx c = { (x.setS d (BitVec.ofNat 64 t)) with sleep := { x.sleep with book := some (d, t) }, bid := some b, fetched := [] } ∧
        b < 64 ∧ Tbl.find (s.face f).bookings b = none ∧ (∀ j, j < b → Tbl.find (s.face f).bookings j ≠ none) ∧
        Tbl.find (z.face f).bookings b = some y ∧ y.start = t ∧ y.ctx = some c ∧ y.started = false ∧
        y.slack = q.slack ∧ y.slip = (q.policy == 1) ∧ y.rows = q.uses core t (s.lease core) ∧
        (∀ j, j ≠ b → Tbl.find (z.face f).bookings j = Tbl.find (s.face f).bookings j) ∧
        (z.core core).ibuf.map (fun h => (h.bid, h.base, h.size)) =
          (s.core core).ibuf.map (fun h => (h.bid, h.base, h.size)) ++ [(b, x.pc, q.code)])) ∧
    -- the BOOK of a context that has stopped meanwhile: it books nothing, and its status goes to the save area
    (∀ id p, (s.face f).requests = .bookSaved c id p :: rest → ∃ z, exec (.admission f) s = .next z ∧ z.faces = u.faces ∧
      z.cores = s.cores ∧ (z.ctx c).pending.map Pending.id = x.pending.map Pending.id ∧
      ∀ m ∈ (z.ctx c).pending, m.id = id → answers p m.value ∨ ∃ q t, p = some q ∧ starts q t ∧
        m.value = BitVec.ofInt 64 (-1)) ∧
    (∀ id p, (s.face f).requests = .calq c id p :: rest → ∃ z, exec (.admission f) s = .next z ∧ z.faces = u.faces ∧
      z.cores = s.cores ∧ (z.ctx c).pending.map Pending.id = x.pending.map Pending.id ∧
      ∀ m ∈ (z.ctx c).pending, m.id = id → answers p m.value ∨ ∃ q t, p = some q ∧ starts q t ∧
        m.value = BitVec.ofNat 64 t) ∧
    (∀ t e g, (s.face f).requests = .wswap c t e g :: rest → x.sleep.swap = some none → ∃ z, exec (.admission f) s = .next z ∧
      let rows := [0x120 + 2 * (pairOf core % 8), 0x121 + 2 * (pairOf core % 8)]
      let ok : Prop := (∀ r ∈ rows, (s.face f).owner r t = .free) ∧ (s.pair (pairOf core)).swap = none ∧ s.tick < t
      (ok → (z.ctx c).sleep = { x.sleep with swap := some (some true) } ∧ (∀ r ∈ rows, (z.face f).owner r t = .ctl) ∧
        (z.pair (pairOf core)).swap = some { tick := t, core := core, flagEn := e, flag := g }) ∧
      (¬ ok → (z.ctx c).sleep = { x.sleep with swap := some (some false) } ∧ (z.face f).ctl = (s.face f).ctl ∧
        z.pairs = s.pairs)) ∧
    (∀ k b t h, (s.face f).requests = .release k b t h :: rest → exec (.admission f) s = .next (u.release f b t h)) ∧
    (∀ k p, (s.face f).requests = .slip k p :: rest → exec (.admission f) s = .next (u.then (.slipTest p)))

/-- Admission needs every tick of every row that the plan uses to be FREE (R204). -/
def Sys2Proof.Claims.FitsNeedsFreeTicks : Prop :=
  ∀ (f : Face) (us : List RowUse) (ratio : Nat), f.admits us ratio = true →
    ∀ u ∈ us, ∀ t, u.first ≤ t → t < u.first + u.len → f.owner u.row t = .free

/-- BOOK, CALQ and WSWAP at the controller. -/
def Obligations.CalendarAdmission : Prop :=
  Sys2Proof.Claims.Admission ∧
  Sys2Proof.Claims.FitsNeedsFreeTicks

/-- The first cycle of a tick: refresh is written 8,191 ticks ahead, plans whose ticks are over leave, plans not started move
only earlier, and started ones stay. At its start tick a plan's context becomes BOOKED with its slack; an instance starts
with the values of its TCB, and a readmitted remainder with those of its save area, at its place in the tick (R111, R199, R204,
R218, R220, R368, R425). -/
def Sys2Proof.Claims.TickEvents : Prop :=
  ∀ (s : State) (f n c : Nat) (b : Booking),
    let x := s.face f
    (s.cycle % 32 = 0 → x.bookings.Pairwise (fun a b => a.1 < b.1) → ∃ t, exec (.tickStart f) s = .next t ∧
      (t.face f).refreshed = max x.refreshed (s.tick + 8191) ∧
      (∀ p r, p < 8 → x.dblref.getLsbD p = true → (s.tick + 8191) % 64 = (8 * p + 32) % 64 →
        r = 0x120 + 2 * p ∨ r = 0x121 + 2 * p → (t.face f).owner r (s.tick + 8191) = .ctl) ∧
      (∀ i y, Tbl.find (t.face f).bookings i = some y → ∃ z, Tbl.find x.bookings i = some z ∧
        (∃ u ∈ z.rows, s.tick < u.first + u.len) ∧ y.start ≤ z.start ∧ (z.started = true → y = z)) ∧
      (∀ i z, Tbl.find x.bookings i = some z → (∃ u ∈ z.rows, s.tick < u.first + u.len) →
        Tbl.find (t.face f).bookings i ≠ none) ∧
      t.mem = s.mem ∧ t.ctxs = s.ctxs) ∧
    (Tbl.find x.bookings n = some b → b.started = false → 32 * b.start ≤ s.cycle → b.ctx = some c →
      (b.task = none → b.resume = none → exec (.taskStart f n) s = .next
        ((s.onFace f fun y => { y with bookings := Tbl.put y.bookings n { b with started := true } }).onCtx c fun y =>
          { y with run := .booked, bid := some n, slack := b.slack, paid := 0, sleep := { y.sleep with book := none }
                   fetched := [], fetchMiss := none })) ∧
      (∀ d q i u, b.task = some (d, q, i) → s.findTask d q = some u → ∃ t, exec (.taskStart f n) s = .next t ∧
        let y := t.ctx c
        let w (k : Nat) : Nat := (wordAt u.tcb k).toNat
        y.run = .booked ∧ y.bid = some n ∧ y.slack = b.slack ∧ y.pc = wordAt u.tcb 0 ∧ y.base = b.vbase ∧
        y.vcount = 16 * (w 4 / 2 ^ 48 % 16) ∧ y.rot = 8 * (w 4 / 2 ^ 52 % 16) ∧ y.priv = 0 ∧
        y.taskid = BitVec.ofNat 64 u.slot ∧ y.sreg 1 = u.va ∧ (∀ j, 1 < j → y.sreg j = 0) ∧
        y.inst = BitVec.ofNat 64 (i % (w 4 % 2 ^ 16) + 2 ^ 16 * (i / (w 4 % 2 ^ 16) % (w 4 / 2 ^ 16 % 2 ^ 16)) +
          2 ^ 32 * (i / (w 4 % 2 ^ 16 * (w 4 / 2 ^ 16 % 2 ^ 16))))) ∧
      (∀ id r ws v, b.task = none → b.resume = some id → s.resumes.find? (fun r => r.id == id) = some r →
        (s.onFace f fun y => { y with bookings := Tbl.put y.bookings n { b with started := true } }).readSave r = (some ws, v) →
        ∃ t, exec (.taskStart f n) s = .next t ∧
          let y := t.ctx c
          y.run = .booked ∧ y.bid = some n ∧ y.base = b.vbase ∧ y.vcount = saveVcount ws ∧ y.pc = saveWord ws 0x20 ∧
          y.slack = (saveWord ws 0x810).toNat % 2 ^ 32 ∧
          y.ready = 32 * b.start + (saveWord ws 0x808).toNat / 2 ^ 16 % 2 ^ 5 + (saveDelay ws)))

/-- A change of the weight layer's ratio waits for two ticks that are FREE on both rows, which it books as CTL, and is made at
the first cycle of the second, and tasks that found no place are tried again; a thermal allowance is at most 64 (R221, R222,
R224, R366). The model's choice: the change completes, and PEND clears, in that cycle (log 125). -/
def Sys2Proof.Claims.RatioAndAllowance : Prop :=
  ∀ (s : State) (f p b : Nat) (v : Word),
    let x := s.face f
    let rows := [0x120 + 2 * (p % 8), 0x121 + 2 * (p % 8)]
    let bit : BitVec 8 := BitVec.ofNat 8 (2 ^ p)
    let clear (t : Nat) : Prop := s.tick + 2 ≤ t ∧ t < s.tick + 8191 ∧
      (∀ z ∈ x.bookings, ∀ u ∈ z.2.rows, u.row ∈ rows → u.first + u.len ≤ t) ∧
      ∀ r ∈ rows, x.owner r t = .free ∧ x.owner r (t + 1) = .free
    (x.ratioReq.getLsbD p ≠ x.ratio.getLsbD p → x.ratioPend.getLsbD p = false → clear b → (∀ t, t < b → ¬ clear t) →
      exec (.wratioChange f p) s = .next (((s.onFace f fun x =>
        { x with ctl := x.ctl ++ rows.flatMap fun r => [(r, b), (r, b + 1)]
                 ratioPend := x.ratioPend ||| bit
                 ratioTick := Tbl.put x.ratioTick p b }).unblock (f / 4)).schedule (32 * (b + 1)) (srcCal f)
          (.ratioSwitch f p))) ∧
    (Tbl.find x.ratioTick p = some b → 32 * (b + 1) ≤ s.cycle → ∃ t, exec (.ratioSwitch f p) s = .next t ∧
      (t.face f).ratio = x.ratio ^^^ bit ∧ (t.face f).ratioPend = x.ratioPend &&& ~~~bit ∧
      Tbl.find (t.face f).ratioTick p = none ∧ (t.face f).bookings = x.bookings ∧ t.mem = s.mem) ∧
    (∃ t, exec (.tallowWrite p v) s = .next t ∧ (t.face (p / 8)).allow (p % 8) = min 64 (v.toNat % 128) ∧
      (∀ q, q ≠ p % 8 → (t.face (p / 8)).allow q = (s.face (p / 8)).allow q) ∧
      (t.face (p / 8)).bookings = (s.face (p / 8)).bookings ∧ t.mem = s.mem ∧ t.ctxs = s.ctxs)

/-- What the controller does as time passes. -/
def Obligations.CalendarEvents : Prop :=
  Sys2Proof.Claims.TickEvents ∧
  Sys2Proof.Claims.RatioAndAllowance

/-- A chunk of a copy starts where its rows and ports let it: of a plain copy up to 24 blocks with their coats, in the order of the
destination, and of a TRANSPOSE each element of a source column to its place in a destination row; it leaves its writes in the
engine, from eight cycles later on where it stays in the face's banks, or ends the copy where memory would refuse it. A free
command that its rows keep back is parked (R210, R258, R259, R263, R266, R278). The model's choices: the chunk reads as it starts,
and its writes that leave the face's banks fall due later (log 55); 24 blocks are the limit of each side (log 116). -/
def Sys2Proof.Claims.ChunksStart : Prop :=
  ∀ (s : State) (e : Nat) (c : CopyCmd) (k : Chunk),
    let per := c.rowb / 64
    let n := k.len (c.isLocal e k)
    let ia (src : Bool) (u : Nat) : Nat := c.ia src (c.rowVa src (u / per) + 64 * (u % per))
    let quiet : Prop := ∀ z ∈ (s.engine e).queue, ∀ w ∈ z.out, s.cycle < w.due
    let starts : Prop := s.chunkMay e c k = true ∧ s.chunkPortsFree e c k = true
    s.chunkReady e = some (c, k) → c.kind = .cpy ∨ c.kind = .cpysl → quiet →
    (starts → (∀ x ∈ k.rows, s.rowStop e c x.1 x.2 = none) → c.xop ≠ 5 →
      ∀ bs u, s.readCopy c k.reads = (.ok bs, u) → u.writeStop c (c.afterUnits k bs).2 = none →
      ∃ t, exec (.copyChunk e) s = .next t ∧ (t.engine e).free = s.cycle + n ∧ (t.engine e).bytes = (s.engine e).bytes ∧
        (∀ z ∈ (t.engine e).queue, z.id = c.id → z.started = true ∧ z.chunks = c.chunks + 1 ∧ z.ends = [s.cycle + n] ∧
          z.done = c.done + k.units.length ∧ z.out.take c.out.length = c.out ∧
          (z.out.drop c.out.length).map (fun w => (w.va, w.mask, w.data, w.coat)) =
            (c.afterUnits k bs).2.map (fun x => (x.va, x.w.mask, x.w.data, x.w.coat)) ∧
          ∀ w ∈ z.out.drop c.out.length, w.chunk = c.chunks ∧ s.cycle + 8 ≤ w.due) ∧ t.ctxs = s.ctxs) ∧
    (starts → c.xop = 0 → c.buf = [] → (∀ x ∈ k.rows, s.rowStop e c x.1 x.2 = none) →
      (∀ u ∈ k.units, 9 ≤ iaRegion (ia true u) ∧ iaRegion (ia true u) ≤ 0xB ∧ 9 ≤ iaRegion (ia false u) ∧
        (iaRegion (ia false u) ≤ 0xA ∨ (iaRegion (ia false u) = 0xB ∧
          ((s.pair (ia false u / 2 ^ 25 % 2 ^ 8)).active = true ↔ ia false u / 2 ^ 24 % 2 = 0)))) →
      ∃ t, exec (.copyChunk e) s = .next t ∧
        k.units = (List.range (min 24 (c.rows * per - c.done))).map (c.done + ·) ∧
        (∀ z ∈ (t.engine e).queue, z.id = c.id → ∀ i u, k.units[i]? = some u →
          ∃ w, z.out[c.out.length + i]? = some w ∧ w.chunk = c.chunks ∧
            w.va = c.rowVa false (u / per) + 64 * (u % per) ∧ w.len = 64 ∧ w.mask = 2 ^ 512 - 1 ∧
            w.data = (blockIn s (devicePlace (ia true u))).data ∧ w.coat = some (blockIn s (devicePlace (ia true u))).coat ∧
            (c.isLocal e k = true → w.near = true ∧ w.due = s.cycle + 8 + i)) ∧
        t.mem = s.mem ∧ t.coats = s.coats) ∧
    (starts → ∀ x st, k.rows.find? (fun x => (s.rowStop e c x.1 x.2).isSome) = some x → s.rowStop e c x.1 x.2 = some st →
      ∃ t, exec (.copyChunk e) s = .next t ∧ t.mem = s.mem ∧ t.coats = s.coats ∧
        ∀ z ∈ (t.engine e).queue, z.id = c.id → z.stop = some st ∧ z.finished = true) ∧
    (s.chunkMay e c k = false → s.copyBid c = none → c.parked = false → ∃ t, exec (.copyChunk e) s = .next t ∧
      (t.engine e).parks = min ((s.engine e).parks + 1) (2 ^ 32 - 1) ∧ t.mem = s.mem ∧ t.coats = s.coats ∧
      (∀ z ∈ (t.engine e).queue, z.id = c.id → z.parked = true) ∧
      (t.engine e).queue.map CopyCmd.id = (s.engine e).queue.map CopyCmd.id) ∧
    -- TRANSPOSE: element k of destination row r is element r of source row k
    (c.xop = 2 → ∀ bs r j, c.dstVal bs r j = c.srcVal bs j r) ∧
    (c.xop = 1 → ∀ bs r j, c.dstVal bs r j = c.srcVal bs r j)

/-- A write that waits in an engine is made once it is due and its row takes it: the block is written and its bytes are counted;
one that memory refuses stops the copy, and the later ones are not made. A half of a weight bank is written while it is not the
active one, and refused once it is (R251, R258, R278, R282). The model's choice: a write waits in the engine until then (log 55). -/
def Sys2Proof.Claims.CopyWritesLand : Prop :=
  ∀ (s u : State) (e : Nat) (c : CopyCmd) (w : OutWrite) (pre post : List CopyCmd) (a b : List OutWrite),
    let ia := c.ia false w.va
    (s.engine e).queue = pre ++ c :: post → c.out = a ++ w :: b → (∀ z ∈ pre ++ post, z.id ≠ c.id) → w ∉ a →
    (∀ z ∈ pre ++ post, ∀ v ∈ z.out, s.cycle < v.due) → (∀ v ∈ a ++ b, s.cycle < v.due) →
    s.outMay e c w = true → s.cycle < (s.engine e).free →
    (s.iaWrite (s.copyReq c false) ia { mask := w.mask, data := w.data, coat := w.coat } = (none, u) →
      ∃ t, exec (.copyChunk e) s = .next t ∧ t.mem = u.mem ∧ t.coats = u.coats ∧ t.lines = u.lines ∧ t.ctxs = u.ctxs ∧
        (t.engine e).bytes = ((s.engine e).bytes + w.len) % 2 ^ 48 ∧
        (t.engine e).queue = pre ++ { c with out := a ++ b, poisoned := c.poisoned || w.bad } :: post) ∧
    (∀ code, s.iaWrite (s.copyReq c false) ia { mask := w.mask, data := w.data, coat := w.coat } = (some code, u) →
      ∃ t, exec (.copyChunk e) s = .next t ∧ t.mem = u.mem ∧ t.coats = u.coats ∧ (t.engine e).bytes = (s.engine e).bytes ∧
        ∀ z ∈ (t.engine e).queue, z.id = c.id → z.stop = some (if code = 0x0A then 3 else 1) ∧ z.finished = true ∧
          ∀ v ∈ z.out, v.chunk < w.chunk) ∧
    -- a weight bank
    (iaRegion ia = 0xB → let p := ia / 2 ^ 25 % 2 ^ 8
      (((s.pair p).active = true ↔ ia / 2 ^ 24 % 2 = 0) → ∃ t, exec (.copyChunk e) s = .next t ∧
        BlockPut s t (devicePlace ia) (devicePlace ia) { mask := w.mask, data := w.data, coat := w.coat }) ∧
      (((s.pair p).active = true ↔ ia / 2 ^ 24 % 2 = 1) → ∃ t, exec (.copyChunk e) s = .next t ∧ t.mem = s.mem ∧
        ∀ z ∈ (t.engine e).queue, z.id = c.id → z.stop = some 1))

/-- A whole zero-elided stream: the header's counts, then a block for each bit of the maps, which is the next payload block with
the header's code where the bit is 1 and zeros where it is 0 (R268, R269). -/
def Sys2Proof.Claims.ExpandStreams : Prop :=
  ∀ (h : BlockVal) (maps pays : List BlockVal),
    let n := h.data % 2 ^ 64
    let code := h.data / 2 ^ 64 % 256
    let bit (d : Nat) : Bool := (maps[d / 512]?).any fun m => m.data.testBit (d % 512)
    let rank (d : Nat) : Nat := (List.range d).countP bit
    let x := expandStream (h :: (maps ++ pays))
    coatCode h.coat = 0x40 → maps.length = (n + 511) / 512 → (∀ m ∈ maps, coatCode m.coat = 0x41) →
    (∀ b ∈ pays, coatCode b.coat = 0x42) → pays.length = rank n →
    x.nblk = n ∧ x.d = n ∧ x.blocks.length = n ∧
    ∀ d, d < n → x.blocks[d]? = some (
      if bit d = true then
        let b := pays.getD (rank d) { data := 0, coat := 0 }
        { data := b.data, coat := mkCoat (coatE b.coat) code }
      else { data := 0, coat := mkCoat (-128) code })

/-- How a copy is carried out. -/
def Obligations.CopyChunks : Prop :=
  Sys2Proof.Claims.ChunksStart ∧
  Sys2Proof.Claims.CopyWritesLand ∧
  Sys2Proof.Claims.ExpandStreams

/-- A copy completes: its tag's bit is set in the context that issued it and in no other, its status goes to TSTAT, and the
tag is free (R260, R274, R278, R282). The model's choice: a status that has stopped the copy wins over CANCELLED (log 57). -/
def Sys2Proof.Claims.CopyCompletes : Prop :=
  ∀ (s : State) (e id : Nat) (c : CopyCmd), (s.engine e).queue.find? (fun z => z.id == id && s.copyOver z) = some c →
    let owner := 4 * c.core + c.ctx
    let st := match c.stop with
      | some v => v
      | none => if c.cancelled then 6 else if c.mismatch then 4 else if c.poisoned then 5 else 0
    ∃ t, exec (.copyComplete e id) s = .next t ∧
      t.ctx owner = { s.ctx owner with tags := (s.ctx owner).tags ||| BitVec.ofNat 64 (2 ^ c.tag) } ∧
      (∀ k, k ≠ owner → t.ctx k = s.ctx k) ∧ Tbl.look (t.core c.core).tstat c.tag 0 = BitVec.ofNat 8 st ∧
      (Tbl.look (t.core c.core).tags c.tag {}).busy = false ∧
      (t.engine e).queue = (s.engine e).queue.filter (fun z => z.id != c.id) ∧
      (t.engine e).errs = (if st = 0 ∨ st = 6 then (s.engine e).errs else min ((s.engine e).errs + 1) (2 ^ 32 - 1)) ∧
      t.mem = s.mem ∧ t.coats = s.coats

/-- A multicast writes one beat of 128 bytes with its coats to every target pair in each cycle of its tick, or, where its rows
are not its own or its source has not been read, nothing with status LATE (R272). The model's choice: the source must have been
read by that tick (log 56). -/
def Sys2Proof.Claims.Multicast : Prop :=
  ∀ (s : State) (e id : Nat) (c : CopyCmd) (w : Window),
    let lt := (c.g 6).toNat / 65536
    let b := s.cycle - 32 * lt
    let off := w.toIa (c.g 1).toNat % 2 ^ 21
    let inMask (p : Nat) : Prop := p / 8 = faceOf c.core ∧ (c.g 6).toNat.testBit (p % 8) = true
    let ready : Prop := s.landAllowed e c off = true ∧ 64 * c.source.length = c.rowb ∧ ∀ x ∈ c.ends, x ≤ s.cycle
    let block (i : Nat) : BlockVal :=
      let x := c.source.getD (2 * b + i) (0, 0)
      { data := x.1 % 2 ^ 512, coat := x.2 }
    (s.engine e).queue.find? (fun z => z.id == id && z.kind == .cpymc) = some c → c.win false = some w →
    c.cancelled = false → c.finished = false → 32 * lt ≤ s.cycle → off % 64 = 0 → off + c.rowb ≤ 2 ^ 21 →
    128 * (b + 1) ≤ c.rowb → (b ≠ 0 → c.started = true) →
    ((b ≠ 0 ∨ ready) → ∃ t, exec (.cpymcWrite e id) s = .next t ∧
      (∀ p i, inMask p → i < 2 → t.blockAt (scratchPlace p (off + 128 * b + 64 * i)) = block i) ∧
      (∀ q, q % 64 = 0 → (∀ p i, inMask p → i < 2 → q ≠ scratchPlace p (off + 128 * b + 64 * i)) →
        t.blockAt q = s.blockAt q) ∧
      (128 * (b + 1) < c.rowb →
        { due := s.cycle + 1, src := srcCopy e, ev := .cpymcWrite e id } ∈ t.agenda) ∧
      (128 * (b + 1) = c.rowb → ∀ z ∈ (t.engine e).queue, z.id = c.id → z.finished = true) ∧ t.ctxs = s.ctxs) ∧
    (b = 0 → ¬ ready → ∃ t, exec (.cpymcWrite e id) s = .next t ∧ t.mem = s.mem ∧ t.coats = s.coats ∧
      ∀ z ∈ (t.engine e).queue, z.id = c.id → z.stop = some 7 ∧ z.finished = true)

/-- How a copy ends and how a multicast writes. -/
def Obligations.CopiesEnd : Prop :=
  Sys2Proof.Claims.CopyCompletes ∧
  Sys2Proof.Claims.Multicast

/-- The port takes the oldest handle command. A fetch of an idle handle takes the next SEQ and makes it PENDING with its
descriptor's range, or ends it in ERROR; one of a handle in use raises REQ and PRIO; a drop makes the handle IDLE, after the
card in progress if there is one; a WHSTAT is given word 0 (R309, R310, R312, R313, R316, R318, R319). A descriptor is
BADDESC for the reasons of R310, which are listed; the model's choices: both destinations are checked, and the reserved bits of
all eight extents (log 61), and the first SEQ is 1 (log 63). -/
def Obligations.HandleCommands : Prop :=
  ∀ (s : State) (d : Nat) (c : HandleCmd) (rest : List HandleCmd), (s.stack d).cmds = c :: rest →
    let x := s.handle c.h
    let popped := s.onStack d fun f => { f with cmds := rest }
    let freed := popped.onCore (coreOf c.c) fun k => { k with whq := k.whq - 1 }
    let seq := ((s.stack (c.h / 512)).order + 1) % 2 ^ 48
    -- the descriptor is not BADDESC (R310)
    let fine (dest : Word) (ws : List Word) : Prop :=
      let w (i : Nat) : Nat := (wordAt ws i).toNat
      let whole : Prop := w 0 / 2 ^ 40 % 2 = 1
      let next := w 0 / 2 ^ 32 % 256
      let lands (v : Word) : Prop := v.toNat / 2 ^ 40 % 256 ≤ 31 ∧ s.owns c.part (v.toNat / 2 ^ 40 % 256) = true ∧
        v.toNat / 2 ^ 32 % 256 ≠ 0 ∧ v.toNat % 2 ^ 32 + w 4 % 2 ^ 32 ≤ 2 ^ 24
      w 0 / 2 ^ 41 = 0 ∧ w 1 / 2 ^ 48 = 0 ∧ w 2 / 2 ^ 12 % 16 = 0 ∧ w 2 % 16 = 0 ∧ w 4 / 2 ^ 32 = 0 ∧ w 5 = 0 ∧ w 6 = 0 ∧
        w 7 = 0 ∧ (∀ i, i < 8 → w (8 + 2 * i) / 2 ^ 40 = 0) ∧ (whole → next = 1) ∧
        (¬ whole → 1 ≤ next ∧ next ≤ 8 ∧ c.q ≤ next ∧ ∀ i, i < 6 → i < w 0 % 256 → w 0 / 2 ^ (8 + 4 * i) % 16 ≠ 3) ∧
        lands (wordAt ws 1) ∧ lands dest
    ∃ t, exec (.handleCommandAccept d) s = .next t ∧
      (c.kind = 0 → c.h / 512 = d → (t.core (coreOf c.c)).whq = (s.core (coreOf c.c)).whq - 1 ∧
        (t.stack d).cmds = rest ∧ (t.stack d).order = seq ∧
        (x.st = 0 ∨ x.st = 4 → ∀ bs u,
          (freed.onStack d fun f => { f with order := seq }).readBytes (engineReq (c.descIa / 2 ^ 48 % 8) c.part) c.descIa
            192 = (.ok bs, u) →
          let ws := wordsOf 24 bs
          let dest := if c.dest = 0 then wordAt ws 1 else c.dest
          let y := t.handle c.h
          (¬ fine dest ws → y.st = 4 ∧ y.err = 0x11) ∧
          (fine dest ws →
            (u.rangeHeld c.h dest (descFoot ws) = true → y.st = 4 ∧ y.err = 0x12) ∧
            (u.rangeHeld c.h dest (descFoot ws) = false →
              y = { x with st := 1, req := c.q, landed := 0, started := 0, err := 0, prio := c.prio, desc := c.descIa
                           dest := dest, fgtc := s.gtcWord, foot := descFoot ws, seq := seq, words := ws }))) ∧
        (x.st = 3 → c.q ≤ x.req → t.handle c.h = x) ∧
        (x.st = 1 ∨ x.st = 2 ∨ (x.st = 3 ∧ x.req < c.q) → (t.handle c.h).req = max x.req c.q ∧
          (t.handle c.h).landed = x.landed ∧ (t.handle c.h).prio = (x.prio || c.prio) ∧
          (t.handle c.h).seq = if c.prio = true ∧ x.prio = false then seq else x.seq)) ∧
      (c.kind = 1 → (t.core (coreOf c.c)).whq = (s.core (coreOf c.c)).whq - 1 ∧
        ((∀ z ∈ (popped.stack (c.h / 512)).cards, z.handle = c.h → z.orphan = true) → (t.handle c.h).st = 0) ∧
        ((∃ z ∈ (popped.stack (c.h / 512)).cards, z.handle = c.h ∧ z.orphan = false) → t.handles = s.handles ∧
          ∀ z ∈ (t.stack (c.h / 512)).cards, z.handle = c.h → z.dropped = true)) ∧
      (c.kind = 2 → t.handles = s.handles ∧ t.cores = s.cores ∧
        (∀ p ∈ (t.ctx c.c).pending, p.id = c.id → p.value = BitVec.ofNat 64 x.word0) ∧
        ∃ due, s.cycle < due ∧ { due := due, src := srcFlash (c.h / 512), ev := .loadResult c.c c.id } ∈ t.agenda)

/-- The port's reading: a card starts with the halves that are then in the shadow, a codeword of it brings up to 64 blocks, with
POISON coats where it does not decode, an LBA without data ends the card, and forwarded reads are served between, each for the
reads that its codeword took (R279, R290, R301, R305, R306, R314, R315). The model's choices: a codeword that was never
programmed, or was erased, reads as zero bytes (log 23), the port's own work comes last (log 59), and a forwarded 64-byte block
counts as one codeword (log 129). -/
def Sys2Proof.Claims.CardReading : Prop :=
  ∀ (s : State) (d h : Nat) (c : Card),
    let x := s.handle h
    let k := x.card h x.started
    (s.cardReady d = some h → k.good (stageCount (wordAt x.words 0).toNat) = true →
      ∃ t z, exec (.cardStart d) s = .next t ∧ (t.stack d).cards = (s.stack d).cards ++ [z] ∧ z.handle = h ∧
        z.plane = 7 - x.started ∧ z.blocks = [] ∧ z.lba = k.lba ∧ z.nblk = k.nblk ∧ (k.nblk ≠ 0 → z.lands = none) ∧
        z.halves = (maskPairs k.pmask).map (fun i => (8 * k.face + i, !(s.pair (8 * k.face + i)).active)) ∧
        (t.handle h).started = (if k.whole then 8 else x.started + 1) ∧ t.mem = s.mem) ∧
    (s.cardReady d = some h → k.good (stageCount (wordAt x.words 0).toNat) = false → ∃ t, exec (.cardStart d) s = .next t ∧
      (t.handle h).st = 4 ∧ (t.handle h).err = 0x08 ∧ (∀ z ∈ (t.stack d).cards, z.handle = h → z.orphan = true) ∧
      ∃ z, (t.stack d).lastCard = some z ∧ z.handle = h ∧ z.status = 0x08) ∧
    (s.channelSource d = 1 ∨ s.channelSource d = 3 → (s.stack d).reading = some c →
      let lba := c.lba + c.blocks.length / 64
      let n := min 64 (c.nblk - c.blocks.length)
      ((∀ cw, Tbl.find (s.stack d).map lba = some cw → 2 ^ 27 ≤ lba) → ∃ t, exec (.codewordRead d) s = .next t ∧
        t.mem = s.mem ∧ (∀ z ∈ (t.stack d).cards, z.lands ≠ none) ∧
        ∃ z ∈ (t.stack d).cards, z.handle = c.handle ∧ z.unmapped = true ∧ z.blocks = c.blocks ∧ z.uncorr = c.uncorr) ∧
      (∀ cw, Tbl.find (s.stack d).map lba = some cw → lba < 2 ^ 27 → ∃ t, exec (.codewordRead d) s = .next t ∧
        t.mem = s.mem ∧ t.coats = s.coats ∧ s.cycle < (t.stack d).chan ∧ ∃ z ∈ (t.stack d).cards, z.handle = c.handle ∧
          ((s.readCodeword d cw 0).1.1 = true → z.blocks = c.blocks ++ (List.range n).map fun i =>
            let b := s.blockAt (flashPlace d cw (64 * i))
            (b.data, b.coat)) ∧
          ((s.readCodeword d cw 0).1.1 = false → (∀ b ∈ z.blocks.drop c.blocks.length, b.2 = 0x00FF) ∧
            z.uncorr ≠ none) ∧
          (c.nblk ≤ c.blocks.length + n ↔ z.lands ≠ none))) ∧
    (∀ core id rest, s.channelSource d = 2 → (s.dom d).fwdQ = .load core id :: rest →
      ∃ t due, exec (.forwardedRead d) s = .next t ∧ (t.dom d).fwdQ = rest ∧ s.cycle < due ∧
        { due := due, src := srcFlash d, ev := .loadResult core id } ∈ t.agenda ∧
        (∀ p ∈ (t.ctx core).pending, p.id = id → p.flash = false) ∧ t.mem = s.mem) ∧
    (∀ n rest, s.channelSource d = 2 → (s.dom d).fwdQ = .read n :: rest →
      ∃ t k, exec (.forwardedRead d) s = .next t ∧ (t.dom d).fwdQ = rest ∧ 1 ≤ k ∧ (t.stack d).chan = s.cycle + n * k ∧
        t.mem = s.mem ∧ t.ctxs = s.ctxs) ∧
    (∀ core slot rest, s.channelSource d = 2 → (s.dom d).fwdQ = .landing core slot :: rest →
      ∃ t due, exec (.forwardedRead d) s = .next t ∧ (t.dom d).fwdQ = rest ∧ s.cycle < due ∧
        (t.landing core slot).due = some due ∧
        { due := due, src := srcFlash d, ev := .vldtLanded core slot } ∈ t.agenda ∧ t.mem = s.mem)

/-- The oldest card writes what its stages give of the blocks that it has read into the halves that it started with, as its rows
allow; with the last of them it completes, its STATUS is kept, and its plane counts or its handle ends in ERROR. A half that has
become active refuses the writes; a CHECK that fails recoats the output (R278, R279, R280, R315, R318, R319). The model's choices: all
that the stages give of the blocks read is written in one step, in the cycles in which the rows allow it (log 62), a port is held for
one cycle (log 129), and STATUS stays in the card that ended last. -/
def Sys2Proof.Claims.PlanesLand : Prop :=
  ∀ (s : State) (d : Nat) (c : Card), s.cardLands d = some c →
    let g := c.stage
    let x := s.handle c.handle
    let clear : Prop := ∀ z ∈ c.halves, (s.pair z.1).active ≠ z.2
    let last : Prop := ∃ t, c.lands = some t ∧ t ≤ s.cycle
    let free : Prop := c.dropped = false ∧ c.orphan = false
    let st := if c.unmapped then 0x03 else if c.uncorr.isSome then 0x0E else if g.mismatch then 0x04
      else if g.badcrc then 0x09 else if g.poisoned then 0x05 else 0
    ∃ t, exec (.planeLand d) s = .next t ∧
      (clear → ¬ last → t.handles = s.handles ∧ (t.stack d).cards =
        { c with wrote := g.out.length, drained := c.blocks.length } :: (s.stack d).cards.drop 1) ∧
      (last → (t.stack d).cards.Sublist ((s.stack d).cards.drop 1)) ∧
      (clear → (c.halves.map Prod.fst).Nodup → (g.out.map Prod.fst).Nodup → c.dstoff % 64 = 0 →
        (∀ z ∈ g.out, z.1 % 64 = 0 ∧ c.dstoff + z.1 < 2 ^ 24) →
        (¬ last ∨ g.badcrc = false → ∀ z ∈ c.halves, ∀ y ∈ g.out.drop c.wrote,
          t.blockAt (wbankPlace z.1 z.2 (c.dstoff + y.1)) = { y.2 with data := y.2.data % 2 ^ 512 }) ∧
        (last → g.badcrc = true → ∀ z ∈ c.halves, ∀ y ∈ g.out,
          t.blockAt (wbankPlace z.1 z.2 (c.dstoff + y.1)) = { data := y.2.data % 2 ^ 512, coat := 0x00FF })) ∧
      (clear → last → ∃ z, (t.stack d).lastCard = some z ∧ z.status = st ∧ z.handle = c.handle ∧ z.plane = c.plane) ∧
      (clear → last → free → st = 0 ∨ st = 5 → t.handle c.handle =
        { x with landed := if c.whole then 8 else x.landed + 1, lgtc := s.gtcWord
                 st := if x.req ≤ (if c.whole then 8 else x.landed + 1) then 3 else 2 }) ∧
      (clear → last → free → st ≠ 0 → st ≠ 5 → (t.handle c.handle).st = 4 ∧
        (t.handle c.handle).err = (if st = 0x0E then 0x10 else st) ∧ (t.handle c.handle).landed = x.landed) ∧
      (last → c.dropped = true → c.orphan = false → (∀ z ∈ (s.stack d).cards.drop 1, z.handle ≠ c.handle) →
        (t.handle c.handle).st = 0) ∧
      (c.orphan = true → t.handles = s.handles) ∧
      ((∃ z ∈ c.halves, (s.pair z.1).active = z.2) → g.out.drop c.wrote ≠ [] → free →
        (t.handle c.handle).st = 4 ∧ (t.handle c.handle).err = 0x01)

/-- The flash port's work for a handle. -/
def Obligations.JobCards : Prop :=
  Sys2Proof.Claims.CardReading ∧
  Sys2Proof.Claims.PlanesLand

/-- A failed block joins the bad ones and a spare takes its place; INJECT arms its target page; a relocation, a collection, a
static wear levelling begins with the LBAs of its block, ends with its erase and is counted in RELOC, and a patrol reads
what the map holds (R301 to R304, R307, R308). The model's choice: which blocks are the pool (log 58), and that one activity runs
at a time (log 59). -/
def Obligations.TranslationLayer : Prop :=
  ∀ (s : State) (n b : Nat) (v : Word),
    let f := s.stack n
    let begins (i : Instr) (k b : Nat) (dest : Option Nat) : Prop := ∃ t, exec i s = .next t ∧
      (t.stack n).job = some { kind := k, block := b, left := (f.map.filter fun e => e.2 / 4096 == b).map Prod.fst
                               dest := dest } ∧ (t.stack n).map = f.map ∧ t.mem = s.mem ∧
      (t.stack n).openHost ≠ some b ∧ (t.stack n).openOwn ≠ some b
    let ends (i : Instr) (k : Nat) : Prop := ∀ j, f.job = some j → j.kind = k → j.left = [] → ∃ t, exec i s = .next t ∧
      (t.stack n).job = none ∧ (t.stack n).reloc = min (f.reloc + 1) (2 ^ 32 - 1) ∧
      (t.stack n).relocRd = (if k = 0 then min (f.relocRd + 1) (2 ^ 32 - 1) else f.relocRd) ∧
      (let x := f.block j.block
       (t.stack n).block j.block = { x with pe := x.pe + 1, reads := 0, free := true, filled := 0, queued := false }) ∧
      (t.stack n).relocQ = ((f.relocQ ++ f.relocWait).filter fun x => x != j.block).take 64 ∧
      (∀ q, q / 4096 = j.block → ∀ o, o < 4096 → memGet t.mem (flashPlace n q o) = 0) ∧
      (∀ m, m ≠ n → t.stack m = s.stack m) ∧ t.ctxs = s.ctxs
    (n < 8 → b < f.pool → (f.block b).bad = false → ∃ t, exec (.programFail n b) s = .next t ∧
      ((t.stack n).block b).bad = true ∧ (t.stack n).grown = f.grown + 1 ∧ (t.stack n).map = f.map ∧ t.mem = s.mem ∧
      (Config.spareBlocks n - f.spareUsed ≠ 0 → (t.stack n).spareUsed = f.spareUsed + 1) ∧
      (Config.spareBlocks n - f.spareUsed ≤ 1 → (t.stack n).lifeEnd = true)) ∧
    (∃ t, exec (.injectWrite n v) s = .next t ∧ (t.stack n).injArm = v.getLsbD 63 ∧
      (t.stack n).injLba = v.toNat % 2 ^ 40 ∧ (t.stack n).injBits = v.toNat / 2 ^ 48 % 256 ∧
      (t.stack n).injKind = (if v.toNat / 2 ^ 56 % 4 = 3 then 0 else v.toNat / 2 ^ 56 % 4) ∧
      (t.stack n).injPage = (Tbl.find f.map (v.toNat % 2 ^ 40)).map (· / 4) ∧ t.mem = s.mem ∧
      (t.stack n).map = f.map) ∧
    (∀ r, f.job = none → f.relocQ = b :: r → begins (.relocation n) 0 b none) ∧
    (f.job = none → f.collectHead = some b → f.freeCount < 64 ∧ begins (.garbageCollection n) 1 b none) ∧
    (∀ e, f.job = none → f.wearHead n = some (b, e) → begins (.staticWearLevelling n) 2 b (some e)) ∧
    (f.job = none → f.patrol ≠ 0 → f.patrolled + f.patrol * 3600 * 1800000000 ≤ s.cycle → f.map ≠ [] →
      exec (.patrolRead n) s = .next (s.onStack n fun f =>
        { f with job := some { kind := 3, left := f.map.map Prod.snd }, patrolled := s.cycle })) ∧
    ends (.relocation n) 0 ∧ ends (.garbageCollection n) 1 ∧ ends (.staticWearLevelling n) 2 ∧
    (∀ j, f.job = some j → j.kind = 3 → j.left = [] → exec (.patrolRead n) s =
      .next (s.onStack n fun f => { f with job := none }))

/-- Moves of pages: a promotion takes the head of the ready queue and makes the page MOVING, and its end makes it HBM with the
flash copy in the lines that nothing wrote meanwhile; the sweeper's turn and a demotion's end do as R293 says; the epoch number
advances (R291 to R293). The model's choices: a count promotion without a frame or quota is skipped (log 66), and a demotion
that cannot be programmed gives its page back to HBM (log 60). -/
def Obligations.PageMoves : Prop :=
  ∀ (s : State) (d page f : Nat) (e : Pte) (rest : List Nat), d < 8 → f < 2 ^ 20 → e.w0 < 2 ^ 64 → e.w1 < 2 ^ 64 →
    let x := s.dom d
    (∀ demand, s.nextPromotion d = some (page, demand) → s.inHbf d page = some e → x.ready = f :: rest →
      (demand = true ∨ s.quotaLeft e.owner d = true) → (∀ h ∈ x.heldW, iaPage h.ia ≠ page) →
      ∃ t, exec (.promotion d) s = .next t ∧ (t.pteMem d page).st d = 4 ∧ (t.pteMem d page).mdir = false ∧
        (t.pteMem d page).frame = f ∧ (t.pteMem d page).lba = e.lba ∧ (t.dom d).ready = rest ∧
        (t.dom d).moves = x.moves ++ [{ page := page, frame := f, demote := false }] ∧
        (∀ q ∈ (t.dom d).promoQ, q.1 ≠ page) ∧
        ∃ due, s.cycle < due ∧ { due := due, src := srcHbm d, ev := .promotionDone d } ∈ t.agenda) ∧
    (s.nextPromotion d = some (page, false) → s.inHbf d page = some e →
      (x.ready = [] ∨ s.quotaLeft e.owner d = false) → ∃ t, exec (.promotion d) s = .next t ∧ t.mem = s.mem ∧
        (t.dom d).promskip = min (x.promskip + 1) (2 ^ 32 - 1) ∧ (∀ q ∈ (t.dom d).promoQ, q.1 ≠ page) ∧
        (t.dom d).ready = x.ready) ∧
    (∀ m, x.moves.find? (fun m => !m.demote) = some m → m.frame < 2 ^ 20 → s.peekPte d d m.page = some e →
      ∃ t, exec (.promotionDone d) s = .next t ∧ (t.dom d).promos = (x.promos + 1) % 2 ^ 32 ∧
        (t.dom d).moves = x.moves.filter (fun k => k != m) ∧ (t.pteMem d m.page).st d = 1 ∧
        (t.pteMem d m.page).a = true ∧ (t.pteMem d m.page).d = m.wrote ∧
        let at' (i k : Nat) : Nat := hbmPlace d (m.frame * 65536 + 4096 * i + 64 * k)
        ∀ i k, i < 16 → k < 64 →
          s.ptePlace d m.page + 16 ≤ hbmPlace d (m.frame * 65536) ∨ hbmPlace d (m.frame * 65536 + 65536) ≤ s.ptePlace d m.page →
          (64 * i + k ∈ m.copied → t.blockAt (at' i k) = s.blockAt (at' i k)) ∧
          (64 * i + k ∉ m.copied → ∀ cw, Tbl.find (s.stack d).map (e.lba + i) = some cw →
            (t.blockAt (at' i k)).data = (s.blockAt (flashPlace d cw (64 * k))).data)) ∧
    (x.sweeps = true → ∃ t, exec (.sweep d) s = .next t ∧ (t.dom d).hand = (x.hand + 1) % 2 ^ 20 ∧
      (s.pageOf d x.hand = none → t.mem = s.mem ∧
        (s.frameReserved d x.hand = false → s.replicaOf d x.hand = false → s.versionFrame d x.hand = false →
          x.ready.length < 256 → x.hand ∈ (t.dom d).ready)) ∧
      (∀ q, s.pageOf d x.hand = some q →
        let p := s.pteMem d q
        let y := t.pteMem d q
        (p.st d ≠ 1 ∨ p.pin = true → t.mem = s.mem ∧ (t.dom d).ready = x.ready) ∧
        (p.st d = 1 → p.pin = false → p.a = true → y = p.setA false ∧ (t.dom d).ready = x.ready) ∧
        (p.st d = 1 → p.pin = false → p.a = false → p.anon = true → (s.part p.owner).spill = false → t.mem = s.mem) ∧
        (p.st d = 1 → p.pin = false → p.a = false → (p.anon = true → (s.part p.owner).spill = true) →
          (p.d = true ∨ p.anon = true → y.st d = 4 ∧ y.mdir = true ∧ y.frame = p.frame ∧
            { page := q, frame := p.frame, demote := true } ∈ (t.dom d).moves) ∧
          (p.d = false → p.anon = false → y.st d = 2 ∧
            (t.dom d).demos = (x.demos + 1) % 2 ^ 32 ∧ (x.ready.length < 256 → p.frame ∈ (t.dom d).ready))))) ∧
    (∀ m, x.moves.find? (fun m => m.demote && m.page == page) = some m →
      let u := s.onDom d fun y => { y with moves := y.moves.erase m }
      (m.dead = true → exec (.demotionDone d page) s = .next u) ∧
      (m.dead = false → u.programFrame d m.frame (s.pteMem d page).lba = none → ∃ t,
        exec (.demotionDone d page) s = .next t ∧ (t.pteMem d page).st d = 1 ∧ (t.dom d).ready = x.ready) ∧
      (m.dead = false → ∀ v, u.programFrame d m.frame (s.pteMem d page).lba = some v → ∃ t,
        exec (.demotionDone d page) s = .next t ∧ (t.pteMem d page).st d = 2 ∧ (t.pteMem d page).d = false ∧
        (t.pteMem d page).anon = false ∧ (t.dom d).demos = (x.demos + 1) % 2 ^ 32 ∧
        (x.ready.length < 256 → m.frame ∈ (t.dom d).ready))) ∧
    (s.gtc ≠ (s.cycle - 1) * 5 / 9 → s.gtc % x.epochlen = 0 →
      exec (.epochAdvance d) s = .next (s.onDom d fun x => { x with epoch := x.epoch + 1 }))

/-- The page commands, each on a page of the supervisor's own partition in the state that it requires, and the statuses of
those that change nothing (R286, R298). The model's choices: the statuses are found in the order BADARG (no such page), OWNER,
BUSY, STATE, BADARG (frame or LBA), QUOTA (log 67), and a PROMOTE that finds 64 promotions pending waits for room (log 66). -/
def Sys2Proof.Claims.PageCommands : Prop :=
  ∀ (s : State) (d p idx : Nat) (e : Pte), d < 8 → p < 16 → idx < s.ftLen d → (s.dom d).pgBusy = true →
    (s.dom d).pgarg0 / 2 ^ 48 = d → (s.dom d).pgarg0 / 65536 % 2 ^ 32 = idx → s.peekPte d d idx = some e →
    e.w0 < 2 ^ 64 → e.w1 < 2 ^ 64 →
    let x := s.dom d
    let a := x.pgarg1
    let f := a.toNat % 2 ^ 20
    let lba := a.toNat / 2 ^ 20 % 2 ^ 40
    let mine : Prop := e.st d = 0 ∨ e.owner = p
    let ok (i : Instr) (c : Prop) (post : State → Pte → Prop) : Prop := mine → e.st d ≠ 4 → c → ∃ t, exec i s = .next t ∧
      (t.dom d).pgStatus = 0 ∧ post t (t.pteMem d idx)
    let bad (i : Instr) (c : Prop) (st : Nat) : Prop := c → exec i s = .next (s.onDom d fun x => { x with pgStatus := st })
    let valid : Prop := e.st d = 1 ∨ e.st d = 2 ∨ e.st d = 3
    let step (t : State) (y : Pte) : Prop :=
      (e.d = true ∨ e.anon = true → y.st d = 4 ∧ y.mdir = true ∧
        { page := idx, frame := e.frame, demote := true } ∈ (t.dom d).moves) ∧
      (e.d = false → e.anon = false → y.st d = 2 ∧ (t.dom d).demos = (x.demos + 1) % 2 ^ 32 ∧
        (x.ready.length < 256 → e.frame ∈ (t.dom d).ready))
    ok (.maphbm d p) (e.st d = 0 ∧ s.frameFree d f = true ∧ lba % 16 = 0 ∧ s.quotaLeft p d = true) (fun t y =>
      y.st d = 1 ∧ y.owner = p ∧ y.frame = f ∧ y.lba = lba ∧ y.anon = a.getLsbD 60 ∧ y.pin = a.getLsbD 61 ∧
      y.a = false ∧ y.d = false ∧ f ∉ (t.dom d).ready) ∧
    ok (.maphbf d p) (e.st d = 0 ∧ lba % 16 = 0) (fun t y => y.st d = 2 ∧ y.owner = p ∧ y.lba = lba ∧ y.pin = false ∧
      (t.dom d).ready = x.ready) ∧
    ok (.unmap d p) valid (fun t y => y.st d = 0 ∧
      (e.st d = 1 → x.ready.length < 256 → e.frame ∈ (t.dom d).ready)) ∧
    ok (.pin d p) valid (fun _ y => y.pin = true ∧ y.st d = e.st d ∧ y.frame = e.frame ∧ y.lba = e.lba) ∧
    ok (.unpin d p) valid (fun _ y => y.pin = false ∧ y.st d = e.st d ∧ y.frame = e.frame ∧ y.lba = e.lba) ∧
    ok (.promote d p) (e.st d = 2 ∧ x.promoQ.length < 64) (fun t _ => (idx, true) ∈ (t.dom d).promoQ ∧ t.mem = s.mem) ∧
    ok (.promote d p) (e.st d = 2 ∧ 64 ≤ x.promoQ.length ∧ ∀ z ∈ x.promoQ, z.1 ≠ idx) (fun t _ => idx ∈ (t.dom d).promoWait ∧
      (t.dom d).promoQ = x.promoQ ∧ t.mem = s.mem) ∧
    ok (.demote d p) (e.st d = 1 ∧ e.pin = false ∧ (e.anon = true → (s.part e.owner).spill = true)) step ∧
    bad (.inval d p) (e = s.pteMem d idx ∧ mine ∧ e.st d = 4) 4 ∧
    (e = s.pteMem d idx → mine → e.st d ≠ 4 → exec (.inval d p) s = .next (s.onDom d fun x =>
      { x with tcache := Tbl.del x.tcache (pteKey d idx), pgStatus := 0 })) ∧
    bad (.maphbm d p) (e.st d ≠ 0 ∧ e.owner ≠ p) 2 ∧ bad (.maphbm d p) (mine ∧ e.st d = 4) 4 ∧
    bad (.maphbm d p) (mine ∧ valid) 1 ∧
    bad (.maphbm d p) (e.st d = 0 ∧ (s.frameFree d f = false ∨ lba % 16 ≠ 0)) 5 ∧
    bad (.maphbm d p) (e.st d = 0 ∧ s.frameFree d f = true ∧ lba % 16 = 0 ∧ s.quotaLeft p d = false) 3 ∧
    bad (.unmap d p) (e.st d = 0) 1 ∧ bad (.promote d p) (mine ∧ e.st d = 1) 1 ∧ bad (.demote d p) (mine ∧ e.st d = 2) 1 ∧
    bad (.replicate d p) (mine ∧ e.st d ≠ 4) 1 ∧
    exec (.pgcmdDone d) s = .next (s.onDom d fun x => { x with pgBusy := false })

/-- REPLICATE makes an INVALID page of region 0x8 REPLICATED in the stacks of RMASK, with zero bytes (R295, R298).
The model's choices: the order of the statuses (log 67) and the bytes (log 68). -/
def Sys2Proof.Claims.ReplicatePages : Prop :=
  ∀ (s : State) (d p idx : Nat) (e : Pte), d < 8 → p < 16 → idx < s.ft8len → (s.dom d).pgBusy = true →
    (s.dom d).pgarg0 / 2 ^ 48 = 8 → (s.dom d).pgarg0 / 65536 % 2 ^ 32 = idx → s.peekPte d 8 idx = some e → e.st 8 = 0 →
    let a := (s.dom d).pgarg1.toNat
    let f := a % 2 ^ 20
    let mask := a / 2 ^ 20 % 2 ^ 8
    let prim := a / 2 ^ 28 % 8
    let member (i : Nat) : Prop := i < 8 ∧ mask.testBit i = true
    let bad (st : Nat) : Prop := exec (.replicate d p) s = .next (s.onDom d fun x => { x with pgStatus := st })
    (mask.testBit prim = true → (∀ i, member i → s.frameFree i f = true ∧ s.quotaLeft p i = true) →
      ∃ t, exec (.replicate d p) s = .next t ∧ (t.dom d).pgStatus = 0 ∧
        (let y := t.pteMem 8 idx
         y.st 8 = 3 ∧ y.owner = p ∧ y.rmask = mask ∧ y.prim = prim ∧ y.frame = f) ∧
        (∀ i, member i → f ∉ (t.dom i).ready) ∧
        ∀ i o, member i → o < 65536 →
          (s.ptePlace 8 idx + 16 ≤ hbmPlace i (65536 * f) ∨ hbmPlace i (65536 * f + 65536) ≤ s.ptePlace 8 idx) →
          memGet t.mem (hbmPlace i (65536 * f + o)) = 0) ∧
    (mask.testBit prim = false → bad 5) ∧
    (mask.testBit prim = true → (∃ i, member i ∧ s.frameFree i f = false) → bad 5) ∧
    (mask.testBit prim = true → (∀ i, member i → s.frameFree i f = true) → (∃ i, member i ∧ s.quotaLeft p i = false) → bad 3)

/-- Page commands of a supervisor. -/
def Obligations.PageManagement : Prop :=
  Sys2Proof.Claims.PageCommands ∧
  Sys2Proof.Claims.ReplicatePages

/-- A read of the block at an IA. A block of staging, of a scratchpad or of a weight bank is read in its place; no region above 0xB
can be read. In regions 0x0 to 0x8 a task's own version is read in its frame; a line that its home slice holds for the partition is
a hit, and one held for another an ACCESS; a miss goes to the page's entry: UNMAPPED without one, ACCESS for another's page, and
else the frame, or the flash block with the writes held for it, sets A, and under ALLOC fills the line. A page of region 0x8 is
read from the replica that R295 names. A copy engine's read is translated even where it hits a line (R178 to R182, R251, R285 to
R290, R295, R362). The model's choices: which set of a slice keeps a line (log 26), and that held writes are seen by reads (log 35). -/
def Sys2Proof.Claims.BlocksAreRead : Prop :=
  ∀ (s : State) (q : Req) (ia : Nat) (e : Pte),
    let a := ia / 64 * 64
    let r := ia / 2 ^ 48
    let idx := ia / 65536 % 2 ^ 32
    let off := a % 65536
    let d := s.homeDom q a
    let key := if r = 8 then (d + 1) * 2 ^ 52 + a / 64 else a / 64
    let home := homeOf d a
    let entry := s.ptePlace r idx
    let place := hbmPlace d (65536 * e.frame + off)
    let quiet (t : State) : Prop := t.ctxs = s.ctxs ∧ t.cores = s.cores ∧ t.pairs = s.pairs ∧ t.faces = s.faces
    let same (t : State) : Prop := t.mem = s.mem ∧ t.coats = s.coats ∧ t.lines = s.lines ∧ quiet t
    let missed (t : State) : Prop := (t.slice home).misses = ((s.slice home).misses + 1) % 2 ^ 48
    let fails (code : Nat) : Prop := ∃ t, s.iaRead q ia = (.fail code, t) ∧ same t
    let gets (b : BlockVal) : Prop := ∃ t, s.iaRead q ia = (.ok b, t) ∧ missed t ∧ quiet t ∧
      (q.alloc = false → t.lines = s.lines ∧ EntryOnly s t entry ∧ (bytesAt t entry 8).testBit 60 = true) ∧
      (q.alloc = true → (s.fillWays d home a).1 ≠ [] →
        ∃ w, Tbl.find t.lines key = some { data := b.data, coat := b.coat, owner := q.part, way := w })
    (9 ≤ r → r ≤ 0xB → s.iaRead q ia = (.ok (blockIn s (devicePlace ia)), s)) ∧
    (0xC ≤ r → s.iaRead q ia = (.fail 0x09, s)) ∧
    (∀ f, r ≤ 8 → q.frameOf a = some f → s.iaRead q ia = (.ok (blockIn s (hbmPlace r (65536 * f + off))), s)) ∧
    (r ≠ 8 → d = r) ∧
    (r = 8 → EntryIs s q.dom 8 idx e → e.st 8 = 3 → d = if q.primary = true then e.prim
      else if e.rmask.testBit q.dom then q.dom else if e.rmask.testBit (q.dom ^^^ 1) then q.dom ^^^ 1
      else ((List.range 8).find? fun i => e.rmask.testBit i).getD 0) ∧
    (r ≤ 8 → q.frameOf a = none →
      (∀ ln, Tbl.find s.lines key = some ln →
        (ln.owner = q.part → q.copy = false → ∃ t, s.iaRead q ia = (.ok { data := ln.data, coat := ln.coat }, t) ∧ same t ∧
          (t.slice home).hits = ((s.slice home).hits + 1) % 2 ^ 48) ∧
        (ln.owner = q.part → q.copy = true → (s.ftLen r ≤ idx → fails 0x0A) ∧
          (EntryIs s d r idx e → e.w0 < 2 ^ 64 → (e.st r = 0 → fails 0x0A) ∧ (e.st r ≠ 0 → e.owner ≠ q.part → fails 0x09) ∧
            (e.st r ≠ 0 → e.owner = q.part → ∃ t, s.iaRead q ia = (.ok { data := ln.data, coat := ln.coat }, t) ∧
              t.lines = s.lines ∧ quiet t ∧ EntryOnly s t entry ∧ (bytesAt t entry 8).testBit 60 = true))) ∧
        (ln.owner ≠ q.part → fails 0x09)) ∧
      (Tbl.find s.lines key = none →
        (s.ftLen r ≤ idx → fails 0x0A) ∧
        (EntryIs s d r idx e → e.w0 < 2 ^ 64 →
          (e.st r = 0 → fails 0x0A) ∧
          (e.st r ≠ 0 → e.owner ≠ q.part → fails 0x09) ∧
          (e.owner = q.part →
            (e.st r = 1 ∨ e.st r = 3 → gets (blockIn s place)) ∧
            (e.st r = 2 → ∀ cw, Tbl.find (s.stack d).map (e.lba + off / 4096) = some cw →
              let x := blockIn s (flashPlace d cw (off % 4096))
              gets ((s.dom d).overHeld a (if (s.readCodeword d cw 1).1.1 = true then x else { x with coat := 0x00FF }))) ∧
            (e.st r = 2 → Tbl.find (s.stack d).map (e.lba + off / 4096) = none →
              gets ((s.dom d).overHeld a { data := 0, coat := 0x00FF })) ∧
            (e.st r = 2 → ∀ t b, s.iaRead q ia = (.ok b, t) → q.alloc = false →
              (t.dom d).fwdreads = ((s.dom d).fwdreads + 1) % 2 ^ 48 ∧
              (let n := if e.epoch = (s.dom d).epoch % 32 then min (e.count + 1) 0xFFFF else 1
               (s.dom d).promo ≠ 0 → n = (s.dom d).promo → (s.dom d).promoQ.length < 64 →
                 (∀ p ∈ (s.dom d).promoQ, p.1 ≠ idx) → (t.dom d).promoQ = (s.dom d).promoQ ++ [(idx, false)])) ∧
            (e.st r = 4 → ∀ m, (s.dom d).moves.find? (fun m => m.page == idx && !m.dead) = some m →
              (m.demote = true ∨ off / 64 ∈ m.copied → gets (blockIn s place)) ∧
              (m.demote = false → off / 64 ∉ m.copied → ∀ cw, Tbl.find (s.stack d).map (e.lba + off / 4096) = some cw →
                let x := blockIn s (flashPlace d cw (off % 4096))
                gets (if (s.readCodeword d cw 1).1.1 = true then x else { x with coat := 0x00FF })))))))

/-- A write in the block at an IA. Staging, a scratchpad and the half of a weight bank that is not active take it in their place; an
active half and the regions above 0xB refuse it. In regions 0x0 to 0x7 a task's own version takes it in its frame; a line held for
the partition becomes dirty with it; on a miss it goes under BYPASS to the page's frame, with A and D, or is held for a page in
flash, which is to be promoted, and under ALLOC fills a dirty line. A page of region 0x8 takes it in the frame and the line of every
replica, unless one of these lines is another partition's. A copy engine's write goes to memory even where it hits a line. The
monitors on the line are triggered (R179, R182, R251, R285 to R289, R292, R295, R332, R362). The model's choice: a write held for a
page in flash stays beside the queue until its page moves (log 35). -/
def Sys2Proof.Claims.BlocksAreWritten : Prop :=
  ∀ (s : State) (q : Req) (ia : Nat) (w : BWrite) (e : Pte),
    let a := ia / 64 * 64
    let r := ia / 2 ^ 48
    let idx := ia / 65536 % 2 ^ 32
    let off := a % 65536
    let home := homeOf r a
    let entry := s.ptePlace r idx
    let place (d : Nat) : Nat := hbmPlace d (65536 * e.frame + off)
    let apart (d : Nat) : Prop := entry + 16 ≤ place d ∨ place d + 64 ≤ entry
    let fails (code : Nat) : Prop := ∃ t, s.iaWrite q ia w = (some code, t) ∧ t.mem = s.mem ∧ t.coats = s.coats ∧
      t.lines = s.lines ∧ t.ctxs = s.ctxs
    let p := ia / 2 ^ 25 % 2 ^ 8
    (r = 9 ∨ r = 0xA ∨ (r = 0xB ∧ ((s.pair p).active = true ↔ ia / 2 ^ 24 % 2 = 0)) →
      ∃ t, s.iaWrite q ia w = (none, t) ∧ BlockPut s t (devicePlace ia) (devicePlace ia) w ∧ t.lines = s.lines ∧
        t.ctxs = s.ctxs) ∧
    (r = 0xB → ((s.pair p).active = true ↔ ia / 2 ^ 24 % 2 = 1) → s.iaWrite q ia w = (some 0x09, s)) ∧
    (0xC ≤ r → s.iaWrite q ia w = (some 0x09, s)) ∧
    (∀ f, r ≤ 8 → q.frameOf a = some f → ∃ t, s.iaWrite q ia w = (none, t) ∧ t.lines = s.lines ∧
      BlockPut s t (hbmPlace r (65536 * f + off)) (hbmPlace r (65536 * f + off)) w ∧
      MonitorsOn s t (2 ^ 58 + (2 ^ 20 * r + f) * 1024 + off / 64)) ∧
    (r ≤ 7 → q.frameOf a = none →
      (∀ ln, Tbl.find s.lines (a / 64) = some ln →
        (ln.owner = q.part → q.copy = false → ∃ t x, s.iaWrite q ia w = (none, t) ∧ t.mem = s.mem ∧ t.coats = s.coats ∧
          Applied w { data := ln.data, coat := ln.coat } { data := x, coat := w.coat.getD ln.coat } ∧
          Tbl.find t.lines (a / 64) = some { ln with data := x, coat := w.coat.getD ln.coat, dirty := true } ∧
          (∀ k, k ≠ a / 64 → Tbl.find t.lines k = Tbl.find s.lines k) ∧ MonitorsOn s t (a / 64) ∧
          (t.slice home).hits = ((s.slice home).hits + 1) % 2 ^ 48) ∧
        (ln.owner = q.part → q.copy = true → EntryIs s r r idx e → e.w0 < 2 ^ 64 →
          (e.st r = 0 → fails 0x0A) ∧ (e.st r ≠ 0 → e.owner ≠ q.part → fails 0x09) ∧
          (e.owner = q.part → e.st r = 1 → apart r → ∃ t x, s.iaWrite q ia w = (none, t) ∧ BlockPut s t (place r) entry w ∧
            (bytesAt t entry 8).testBit 59 = true ∧
            Applied w { data := ln.data, coat := ln.coat } { data := x, coat := w.coat.getD ln.coat } ∧
            Tbl.find t.lines (a / 64) = some { ln with data := x, coat := w.coat.getD ln.coat })) ∧
        (ln.owner ≠ q.part → fails 0x09)) ∧
      (Tbl.find s.lines (a / 64) = none →
        (s.ftLen r ≤ idx → fails 0x0A) ∧
        (EntryIs s r r idx e → e.w0 < 2 ^ 64 →
          (e.st r = 0 → fails 0x0A) ∧
          (e.st r ≠ 0 → e.owner ≠ q.part → fails 0x09) ∧
          (e.owner = q.part → q.alloc = false →
            (e.st r = 1 → apart r → ∃ t, s.iaWrite q ia w = (none, t) ∧ BlockPut s t (place r) entry w ∧
              (bytesAt t entry 8).testBit 60 = true ∧ (bytesAt t entry 8).testBit 59 = true ∧ t.lines = s.lines ∧
              MonitorsOn s t (a / 64)) ∧
            (e.st r = 2 → ∃ t h, s.iaWrite q ia w = (none, t) ∧ t.mem = s.mem ∧ t.coats = s.coats ∧ t.lines = s.lines ∧
              (t.dom r).heldW = (s.dom r).heldW ++ [h] ∧ h.ia = a ∧ h.mask = w.mask ∧ h.data = w.data ∧ h.coat = w.coat ∧
              h.part = q.part ∧ h.ctx = q.ctx ∧ h.issued = s.cycle ∧ MonitorsOn s t (a / 64) ∧
              ((s.dom r).promoQ.length < 64 → (idx, true) ∈ (t.dom r).promoQ) ∧
              (64 ≤ (s.dom r).promoQ.length → (∀ z ∈ (s.dom r).promoQ, z.1 ≠ idx) → idx ∈ (t.dom r).promoWait)) ∧
            (e.st r = 4 → ∀ m, (s.dom r).moves.find? (fun m => m.page == idx && !m.dead) = some m → apart r →
              (m.demote = true → ∃ t, s.iaWrite q ia w = (none, t) ∧ BlockPut s t (place r) entry w ∧
                (bytesAt t entry 8).testBit 59 = true ∧ bytesAt t entry 8 / 2 ^ 61 = 1 ∧
                ∀ n ∈ (t.dom r).moves, n.page = idx → n.dead = true) ∧
              (m.demote = false → off / 64 ∈ m.copied → ∃ t, s.iaWrite q ia w = (none, t) ∧ BlockPut s t (place r) entry w ∧
                ∀ n ∈ (t.dom r).moves, n.page = idx → n.dead = false → n.wrote = true))) ∧
          (e.owner = q.part → q.alloc = true → e.st r = 1 → (s.fillWays r home a).1 ≠ [] →
            ∃ t x n, s.iaWrite q ia w = (none, t) ∧
              Applied w (blockIn s (place r)) { data := x, coat := w.coat.getD (blockIn s (place r)).coat } ∧
              Tbl.find t.lines (a / 64) = some { data := x, coat := w.coat.getD (blockIn s (place r)).coat, dirty := true
                                                 owner := q.part, way := n } ∧
              (∀ c, t.ctx c = if (s.ctx c).monitor = .armed (a / 64) then { s.ctx c with monitor := .triggered (a / 64) }
                else s.ctx c))))) ∧
    (r = 8 → q.frameOf a = none → EntryIs s q.dom 8 idx e → e.w0 < 2 ^ 64 →
      (e.st 8 ≠ 3 → ∃ t, s.iaWrite q ia w = (some 0x0A, t) ∧ t.mem = s.mem ∧ t.lines = s.lines) ∧
      (e.st 8 = 3 → e.owner ≠ q.part → ∃ t, s.iaWrite q ia w = (some 0x09, t) ∧ t.mem = s.mem ∧ t.lines = s.lines) ∧
      (e.st 8 = 3 → e.owner = q.part → (∃ d ln, d < 8 ∧ e.rmask.testBit d = true ∧
          Tbl.find s.lines ((d + 1) * 2 ^ 52 + a / 64) = some ln ∧ ln.owner ≠ q.part) →
        ∃ t, s.iaWrite q ia w = (some 0x09, t) ∧ t.mem = s.mem ∧ t.lines = s.lines) ∧
      (e.st 8 = 3 → e.owner = q.part → (∀ d ln, d < 8 → e.rmask.testBit d = true →
          Tbl.find s.lines ((d + 1) * 2 ^ 52 + a / 64) = some ln → ln.owner = q.part) →
        q.alloc = false → (∀ d, d < 8 → apart d) → ∃ t, s.iaWrite q ia w = (none, t) ∧
        ∀ d, d < 8 → e.rmask.testBit d = true → let key := (d + 1) * 2 ^ 52 + a / 64
          (Tbl.find s.lines key = none → Applied w (blockIn s (place d)) (blockIn t (place d)) ∧ Tbl.find t.lines key = none) ∧
          (∀ ln, Tbl.find s.lines key = some ln → ∃ x, Tbl.find t.lines key = some { ln with data := x, coat := w.coat.getD ln.coat } ∧
            Applied w { data := ln.data, coat := ln.coat } { data := x, coat := w.coat.getD ln.coat } ∧
            blockIn t (place d) = { data := x % 2 ^ 512, coat := w.coat.getD ln.coat }) ∧
          ∀ c, (s.ctx c).monitor = .armed key → (t.ctx c).monitor = .triggered key))

/-- L2CMD over the lines of the partition in the range: WB cleans them, WBINV and INV drop them, INV without a write-back; a
line outside keeps its data. WB and WBINV put a dirty line into its page's frame with D, hold it for a page in flash, and count
what no page of its owner takes in DROPWB (R288, R297). A change of WAYPART empties the ways that staging gains and sends the size
to every table, each of which gets it in its own cycle, and discards what staging loses; a soft error is counted where it lies and
poisons the block when it is uncorrectable (R183, R184, R190). The model's choices: held writes are seen by reads and end an L2CMD's
wait (log 35), each table gets a size in its own cycle (logs 70, 127), places of errors are the model's (log 71), and an error of a
landing slot poisons 16 lanes (log 106). -/
def Sys2Proof.Claims.SlicesChange : Prop :=
  ∀ (s : State) (d p n place key : Nat) (v : Word),
    let covers (k : Nat) (ln : Line) : Prop := s.l2Covers d p k ln = true
    let runs (i : Instr) (op : Nat) (keep : Bool) : Prop := (s.dom d).l2Op = op →
      s.lines.Pairwise (fun a b => a.1 < b.1) → ∃ t, exec i s = .next t ∧
        (∀ k, Tbl.find s.lines k = none → Tbl.find t.lines k = none) ∧
        ∀ k ln, Tbl.find s.lines k = some ln →
          (covers k ln → Tbl.find t.lines k = if keep then some { ln with dirty := false } else none) ∧
          (¬ covers k ln → Tbl.find t.lines k = some ln)
    let x := s.slice n
    let w := v.toNat % 32
    let refused : Prop := x.wNew ≠ none ∨ 16 < w
    let sent (t : State) (w : Nat) : Prop := ∀ u, u < 640 →
      ∃ z ∈ t.sizes, z.unit = u ∧ z.slice = n ∧ z.size = 65536 * (16 - w) ∧ s.cycle < z.due
    let again (t : State) : Prop := ∃ due, s.cycle < due ∧ { due := due, src := srcHbm (n / 192), ev := .waypartDone n } ∈ t.agenda
    let saves (i : Instr) (op : Nat) : Prop := ∀ ln e, (s.dom d).l2Op = op → s.lines.Pairwise (fun a b => a.1 < b.1) →
      Tbl.find s.lines key = some ln → covers key ln → ln.dirty = true → key < 2 ^ 52 →
      (∀ k y, Tbl.find s.lines k = some y → covers k y → y.dirty = true → k = key) →
      EntryIs s d d (key / 1024 % 2 ^ 32) e → e.w0 < 2 ^ 64 →
      let entry := s.ptePlace d (key / 1024 % 2 ^ 32)
      let at' := hbmPlace d (65536 * e.frame + 64 * key % 65536)
      ∃ t, exec i s = .next t ∧ (t.slice (homeOf d (64 * key))).wbacks = ((s.slice (homeOf d (64 * key))).wbacks + 1) % 2 ^ 48 ∧
        (e.st d = 1 → e.owner = ln.owner → blockIn t at' = { data := ln.data % 2 ^ 512, coat := ln.coat } ∧
          (entry + 16 ≤ at' ∨ at' + 64 ≤ entry → (bytesAt t entry 8).testBit 59 = true) ∧
          (∀ a, (a < at' ∨ at' + 64 ≤ a) → (a < entry ∨ entry + 16 ≤ a) → memGet t.mem a = memGet s.mem a) ∧
          (t.dom d).dropwb = (s.dom d).dropwb) ∧
        (e.st d = 2 → e.owner = ln.owner → t.mem = s.mem ∧ ∃ h, (t.dom d).heldW = (s.dom d).heldW ++ [h] ∧ h.ia = 64 * key ∧
          h.mask = 2 ^ 512 - 1 ∧ h.data = ln.data ∧ h.coat = some ln.coat) ∧
        (e.st d = 0 ∨ e.owner ≠ ln.owner → t.mem = s.mem ∧ (t.dom d).dropwb = min ((s.dom d).dropwb + 1) (2 ^ 32 - 1))
    saves (.wb d p) 1 ∧ saves (.wbinv d p) 2 ∧ runs (.wb d p) 1 true ∧ runs (.wbinv d p) 2 false ∧ runs (.inv d p) 3 false ∧
    ((s.dom d).l2Op = 3 → ∃ t, exec (.inv d p) s = .next t ∧ t.mem = s.mem ∧ t.coats = s.coats) ∧
    ((s.dom d).l2Op ≠ 0 → (∀ h ∈ (s.dom d).heldW, h.ia / 64 * 64 ≤ (s.dom d).l2hi → h.ia < (s.dom d).l2lo) →
      exec (.l2cmdDone d) s = .next (s.onDom d fun x => { x with l2Op := 0, l2Done := true })) ∧
    (refused → exec (.waypartWrite n v) s = .next (s.onSlice n fun x => { x with err := true })) ∧
    (¬ refused → w = x.w → exec (.waypartWrite n v) s = .next (s.onSlice n fun x => { x with err := false, wNew := none })) ∧
    (¬ refused → w ≠ x.w → ∃ t, exec (.waypartWrite n v) s = .next t ∧ (t.slice n).wNew = some w ∧ (t.slice n).w = x.w ∧
      (t.slice n).err = false ∧ again t ∧
      (w < x.w → (∀ e ∈ t.lines, homeSlice (lineDom e.1) (lineIa e.1) = n → e.2.way < w ∨ x.w ≤ e.2.way) ∧
        ∀ o, 65536 * (16 - x.w) ≤ o → o < 65536 * (16 - w) → memGet t.mem (stagingPlace n o) = 0) ∧
      (x.w < w → sent t w)) ∧
    (∀ m, x.wNew = some m → m ≤ 16 → x.w ≤ 16 → ∃ t, exec (.waypartDone n) s = .next t ∧
      (m < x.w → x.sent = false → sent t m ∧ (t.slice n).sent = true ∧ (t.slice n).wNew = some m ∧ again t) ∧
      (m < x.w → x.sent = true → (t.slice n).w = m ∧ (t.slice n).wNew = none ∧ t.mem = s.mem ∧ t.coats = s.coats) ∧
      (x.w ≤ m → (t.slice n).w = m ∧ (t.slice n).wNew = none ∧
        ∀ o, 65536 * (16 - m) ≤ o → o < 65536 * (16 - x.w) → memGet t.mem (stagingPlace n o) = 0)) ∧
    (∀ z, s.sizes = [z] → z.due ≤ s.cycle → s.landSizes.sizes = [] ∧
      (z.unit < 512 → Tbl.look (s.landSizes.core z.unit).staging z.slice 0 = z.size) ∧
      (512 ≤ z.unit → Tbl.look (s.landSizes.engine (z.unit - 512)).staging z.slice 0 = z.size)) ∧
    (∀ unc, place < 2 ^ 29 → ∃ t, exec (.sramError (scratchPlace 0 place) unc) s = .next t ∧
      (let q := place / 2 ^ 21
       (t.pair q).sunc = (if unc then min ((s.pair q).sunc + 1) (2 ^ 32 - 1) else (s.pair q).sunc) ∧
       (t.pair q).secc = (if unc then (s.pair q).secc else min ((s.pair q).secc + 1) (2 ^ 32 - 1))) ∧ t.mem = s.mem ∧
      (∀ b, coatGet t.coats (64 * b) = if unc = true ∧ b = scratchPlace 0 place / 64 then 0x00FF else coatGet s.coats (64 * b))) ∧
    (∀ ln, key < 2 ^ 60 → Tbl.find s.lines key = some ln → ∃ t, exec (.sramError (linePlace key) true) s = .next t ∧
      Tbl.find t.lines key = some { ln with coat := 0x00FF } ∧
      (let m := homeSlice (lineDom key) (lineIa key)
       (t.slice m).sunc = min ((s.slice m).sunc + 1) (2 ^ 32 - 1))) ∧
    (∀ core slot block, core < 512 → slot < 32 → block < 64 → (s.landing core slot).st = .landed →
      ∃ t, exec (.sramError (2 ^ 66 + 64 * (32 * core + slot) + block) true) s = .next t ∧
        (let l := s.landing core slot
         let m := t.landing core slot
         m.st = .landed ∧ m.poison ≠ none ∧ (∀ i, i < 1024 → i / 16 ≠ block → lane m.lanes i = lane l.lanes i) ∧
         (l.fmt = 0 → ∀ i, i < 1024 → i / 16 = block → lane m.lanes i = originNaN l.pc i)) ∧
        (t.pair (core / 2)).sunc = min ((s.pair (core / 2)).sunc + 1) (2 ^ 32 - 1))

/-- Reads and writes of blocks, and what changes the slices. -/
def Obligations.SlicesAndSram : Prop :=
  Sys2Proof.Claims.BlocksAreRead ∧
  Sys2Proof.Claims.BlocksAreWritten ∧
  Sys2Proof.Claims.SlicesChange

/-- A dispatch step falls where GTC reaches another multiple of 8 ns. It advances LSEED once, draws a queue by its tickets and
takes the earliest task of it, of equal ones the lowest SEQ; a free-running instance starts on the lowest candidate core, a
planned one asks the controller to book it at the earliest start tick of all the candidates, and one without a place is
blocked. The controller books it where it still fits, and else leaves it to the next step (R205, R363, R364, R365, R366, R367, R368). The model's
choices: yielded instances go first, lowest first, and a booking that no longer fits is dropped and asked for again (log 77); the
query is made in the dispatcher's step (log 129); the booking takes the lowest free id (log 143). -/
def Obligations.DispatchSteps : Prop :=
  ∀ (s : State) (d : Nat),
    let running (t : State) (u : Task) : Prop :=
      (t.disp d).steps = ((s.disp d).steps + 1) % 2 ^ 48 ∧
      (t.disp d).tasks.map (fun y => (y.seq, y.next, y.running, y.blocked)) = (s.disp d).tasks.map fun y =>
        if y.seq = u.seq then (y.seq, if y.yielded = [] then y.next + 1 else y.next,
          y.running ++ [if y.yielded = [] then y.next else y.yielded.min?.getD 0], y.blocked)
        else (y.seq, y.next, y.running, y.blocked)
    let due : Prop := s.cycle ≠ 0 ∧ s.cycle * 5 / 9 / 8 ≠ (s.cycle - 1) * 5 / 9 / 8
    let draws (n : Nat) (u : Task) : Prop := u ∈ s.queueTasks n ∧ s.dispatchable u = true ∧ u.blocked = false
    let l := s.eligible d
    let below (n : Nat) : Nat := ((l.filter (· < n)).map fun m => (s.queue m).tickets).sum
    let x0 := (s.disp d).lseed.toNat
    let x1 := x0 ^^^ (x0 * 2 ^ 13 % 2 ^ 32)
    let x2 := x1 ^^^ (x1 / 2 ^ 17)
    let x3 := x2 ^^^ (x2 * 2 ^ 5 % 2 ^ 32)
    let before (a b : Task) : Prop :=
      2 ^ 47 ≤ ((wordAt a.tcb 2).toNat % 2 ^ 48 + 2 ^ 48 - (wordAt b.tcb 2).toNat % 2 ^ 48) % 2 ^ 48
    (∀ n, n ∈ l ↔ n < 256 ∧ (s.queue n).en = true ∧ (s.queue n).dom = d ∧ ∃ u, draws n u) ∧
    (¬ due → exec (.dispatchStep d) s = .next s) ∧
    (due → l = [] → ∃ t, exec (.dispatchStep d) s = .next t ∧ (t.disp d).lseed = (s.disp d).lseed ∧ t.faces = s.faces ∧
      t.cores = s.cores ∧ ∀ k, ∃ m, t.ctx k = { s.ctx k with monitor := m }) ∧
    ∀ n u, s.disps.Pairwise (fun a b => a.1 < b.1) → due → n ∈ l → (below 256 = 0 → ∀ m ∈ l, n ≤ m) →
      (below 256 ≠ 0 → below n ≤ x3 % below 256 ∧ x3 % below 256 < below n + (s.queue n).tickets) →
      draws n u → (s.queueTasks n).Pairwise (fun a b => a.seq < b.seq) →
      (∀ v, draws n v → v ≠ u → ¬ before v u ∧ (before u v ∨ u.seq < v.seq)) →
      let w (k : Nat) : Nat := (wordAt u.tcb k).toNat
      let vcnt := 16 * (w 4 / 2 ^ 48 % 16)
      let inst := if u.yielded = [] then u.next else u.yielded.min?.getD 0
      let cand (c : Nat) : Prop := 64 * d ≤ c ∧ c < 64 * d + 64 ∧ (wordAt u.tcb 3).getLsbD (c - 64 * d) = true ∧
        s.owns u.part (faceOf c) = true ∧ s.freeCtx c ≠ none ∧ s.freeBase c vcnt ≠ none ∧
        (u.plan ≠ none → s.halfFree c = true)
      let starts (q : Plan) (t c : Nat) : Prop := cand c ∧ (s.face (faceOf c)).freeBid ≠ none ∧ s.tick + q.lead ≤ t ∧
        t + q.total ≤ s.tick + 8192 ∧ (s.face (faceOf c)).admits (q.uses c t (s.lease c)) q.ratio = true
      let blocks (t : State) : Prop := (t.disp d).block = min ((s.disp d).block + 1) (2 ^ 32 - 1) ∧ t.faces = s.faces ∧
        t.cores = s.cores ∧ (t.disp d).steps = (s.disp d).steps ∧
        (t.disp d).tasks.map (fun y => (y.seq, y.next, y.running, y.blocked)) = (s.disp d).tasks.map fun y =>
          (y.seq, y.next, y.running, y.blocked || decide (y.seq = u.seq))
      let drawn (p : State → Prop) : Prop := ∃ t, exec (.dispatchStep d) s = .next t ∧ (t.disp d).lseed.toNat = x3 ∧ p t
      (u.plan = none → (∀ c, ¬ cand c) → drawn blocks) ∧
      (∀ q, u.plan = some q → (∀ t c, ¬ starts q t c) → drawn blocks) ∧
      (u.plan = none → ∀ c k b, cand c → (∀ c', c' < c → ¬ cand c') → s.freeCtx c = some k → s.freeBase c vcnt = some b →
        drawn fun t => running t u ∧ OnlyCtx s t k ∧
          let y := t.ctx k
          y.run = .free ∧ y.pc = wordAt u.tcb 0 ∧ y.base = b ∧ y.vcount = vcnt ∧ y.rot = 8 * (w 4 / 2 ^ 52 % 16) ∧
          y.priv = 0 ∧ y.taskid = BitVec.ofNat 64 u.slot ∧ y.sreg 1 = u.va ∧ (∀ j, 1 < j → y.sreg j = 0) ∧
          y.inst = BitVec.ofNat 64 (inst % (w 4 % 2 ^ 16) + 2 ^ 16 * (inst / (w 4 % 2 ^ 16) % (w 4 / 2 ^ 16 % 2 ^ 16)) +
            2 ^ 32 * (inst / (w 4 % 2 ^ 16 * (w 4 / 2 ^ 16 % 2 ^ 16))))) ∧
      (∀ q, u.plan = some q → ∀ tick c k b, starts q tick c →
        (∀ t' c', starts q t' c' → tick < t' ∨ tick = t' ∧ c ≤ c') → s.freeCtx c = some k → s.freeBase c vcnt = some b →
        drawn fun t => (∀ j, ∃ m, t.ctx j = { s.ctx j with monitor := m }) ∧ t.cores = s.cores ∧
          t.face (faceOf c) = { s.face (faceOf c) with
            requests := Asked (s.face (faceOf c)).requests (.task d u.seq inst k b vcnt tick) } ∧
          (∀ f, f ≠ faceOf c → t.face f = s.face f) ∧ (t.disp d).steps = (s.disp d).steps ∧
          (t.disp d).tasks.map (fun y => (y.seq, y.next, y.running, y.blocked)) =
            (s.disp d).tasks.map fun y => (y.seq, y.next, y.running, y.blocked)) ∧
      -- the controller comes to the request
      (∀ f k base vc tick i q rest, (s.face f).requests = .task d u.seq i k base vc tick :: rest →
        faceOf (coreOf k) = f → s.findTask d u.seq = some u → u.plan = some q →
        let core := coreOf k
        let popped := s.onFace f fun y => { y with requests := rest }
        let fits : Prop := i = inst ∧ s.tick + q.lead ≤ tick ∧ s.halfFree core = true ∧
          (∃ n, n < 64 ∧ Tbl.find (s.face f).bookings n = none) ∧ (s.face f).admits (q.uses core tick (s.lease core)) q.ratio = true
        (¬ fits → exec (.admission f) s = .next popped) ∧
        (fits → ∃ t id y, exec (.admission f) s = .next t ∧ running t u ∧ t.ctxs = s.ctxs ∧
          Tbl.find (s.face f).bookings id = none ∧ (∀ j, j < id → Tbl.find (s.face f).bookings j ≠ none) ∧
          Tbl.find (t.face f).bookings id = some y ∧ y.start = tick ∧ y.ctx = some k ∧ y.task = some (d, u.seq, inst) ∧
          y.vbase = base ∧ y.vcnt = vc ∧ y.started = false ∧ y.rows = q.uses core tick (s.lease core) ∧ y.slack = q.slack ∧
          y.slip = (q.policy == 1) ∧ y.planIa = w 1 ∧ (t.face f).requests = rest ∧
          (t.core core).ibuf.map (fun h => (h.bid, h.base, h.size)) =
            (s.core core).ibuf.map (fun h => (h.bid, h.base, h.size)) ++ [(id, wordAt u.tcb 0, q.code)]))

/-- A task completes when every instance has ended and what they issued has completed: the edges on it are satisfied and its
slot is free, unless versions of it have still to commit; DONEACT sends its flag operation or its DONE record, and one
LATE_FINISH record follows where the deadline has passed; records leave with their nanosecond (R353, R361, R370, R373). The model's
choices: DONEACT is done before LATE_FINISH is recorded (log 75), the task that DONEACT 3 spawns has the CTXID that completed this
one (log 74), and what a flag takes to arrive (log 38). -/
def Sys2Proof.Claims.TaskEnds : Prop :=
  ∀ (s : State) (d seq : Nat) (u : Task), s.findTask d seq = some u →
    let act := (wordAt u.tcb 14).toNat
    let isOver : Prop := u.complete = false ∧ u.total ≤ u.ended ∧ s.taskBusy d u.seq = false
    let late : Bool := decide (2 ^ 47 ≤ ((wordAt u.tcb 2).toNat % 2 ^ 48 + 2 ^ 48 - s.gtc % 2 ^ 48) % 2 ^ 48) &&
      !(wordAt u.tcb 2).getLsbD 48
    let dom := (s.queue (16 * u.part + u.queue)).dom
    let record (kind sub : Nat) (id ia : Word) : Nat × Post := (4 * (0x3B0 + dom), .record u.part
      [BitVec.ofNat 64 (u.part * 2 ^ 20 + u.queue * 2 ^ 16 + sub * 2 ^ 8 + kind), BitVec.ofNat 64 s.gtc, BitVec.ofNat 64 u.slot,
        BitVec.ofNat 64 u.seq, id, 0, ia, BitVec.ofNat 64 ((wordAt u.tcb 2).toNat % 2 ^ 48)])
    let lates : List (Nat × Post) := if late then [record 2 0 0 0] else []
    (¬ isOver → exec (.taskComplete d seq) s = .next s) ∧
    (isOver → ∃ t, exec (.taskComplete d seq) s = .next t ∧
      (u.renamed = [] → (∀ v ∈ (t.disp d).tasks, v.seq ≠ seq ∧ seq ∉ v.edges) ∧
        ∀ v ∈ (s.disp d).tasks, v.seq ≠ seq → ∃ w ∈ (t.disp d).tasks, w.seq = v.seq ∧
          w.edges = v.edges.filter (fun e => e != seq)) ∧
      (u.renamed ≠ [] → ∀ v ∈ (s.disp d).tasks, ∃ w ∈ (t.disp d).tasks, w.seq = v.seq ∧ w.edges = v.edges ∧
        w.complete = (v.complete || decide (v.seq = seq))) ∧
      (act % 8 = 1 → ∃ due, s.cycle + 1 < due ∧
        { due := due, flag := act / 2 ^ 3 % 16, set := true, issued := s.cycle } ∈ (t.core (act / 2 ^ 10 % 2 ^ 9)).flagOps) ∧
      (act % 8 = 2 → ∀ ln, let ia := act / 8 * 8
        iaRegion ia ≤ 7 → Tbl.find s.lines (ia / 64) = some ln → ln.owner = u.part →
        LineWritten s t ia 8 ((ln.data / 2 ^ (8 * (ia % 64)) % 2 ^ 64 + 2 ^ 64 - 1) % 2 ^ 64) ln) ∧
      (act % 8 = 0 ∨ act % 8 = 1 ∨ act % 8 = 2 → t.outbox = s.outbox ++ lates) ∧
      (act % 8 = 4 → t.outbox = s.outbox ++ [record 6 0 0 0] ++ lates) ∧
      (act % 8 = 3 → (s.queue (16 * u.part + u.queue)).en = false →
        t.outbox = s.outbox ++ [record 3 0x80 u.lastCtx (BitVec.ofNat 64 (act / 8 * 8))] ++ lates))

/-- A version commits when its task and every older task that overlaps the page have completed, in the order of SEQ: the lines
of the page are gone, FRAME takes the fresh frame with D = 1, the old frame goes to the ready queue, and with the last version
the slot is free and the edges on the task are satisfied (R353, R361, R362). The model's choice: versions of a page commit in SEQ
order (log 76). -/
def Sys2Proof.Claims.VersionsCommit : Prop :=
  ∀ (s : State) (d seq page f : Nat) (u : Task) (e : Pte), s.findTask d seq = some u → u.renamed = [(page, f)] →
    page < 2 ^ 32 → f < 2 ^ 20 → e.w0 < 2 ^ 64 → e.w1 < 2 ^ 64 → s.peekPte d d page = some e → e.st d = 1 → d < 8 →
    let lo := (d * 2 ^ 32 + page) * 65536
    let older := (s.disp d).tasks.takeWhile fun v => v.seq != seq
    let waits : Prop := u.complete = false ∨ (∃ v f', (s.dom d).versions.find? (fun v => v.1 == page) = some (page, f', v) ∧
        v ≠ seq) ∨
      ∃ v ∈ older, v.part = u.part ∧ v.complete = false ∧ ∃ r ∈ v.ranges, rangeDom r.2.1 = some d ∧ r.2.1 < lo + 65536 ∧
        lo < r.2.2
    (waits → exec (.versionCommit d seq) s = .next s) ∧
    (¬ waits → (s.dom d).versions.find? (fun v => v.1 == page) = some (page, f, seq) →
      ∃ t, exec (.versionCommit d seq) s = .next t ∧
        (let y := t.pteMem d page
         y.st d = 1 ∧ y.frame = f ∧ y.d = true ∧ y.lba = e.lba ∧ y.owner = e.owner ∧ y.pin = e.pin) ∧
        ((s.dom d).ready.length < 256 → e.frame ∈ (t.dom d).ready) ∧ (page, f, seq) ∉ (t.dom d).versions ∧
        (∀ k, lineDom k = d → lo ≤ lineIa k → lineIa k < lo + 65536 → Tbl.find t.lines k = none) ∧
        (∀ k, lineDom k = d → (lineIa k < lo ∨ lo + 65536 ≤ lineIa k) → Tbl.find t.lines k = Tbl.find s.lines k) ∧
        (∀ v ∈ (t.disp d).tasks, v.seq ≠ seq ∧ seq ∉ v.edges))

/-- How a task leaves its table. -/
def Obligations.TaskCompletion : Prop :=
  Sys2Proof.Claims.TaskEnds ∧
  Sys2Proof.Claims.VersionsCommit

/-- Writes of a queue's registers, which leave QBASE, LSIZE and DOM alone while the queue holds a slot, and of the two rings'
heads, which take a value only at or behind the tail and no more than one ring behind it (R354, R374, R412). -/
def Sys2Proof.Claims.QueueRegisters : Prop :=
  ∀ (s : State) (p q : Nat) (v : Word),
    let n := 16 * p + q
    let held : Prop := s.queueTasks n ≠ []
    let x := s.queue n
    let w := v.toNat
    let sets (off : Nat) (y : Queue) : Prop := exec (.queueConfigWrite p q off v) s = .next (s.onQueue n fun _ => y)
    let r := s.part p
    (held → exec (.queueConfigWrite p q 0x00 v) s = .next s) ∧
    (¬ held → sets 0x00 { x with base := w % 2 ^ 52 / 128 * 128 }) ∧
    (held → sets 0x08 { x with en := w.testBit 7, tickets := w / 2 ^ 16 % 2 ^ 16 }) ∧
    (¬ held → sets 0x08 { x with
      en := w.testBit 7, tickets := w / 2 ^ 16 % 2 ^ 16, dom := w / 2 ^ 4 % 8, lsize := max 4 (min 12 (w % 16)) }) ∧
    sets 0x10 { x with wset := w % 2 ^ 52 / 64 * 64 } ∧
    (let ok (tail : BitVec 32) (ls : Nat) : Prop := (tail.toNat + 2 ^ 32 - w % 2 ^ 32) % 2 ^ 32 ≤ 2 ^ ls
     (ok r.sqtail r.sqLsize → exec (.sqheadWrite p v) s = .next (s.onPart p fun y => { y with sqhead := BitVec.ofNat 32 w })) ∧
     (¬ ok r.sqtail r.sqLsize → ∃ t, exec (.sqheadWrite p v) s = .next t ∧ ∀ k, t.part k = s.part k) ∧
     (ok r.msgtail r.msgLsize →
       exec (.msgheadWrite p v) s = .next (s.onPart p fun y => { y with msghead := BitVec.ofNat 32 w })) ∧
     (¬ ok r.msgtail r.msgLsize → ∃ t, exec (.msgheadWrite p v) s = .next t ∧ ∀ k, t.part k = s.part k))

/-- When a nanosecond of GTC ends, the records and messages posted in it leave, lower sources and contexts first: a record goes to
its partition's status ring or is counted lost, a message to its ring with its flag operation, to firmware where it is firmware's
or the supervisor has left, or is counted lost (R374, R411, R412, R441). Messages leave in the order of their GTC: one waits for
that of a context that began to stop before it (R412). That posts leave together at the end of a nanosecond is the model's own choice
(log 120), and so is that such a stop's message comes later (log 128). -/
def Sys2Proof.Claims.RingsFill : Prop :=
  ∀ (s : State) (k p : Nat) (ws : List Word) (fw : Bool), s.plat.boot ≠ .tripped → s.todo = [] →
    s.gtc ≠ (s.cycle + 1) * 5 / 9 → ws.length = 8 →
    let u : State := { s with outbox := [] }
    let r := s.part p
    let slot (base lsize : Nat) (tail : BitVec 32) : Nat := base + 64 * (tail.toNat % 2 ^ lsize)
    let put (t : State) (ia : Nat) : Prop :=
      let w := (u.writeBytes (engineReq (ia / 2 ^ 48 % 8) p) ia (bytesOfWords ws)).2
      t.mem = w.mem ∧ t.coats = w.coats ∧ t.lines = w.lines ∧
        ∀ ln, iaRegion ia ≤ 7 → ia % 64 = 0 → Tbl.find s.lines (ia / 64) = some ln → ln.owner = p →
          ∃ x, Patched x ln.data 0 64 (leNat (bytesOfWords ws)) ∧
            Tbl.find t.lines (ia / 64) = some { ln with data := x, dirty := true }
    let kind := (wordAt ws 0).toNat % 256
    let toFirmware : Prop := fw = true ∨ r.hasSup = false ∧ kind = 1
    let time (e : Nat × Post) : Nat := match e.2 with
      | .record _ _ => s.gtc
      | .message _ _ w => (wordAt w 5).toNat
    let stopped : Prop := ∀ y ∈ s.ctxs, y.2.stopping = none
    -- a record
    (s.outbox = [(k, .record p ws)] → r.sqEn = true → (r.sqtail - r.sqhead).toNat < 2 ^ r.sqLsize →
      ∃ t, step s = .next t ∧ t.outbox = [] ∧ put t (slot r.sqbase r.sqLsize r.sqtail) ∧
        t.part p = { r with sqtail := r.sqtail + 1 }) ∧
    (s.outbox = [(k, .record p ws)] → ¬ (r.sqEn = true ∧ (r.sqtail - r.sqhead).toNat < 2 ^ r.sqLsize) →
      step s = .next (u.onPart p fun q => { q with sqlost := min (q.sqlost + 1) (2 ^ 32 - 1) })) ∧
    -- a message
    (s.outbox = [(k, .message p fw ws)] → stopped → k ∉ s.plat.preempts →
      (toFirmware → step s = .next { u with plat := { s.plat with fwmsgs := s.plat.fwmsgs ++ [ws] } }) ∧
      (¬ toFirmware → r.msgEn = true → (r.msgtail - r.msghead).toNat < 2 ^ r.msgLsize →
        ∃ t, step s = .next t ∧ t.outbox = [] ∧ put t (slot r.msgbase r.msgLsize r.msgtail) ∧
          t.part p = { r with msgtail := r.msgtail + 1 } ∧
          (r.msgFlagEn = true → r.hasSup = true → ∃ due, s.cycle < due ∧
            { due := due, flag := r.msgFlag, set := true, issued := s.cycle } ∈ (t.core (r.supctx / 4)).flagOps)) ∧
      (¬ toFirmware → ¬ (r.msgEn = true ∧ (r.msgtail - r.msghead).toNat < 2 ^ r.msgLsize) →
        step s = .next (u.onPart p fun q => { q with msglost := min (q.msglost + 1) (2 ^ 32 - 1) }))) ∧
    -- their order
    (∀ j q rs y z m, s.outbox = [(j, .record q rs), (k, .message p fw ws)] → y ∈ s.ctxs → s.partOf (coreOf y.1) = p →
      y.2.stopping = some z → m ∈ z.msgs → (wordAt m.2 5).toNat < (wordAt ws 5).toNat →
      step s = .next (({ s with outbox := [(k, .message p fw ws)] }).sendPost j (.record q rs))) ∧
    ∀ a b : Nat × Post, stopped → s.outbox = [a, b] → step s = .next
      (if time a < time b ∨ (time a = time b ∧ a.1 ≤ b.1) then (u.sendPost a.1 a.2).sendPost b.1 b.2 else (u.sendPost b.1 b.2).sendPost a.1 a.2)

/-- Writes of registers: a write outside every block, or one that its block or its access code does not admit, has no effect;
one of a register whose write is an event of its own is next in the cycle; another stores the fields that its map names (R7,
R364, R403, R404, R445, R449). -/
def Sys2Proof.Claims.RegisterWrites : Prop :=
  ∀ (s : State) (p q d f : Nat) (v : Word), p < 16 → q < 16 → q ≠ p → d < 8 → f < 32 →
    let w := v.toNat
    let ctl (q off : Nat) : Nat := 0xF00000B000000 + 0x1000 * q + off
    let none' (priv ia : Nat) : Prop := exec (.registerWrite priv p ia v) s = .next s
    let part (priv off : Nat) (g : Part → Part) : Prop := exec (.registerWrite priv p (ctl p off) v) s = .next (s.onPart p g)
    (∀ priv ia, ia / 2 ^ 48 ≠ 0xF → none' priv ia) ∧
    (∀ priv off, priv < 2 → off < 0x1000 → none' priv (ctl q off)) ∧
    (∀ off, off ∈ [0x28, 0x30, 0x38, 0x48, 0x60, 0x68, 0x70, 0x78] → none' 0 (ctl p off)) ∧
    (∀ priv off, priv < 2 → off ∈ [0x00, 0x10, 0x50, 0x58] → none' priv (ctl p off)) ∧
    (∀ off, off ∈ [0x20, 0x40, 0x78] →
      exec (.registerWrite 1 p (ctl p off) v) s = .next { s with todo := .write 1 p (ctl p off) v :: s.todo }) ∧
    part 1 0x28 (fun x => { x with wdlimit := w % 2 ^ 32 }) ∧
    part 1 0x30 (fun x => { x with stoppc := BitVec.ofNat 64 (w / 32 * 32) }) ∧
    part 1 0x60 (fun x => { x with savebase := w % 2 ^ 52 / 64 * 64 }) ∧
    part 1 0x68 (fun x => { x with msgbase := w % 2 ^ 52 / 64 * 64 }) ∧
    part 1 0x70 (fun x => { x with
      msgLsize := max 4 (min 12 (w % 16)), msgEn := w.testBit 7, msgFlag := w / 2 ^ 8 % 16, msgFlagEn := w.testBit 12 }) ∧
    part 2 0x10 (fun x => { x with fquota := w % 2 ^ 20 }) ∧
    part 2 0x50 (fun x => { x with spill := w.testBit 0 }) ∧
    part 2 0x58 (fun x => { x with fshare := min 64 (w % 128) }) ∧
    ((s.part p).run = true → exec (.registerWrite 2 p (ctl p 0) v) s = .next s) ∧
    ((s.part p).run = false → (∀ k r, k < 32 → r < 16 → r ≠ p → v.getLsbD k = true → s.owns r k = false) →
      part 2 0x00 (fun x => { x with pfaces := BitVec.ofNat 32 w })) ∧
    (w % 2 ^ 32 = 0 → exec (.registerWrite 2 p (0xF000009000000 + 0x100 * d) v) s = .next s) ∧
    (w % 2 ^ 32 ≠ 0 → exec (.registerWrite 2 p (0xF000009000000 + 0x100 * d) v) s = .next
      (s.onDisp d fun x => { x with lseed := BitVec.ofNat 32 w })) ∧
    exec (.registerWrite 2 p 0xF00000C000018 v) s = .next
      { s with plat := { s.plat with plimit := max 1200 (min 3600 (w % 2 ^ 16)) } } ∧
    (v.getLsbD 0 = true → exec (.registerWrite 2 p (0xF00000C001000 + 0x100 * f) v) s = .next
      (s.onFace f fun x => { x with dvalid := false }))

/-- Writes to configuration space, and what leaves for the rings. -/
def Obligations.RegisterWritesAndHeads : Prop :=
  Sys2Proof.Claims.QueueRegisters ∧
  Sys2Proof.Claims.RingsFill ∧
  Sys2Proof.Claims.RegisterWrites

/-- A write of START: BUSY while the partition runs, BADENTRY with the lowest failing index, NOSUP, or the launch of context 0 of
every valid entry's core at the first tick that begins at least two ticks later (R97 to R100). The model's choices: that tick is
counted from the write's cycle, and what an unreadable table or window set gives (logs 81, 115). -/
def Sys2Proof.Claims.StartWrites : Prop :=
  ∀ (s z : State) (p : Nat) (v : Word) (bs : List Byte),
    let table := v.toNat % 2 ^ 52 / 64 * 64
    let u := s.onPart p fun q => { q with table := table }
    let cores := s.coresOf p
    let word (i k : Nat) : Word := BitVec.ofNat 64 (leNat ((bs.drop (32 * i + 8 * k)).take 8))
    let valid (i : Nat) : Bool := decide (i < cores.length) && (word i 1).getLsbD 15
    let sup (i : Nat) : Prop := valid i = true ∧ (word i 1).getLsbD 8 = true
    let vcnt (i : Nat) : Nat := (word i 1).toNat % 16
    let rot (i : Nat) : Nat := (word i 1).toNat / 16 % 16
    let good (i : Nat) : Prop := (word i 0).toNat % 32 = 0 ∧ 1 ≤ vcnt i ∧ vcnt i ≤ 4 ∧ rot i ≤ 2 ∧ 8 * rot i ≤ 16 * vcnt i ∧
      (word i 2).toNat % 64 = 0 ∧ (word i 1).toNat / 2 ^ 16 = 0 ∧ (word i 1).toNat / 2 ^ 9 % 64 = 0
    let go : Prop := (s.part p).run = false ∧ v.getLsbD 0 = true ∧ s.plat.boot = .running ∧
      u.readBytes (engineReq (table / 2 ^ 48 % 8) p) table (512 * (s.facesOf p).length) = (.ok bs, z)
    let entry (l : Launch) : Nat × Nat × List Word := (l.due, l.core, l.words.take 4)
    ((s.part p).run = true → v.getLsbD 0 = true → ∃ t, exec (.start p v) s = .next t ∧
      (t.part p).startErr = 1 ∧ (t.part p).table = (s.part p).table ∧ (t.part p).run = true ∧ t.launches = s.launches) ∧
    (v.getLsbD 0 = false → exec (.start p v) s = .next u) ∧
    (∀ i, go → valid i = true → ¬ good i → (∀ j, j < i → valid j = true → good j) → ∃ t, exec (.start p v) s = .next t ∧
      (t.part p).startErr = 2 ∧ (t.part p).badidx = i ∧ (t.part p).run = false ∧ t.launches = s.launches) ∧
    (go → (∀ i, valid i = true → good i) → (¬ ∃! i, sup i) → ∃ t, exec (.start p v) s = .next t ∧
      (t.part p).startErr = 3 ∧ (t.part p).run = false ∧ t.launches = s.launches) ∧
    (∀ i, go → (∀ j, valid j = true → good j) → sup i → (∀ j, sup j → j = i) → ∃ t, exec (.start p v) s = .next t ∧
      (t.part p).startErr = 0 ∧ (t.part p).run = true ∧ (t.part p).supctx = 4 * cores.getD i 0 ∧ (t.part p).hasSup = true ∧
      t.launches.map entry = s.launches.map entry ++ ((List.range cores.length).filter valid).map fun j =>
        ((s.cycle + 64 + 31) / 32 * 32, cores.getD j 0, [word j 0, word j 1, word j 2, word j 3])) ∧
    -- the address windows of a context: the 256 bytes at its WSET
    (∀ i b w, go → (∀ j, valid j = true ↔ j = i) → good i → sup i →
      (z.onPart p fun q => { q with run := true, startErr := 0, supctx := 4 * cores.getD i 0, hasSup := true }).readBytes
        (engineReq ((word i 2).toNat / 2 ^ 48 % 8) p) (word i 2).toNat 256 = (.ok b, w) →
      ∃ t l, exec (.start p v) s = .next t ∧ t.launches = s.launches ++ [l] ∧ l.words.length = 36 ∧
        ∀ j, j < 32 → l.words.getD (4 + j) 0 = BitVec.ofNat 64 (leNat ((b.drop (8 * j)).take 8)))

/-- A partition reset halts every context of the owned faces, frees their bookings, cancels copies, collectives, macro-ops and
handle commands, clears tasks, versions, flags, counters and the message ring, and leaves memory, coats and everything on the
faces of others as it is (R405). The model's choices: the reset is one event, BUSY lasts a free time, the accumulators and the
vector registers stay, and a card of the partition's handles goes on uncounted (log 83). -/
def Sys2Proof.Claims.PartitionReset : Prop :=
  ∀ (s : State) (p : Nat) (v : Word),
    (v.getLsbD 0 = false ∨ (s.part p).rbusy = true → exec (.preset p v) s = .next s) ∧
    (exec (.presetDone p) s = .next (s.onPart p fun q => { q with rbusy := false })) ∧
    (v.getLsbD 0 = true → (s.part p).rbusy = false → ∃ t, exec (.preset p v) s = .next t ∧
      (let q := t.part p
       q.run = false ∧ q.rbusy = true ∧ q.hasSup = false ∧ q.msgbase = 0 ∧ q.msgLsize = 0 ∧ q.msgEn = false ∧ q.msgFlag = 0 ∧
         q.msgFlagEn = false ∧ q.msghead = 0 ∧ q.msgtail = 0 ∧ q.msglost = 0 ∧ q.pfaces = (s.part p).pfaces) ∧
      (∃ due, s.cycle < due ∧ { due := due, src := srcMgmt, ev := .presetDone p } ∈ t.agenda) ∧
      t.mem = s.mem ∧ t.coats = s.coats ∧
      (∀ f, s.owns p f = true → (t.face f).bookings = [] ∧ (t.face f).requests = [] ∧
        (∀ c, 64 * f ≤ c → c < 64 * f + 64 → (t.ctx c).run = .halted ∧ (t.ctx c).pending = [] ∧ (t.ctx c).inflight = []) ∧
        (∀ k, 16 * f ≤ k → k < 16 * f + 16 → (t.core k).flags = 0 ∧ (t.core k).landing = [] ∧ (t.core k).tags = [] ∧
          (t.core k).vreg = (s.core k).vreg) ∧
        (∀ n, 8 * f ≤ n → n < 8 * f + 8 → (t.pair n).queues = [] ∧ (t.pair n).counters = [] ∧ (t.pair n).cancelQ = [] ∧
          (t.pair n).acc = (s.pair n).acc) ∧
        ∀ e, 4 * f ≤ e → e < 4 * f + 4 → (t.engine e).queue = []) ∧
      (∀ f, s.owns p f = false → t.face f = s.face f ∧
        (∀ c, 64 * f ≤ c → c < 64 * f + 64 → t.ctx c = s.ctx c) ∧
        (∀ k, 16 * f ≤ k → k < 16 * f + 16 → t.core k = s.core k) ∧
        (∀ n, 8 * f ≤ n → n < 8 * f + 8 → t.pair n = s.pair n) ∧
        ∀ e, 4 * f ≤ e → e < 4 * f + 4 → t.engine e = s.engine e) ∧
      (∀ k c, (k, c) ∈ t.colls → c.part ≠ p) ∧ (∀ r ∈ t.resumes, r.part ≠ p) ∧ (∀ r ∈ t.spawns, r.part ≠ p) ∧
      (∀ d, d < 8 → (∀ u ∈ (t.disp d).tasks, u.part ≠ p) ∧ (∀ c ∈ (t.stack d).cmds, c.part ≠ p) ∧
        (t.disp d).tasks.map Task.seq = ((s.disp d).tasks.filter fun u => u.part != p).map Task.seq ∧
        ∀ x ∈ (t.dom d).versions, ∀ u ∈ (s.disp d).tasks, u.part = p → x.2.2 ≠ u.seq) ∧
      (∀ d, d < 8 → (t.stack d).cards.map (fun x => (x.handle, x.orphan)) = (s.stack d).cards.map fun x =>
        (x.handle, x.orphan || decide ((s.handle x.handle).owner = p ∧ (s.handle x.handle).st ≠ 0))) ∧
      (∀ h, (s.handle h).owner = p → (t.handle h).st = 0) ∧
      ∀ h, (s.handle h).owner ≠ p → t.handle h = s.handle h)

/-- How a partition starts and how it is reset. -/
def Obligations.PartitionControl : Prop :=
  Sys2Proof.Claims.StartWrites ∧
  Sys2Proof.Claims.PartitionReset

/-- MACHINE stops every context of the partitions that it may have touched, without a save area, reports to firmware, and
firmware resets those partitions next; the contexts of the others go on as they were (R408). The model's choices: the words of the
report, TCAUSE 0x1F, and that firmware resets at once (log 84). -/
def Sys2Proof.Claims.MachineError : Prop :=
  ∀ (s : State) (mask : Nat), mask < 2 ^ 16 →
    let hit (f : Nat) : Prop := ∃ p, p < 16 ∧ mask.testBit p = true ∧ s.owns p f = true
    ∃ t, exec (.machine mask) s = .next t ∧
      (∀ c, hit (c / 64) → (t.ctx c).run = .halted ∧
        ((s.ctx c).run ≠ .halted → (t.ctx c).tcause = 0x1F ∧ (t.ctx c).tpc = (s.ctx c).pc)) ∧
      (∀ c, ¬ hit (c / 64) → t.ctx c = s.ctx c) ∧ t.mem = s.mem ∧ t.coats = s.coats ∧
      (∃ ws : List Word, t.plat.fwmsgs = s.plat.fwmsgs ++ [ws] ∧ wordAt ws 0 = 0x1F01 ∧ wordAt ws 1 = BitVec.ofNat 64 mask ∧
        wordAt ws 5 = BitVec.ofNat 64 s.gtc) ∧
      t.todo = ((List.range 16).filter fun p => mask.testBit p).map
        (fun p => Item.write 2 p (0xF00000B000000 + 0x1000 * p + 0x20) 1) ++ s.todo

/-- A warm reset, by the mailbox or a conventional reset: every partition is reset and has no reset going on, dirty lines are
written back and no line is left, the accumulators keep what they hold, a valid repair record goes to the soft-repair registers of
its die, and a die without one has coat 0xFF in its whole retained region (R225, R405, R431, R438). What a record holds beside
its version and CRC-32C is the model's own choice (log 114), and so are the single step, the coats of a die without a valid record
and the accumulators (log 93). -/
def Sys2Proof.Claims.WarmReset : Prop :=
  ∀ (s : State) (ld : Nat),
    let warm (t : State) : Prop :=
      t.plat.cause = 1 ∧ t.lines = [] ∧ (∀ p, (t.pair p).acc = (s.pair p).acc) ∧
      (∀ p, p < 16 → (t.part p).run = false ∧ (t.part p).rbusy = false ∧ (t.part p).msgEn = false ∧
        ∀ f, s.owns p f = true → (t.face f).bookings = [] ∧
          ∀ c, 64 * f ≤ c → c < 64 * f + 64 → (t.ctx c).run = .halted) ∧
      (∀ key ln e, s.lines.Pairwise (fun a b => a.1 < b.1) → Tbl.find s.lines key = some ln → ln.dirty = true → key < 2 ^ 45 →
        (∀ k y, Tbl.find s.lines k = some y → y.dirty = true → k = key) →
        (let d := key / 2 ^ 42
         EntryIs s d d (key / 1024 % 2 ^ 32) e → e.w0 < 2 ^ 64 → e.st d = 1 → e.owner = ln.owner →
          blockIn t (hbmPlace d (65536 * e.frame + 64 * key % 65536)) = { data := ln.data % 2 ^ 512, coat := ln.coat })) ∧
      ∃ n, ∀ d, d < 4 →
        (∀ r, Tbl.find s.plat.records d = some r → r.valid n d = true → Tbl.find t.plat.soft d = some r.lanes) ∧
        ((∀ r, Tbl.find s.plat.records d = some r → r.valid n d = false) → Tbl.find t.plat.soft d = none ∧
          (∀ p, 64 * d ≤ p → p < 64 * d + 64 → (∀ o, o < 2 ^ 21 → coatGet t.coats (scratchPlace p o) = 0x00FF) ∧
            ∀ half o, o < 2 ^ 24 → coatGet t.coats (wbankPlace p half o) = 0x00FF) ∧
          ∀ i o, 384 * d ≤ i → i < 384 * d + 384 → o < 65536 * (16 - (s.slice i).w) →
            coatGet t.coats (stagingPlace i o) = 0x00FF)
    (s.plat.boot = .running → ∃ t, exec (.wreset 16) s = .next t ∧ warm t ∧ t.plat.rc = 0) ∧
    (s.plat.boot = .running → ∃ t, exec .conventionalReset s = .next t ∧ warm t) ∧
    (s.plat.boot = .running → ld ≠ 16 → exec (.wreset ld) s = .next
      { s with plat := { s.plat with reply := [], rc := 0x15 } }) ∧
    (s.plat.boot ≠ .running → exec .conventionalReset s = .next s)

/-- A machine error, and a warm reset of the package. -/
def Obligations.MachineAndWarmReset : Prop :=
  Sys2Proof.Claims.MachineError ∧
  Sys2Proof.Claims.WarmReset

/-- A COLL at its engine's head reads its descriptor. It joins: its receive tiles become zero with coat 0x0006, its counters are
ARMED with PLANES 0, and the command keeps its entry; or, for a descriptor that R383 or R384 refuses, it completes alone with
BADDESC. The statement's second half names reasons of R383 and R384. What members in other packages have sent before, under the JOB
of their entries in the peer table, is taken over, and where the collective has ended early the new counters set ERROR (R381, R383,
R384, R388, R400, R447). The model's choices: a CID is one partition's (log 78), an ME past NMEM is found at the engine's head
(log 117), and LIMIT's event has the source number 0x3C3 (log 118). -/
def Sys2Proof.Claims.CollectiveJoins : Prop :=
  ∀ (s z : State) (e id : Nat) (c : CopyCmd) (d : Desc), s.joinReady e = some c → c.id = id → s.readDesc c = (.ok d, z) →
    let me := (c.group.getD 1 0).toNat
    let k := c.part * 2 ^ 48 + d.cid
    let x := d.members.getD me {}
    let rx := if d.op = 2 then (if me = d.root then d.nmem * d.nt else 0) else d.nt
    let owner := 4 * c.core + c.ctx
    let jobs := ((d.members.filter fun y => y.peer != 0).map fun y =>
      (Tbl.look (s.part c.part).peers y.peer 0).toNat / 2 ^ 32 % 2 ^ 16).eraseDups
    let before (j : Nat) : Option Coll := s.coll? ((j + 1) * 2 ^ 52 + k)
    let begun : Option Coll := (s.coll? k).orElse fun _ => (jobs.filterMap before).head?
    let joins (t : State) : Prop :=
      (∃ y, t.coll? k = some y ∧ (y.member me).joined = true ∧ (y.member me).core = c.core ∧ (y.member me).ctx = c.ctx ∧
        (y.member me).tag = c.tag ∧ (y.member me).cmd = c.id ∧ (y.member me).limit = c.group.getD 2 0 ∧
        (y.member me).planes = 0 ∧ y.hdr = wordAt d.head 0 ∧
        (s.coll? k = none → y.op = d.op ∧ y.q = d.q ∧ y.nt = d.nt ∧ y.root = d.root ∧ y.uns = d.uns) ∧
        ∀ i, i < rx → ({ m := me, t := i } : RTile) ∈ y.tiles) ∧
      (∀ i, i < 64 * rx → t.blockAt (scratchPlace x.pair (x.rbuf % 2 ^ 21 + 64 * i)) = { data := 0, coat := 0x0006 }) ∧
      (∀ i, i < rx → (t.pair x.pair).counter (x.cbase + i) = { tag := c.tag, core := c.core % 2, armed := true, qt := d.q }) ∧
      (∀ y ∈ (t.engine e).queue, y.id = c.id → y.joined = true) ∧
      (t.engine e).queue.map CopyCmd.id = (s.engine e).queue.map CopyCmd.id ∧
      (c.group.getD 2 0 ≠ 0 → ∃ due, { due := due, src := srcFabric, ev := .collAbsent k } ∈ t.agenda)
    let alone (t : State) : Prop :=
      (t.ctx owner).tags = (s.ctx owner).tags ||| BitVec.ofNat 64 (2 ^ c.tag) ∧
      Tbl.look (t.core c.core).tstat c.tag 0 = 0x0A ∧ (Tbl.look (t.core c.core).tags c.tag {}).busy = false ∧
      (t.engine e).queue = (s.engine e).queue.filter (fun y => y.id != c.id) ∧ t.coll? k = s.coll? k ∧
      (t.pair x.pair).counters = (s.pair x.pair).counters
    let again : Prop := ∃ y, begun = some y ∧ (y.hdr ≠ wordAt d.head 0 ∨ (y.member me).joined = true)
    (z.groupDescOk c d = true → ¬ again → c.cancelled = false → (∀ j ∈ jobs, before j = none) →
      (∀ y, s.coll? k = some y → y.cancel = false ∧ y.absent = false ∧ y.peerlost = false ∧ y.members.length = d.nmem) →
      ∃ t, exec (.collJoin e id) s = .next t ∧ joins t) ∧
    (∀ y, z.groupDescOk c d = true → ¬ again → c.cancelled = false → (∀ j ∈ jobs, before j = none) → s.coll? k = some y →
      y.cancel = false → y.absent = true ∨ y.peerlost = true → y.members.length = d.nmem → ∃ t, exec (.collJoin e id) s = .next t ∧
        ∀ i, i < rx → ((t.pair x.pair).counter (x.cbase + i)).error = true) ∧
    (∀ j p i, z.groupDescOk c d = true → ¬ again → c.cancelled = false → s.coll? k = none → jobs = [j] → before j = some p →
      p.cancel = false → i < d.nmem → i ≠ me → (d.members.getD i {}).peer ≠ 0 → (p.member i).joined = true →
      (p.member i).job = some j → ∃ t y, exec (.collJoin e id) s = .next t ∧ t.coll? k = some y ∧ (y.member me).joined = true ∧
        (y.member i).joined = true ∧ (y.member i).ended = (p.member i).ended ∧ t.coll? ((j + 1) * 2 ^ 52 + k) = none) ∧
    (z.groupDescOk c d = false ∨ again → ∃ t, exec (.collJoin e id) s = .next t ∧ alone t) ∧
    (d.op ≠ c.xop ∨ d.nmem < 2 ∨ 32 < d.nmem ∨ d.q = 0 ∨ 8 < d.q ∨ d.nt = 0 ∨ 256 < d.nt ∨ d.nmem ≤ me ∨ x.peer ≠ 0 ∨
        x.pair ≠ c.core / 2 ∨ (∃ i, i < rx ∧ (let y := (s.pair x.pair).counter (x.cbase + i)
          y.armed = true ∧ y.done = false ∧ y.cancelled = false ∧ y.error = false)) →
      ∃ t, exec (.collJoin e id) s = .next t ∧ alone t)

/-- A collective completes at every member in one step, with the first status that applies; it ends with ABSENT when a LIMIT
passes before every member has joined and with PEERLOST when the port finds a peer unreachable, and then every unfinished tile
sets ERROR, one that is being written when its plane has landed; messages of a peer package that have its JOB, a message's first
two bytes, join, cancel and end its members and bring its planes, and those of another JOB are kept apart from it (R384, R396,
R397, R399, R400, R447). The model's choices: the form of those messages (log 80), and when a tile of mixed scales is over
(log 126). -/
def Sys2Proof.Claims.CollectiveEnds : Prop :=
  ∀ (s : State) (k : Nat) (c : Coll), s.coll? k = some c →
    let nmem := c.members.length
    let ended (r : RTile) : Prop := r.busy = none ∧ (c.q ≤ r.planes ∨ r.cancelled = true ∨ r.failed = true ∨
      r.mixed = true ∧ c.gathered r.m r.t r.planes = false)
    let sent (m : Nat) : Prop :=
      let x := c.member m
      if x.peer ≠ 0 then x.ended = true
      else c.sends m = 0 ∨ x.flits = 0 ∧ (c.q ≤ x.planes ∨ x.stopped = true)
    let lost : Prop := c.absent = true ∨ c.peerlost = true
    let isOver : Prop := lost ∧ (∀ r ∈ c.tiles, r.wrote = 0) ∨ (∀ x ∈ c.members, x.joined = true) ∧ (∀ m, m < nmem → sent m) ∧
      ∀ r ∈ c.tiles, (c.member r.m).peer = 0 → ended r
    let here (m : Nat) : Prop := m < nmem ∧ (c.member m).joined = true ∧ (c.member m).peer = 0
    let status (m : Nat) : Nat :=
      let mine := c.tiles.filter fun r => r.m == m
      if c.absent then 0x0B else if c.peerlost then 0x0D
      else if c.cancel || mine.any RTile.cancelled then 0x06
      else if mine.any RTile.mixed then 0x0C
      else if mine.any fun r => !r.poisoned.isEmpty then 0x05 else 0
    let fails (t : State) (y : Coll) : Prop := t.coll? k = some y ∧ t.mem = s.mem ∧
      y.tiles = c.tiles.map (fun r =>
        if r.planes < c.q ∧ r.cancelled = false ∧ r.wrote = 0 then { r with failed := true, busy := none } else r) ∧
      ∀ r ∈ c.tiles, r.planes < c.q → r.cancelled = false → r.wrote = 0 → r.owns = true → (c.member r.m).peer = 0 →
        ((t.pair (c.member r.m).pair).counter ((c.member r.m).cbase + r.t)).error = true
    let late : Prop := ∃ x ∈ c.members, x.joined = true ∧ x.limit ≠ 0 ∧ x.limit.toNat ≤ s.gtc
    let open' : Prop := ∃ x ∈ c.members, x.joined = false
    (¬ isOver → exec (.collComplete k) s = .next s) ∧
    (∀ z : Nat → CopyCmd, isOver →
      (∀ m, here m → (s.engine (c.member m).eng).queue.find? (fun y => y.id == (c.member m).cmd) = some (z m)) →
      (∀ m, here m → (z m).tag < 64) →
      (∀ m m', here m → here m' → m ≠ m' → (z m).id ≠ (z m').id ∧ ((z m).core ≠ (z m').core ∨ (z m).tag ≠ (z m').tag)) →
      ∃ t, exec (.collComplete k) s = .next t ∧ t.coll? k = none ∧ t.mem = s.mem ∧
        ∀ m, here m → (t.ctx (4 * (z m).core + (z m).ctx)).tags.getLsbD (z m).tag = true ∧
          Tbl.look (t.core (z m).core).tstat (z m).tag 0 = BitVec.ofNat 8 (status m) ∧
          (Tbl.look (t.core (z m).core).tags (z m).tag {}).busy = false ∧
          ∀ y ∈ (t.engine (c.member m).eng).queue, y.id ≠ (z m).id) ∧
    (open' → ¬ lost → late → ∃ t y, exec (.collAbsent k) s = .next t ∧ fails t y ∧ y.absent = true) ∧
    (¬ open' ∨ lost ∨ ¬ late → exec (.collAbsent k) s = .next s) ∧
    (¬ lost → (∃ x ∈ c.members, x.peer ≠ 0) → ∃ t y, exec (.peerlost k) s = .next t ∧ fails t y ∧ y.peerlost = true) ∧
    (lost ∨ (∀ x ∈ c.members, x.peer = 0) → exec (.peerlost k) s = .next s) ∧
    (∀ m t scale msg, m < nmem → (c.member m).peer ≠ 0 → ¬ lost →
      let job : Nat := leNat (msg.take 2)
      let bits : List Byte := msg.drop 2
      let itsJob : Prop := (Tbl.look (s.part c.part).peers (c.member m).peer 0).toNat / 2 ^ 32 % 2 ^ 16 = job
      let apart := (job + 1) * 2 ^ 52 + k
      (∀ j, ¬ itsJob → ∃ u, exec (.peerPacket k m t j scale msg) s = .next u ∧ u.coll? k = some c ∧ u.mem = s.mem ∧
        u.ctxs = s.ctxs) ∧
      (∀ j, ¬ itsJob → j ≠ 8 → s.coll? apart = none → exec (.peerPacket k m t j scale msg) s = .next s) ∧
      (¬ itsJob → s.coll? apart = none → m < leNat (bits.take 8) % 256 → ∃ u y, exec (.peerPacket k m t 8 scale msg) s = .next u ∧
        u.coll? apart = some y ∧ y.hdr = BitVec.ofNat 64 (leNat (bits.take 8)) ∧ (y.member m).joined = true ∧
        (y.member m).job = some job) ∧
      (itsJob → (c.member m).joined = true → ∃ u y, exec (.peerPacket k m t 9 scale msg) s = .next u ∧
        u.coll? k = some y ∧ ({ m := m, t := t, cancelled := true } : RTile) ∈ y.tiles ∧ u.mem = s.mem) ∧
      (itsJob → (c.member m).joined = false → c.hdr = BitVec.ofNat 64 (leNat (bits.take 8)) → ∃ u y,
        exec (.peerPacket k m t 8 scale msg) s = .next u ∧ u.coll? k = some y ∧ (y.member m).joined = true ∧
        (y.member m).job = some job) ∧
      (itsJob → (c.member m).joined = true → ∃ u y, exec (.peerPacket k m t 10 scale msg) s = .next u ∧
        u.coll? k = some y ∧ y.cancel = true) ∧
      (itsJob → (c.member m).joined = true → ∃ u y, exec (.peerPacket k m t 11 scale msg) s = .next u ∧
        u.coll? k = some y ∧ (y.member m).ended = true) ∧
      (∀ i, itsJob → (c.member m).joined = true → i < c.q → c.q ≤ 8 → t < c.sends m → c.plane? m t i = none → ∃ u y,
        exec (.peerPacket k m t (7 - i) scale msg) s = .next u ∧ u.coll? k = some y ∧
        y.plane? m t i = some (bits.take 128)))

/-- How members join a collective and how it ends. -/
def Obligations.CollectiveMembership : Prop :=
  Sys2Proof.Claims.CollectiveJoins ∧
  Sys2Proof.Claims.CollectiveEnds

/-- A sender that every member has joined sends one whole plane in a link step of up to 272 flits, two for each tile, in a FREE
span of its link row or in the owned ticks of the plane: the bits are bit 7 - i of the tile's elements, zero where the first plane
found a zero block or a poisoned one, the scale and the poisoned blocks go with the tile, and the landing of every receive tile
that all its contributors have reached comes later. A step carries flits of one tick: no more than the rest of the tick has time for.
A booked sender whose ticks are not its task's owes an OVERRUN (R73, R377, R385, R387, R395). The model's choices: a plane is read when
its first step begins (log 79), and a step is cut at the end of its tick (log 145). -/
def Sys2Proof.Claims.PlanesAreSent : Prop :=
  ∀ (s : State) (k m : Nat) (c : Coll), s.coll? k = some c → m < c.members.length → c.q ≤ 8 →
    let x := c.member m
    let i := x.planes
    let tiles := (List.range (c.sends m)).filter fun t => !x.heard.contains t
    let row := 0x164 + x.lrow
    let f := s.face (x.pair / 8)
    let owner := 4 * x.core + x.ctx
    let block (t r : Nat) : BlockVal := s.blockAt (scratchPlace x.pair (x.sbuf % 2 ^ 21 + 1024 * t + 64 * r))
    let bit (t el : Nat) : Bool := (block t (el / 64)).data.testBit (8 * (el % 64) + 7 - i)
    let poison (t r : Nat) : Bool := coatPoison (block t r).coat
    let zero (t r : Nat) : Bool := coatZero (block t r).coat
    let live (t r : Nat) : Prop :=
      poison t r = false ∧ zero t r = false ∧ coatCode (block t r).coat = (if c.uns then 0x09 else 0x08)
    let cycles := max 1 ((64 * tiles.length + 271) / 272)
    let owned : Prop := ∃ b y, s.memberBid x = some b ∧ Tbl.find f.bookings b = some y ∧
      (let t0 := y.start + x.loff + i * x.pticks
       t0 ≤ s.tick ∧ s.tick < t0 + x.pticks ∧ ∀ u, s.tick ≤ u → u < t0 + x.pticks → f.owner row u = .bid b)
    let carried (p : List Byte) (b : Nat → Bool) : Prop := p.length = 128 ∧
      ∀ el, el < 1024 → (p.getD (el / 8) 0).getLsbD (el % 8) = b el
    (∀ y ∈ c.members, y.joined = true) → c.absent = false → c.peerlost = false → x.peer = 0 → i < c.q → x.stopped = false →
    x.flits = 0 → x.next ≤ s.cycle → tiles ≠ [] → 2 * tiles.length ≤ 272 * (32 - s.cycle % 32) / 32 →
    (2 * tiles.length ≤ s.flitsLeft (x.pair / 8) row →
      (s.memberBid x = none ∧ f.freeCycles row s.cycle (s.cycle + cycles - 1) = true ∨ owned) →
      ∃ t y, exec (.planeSend k m) s = .next t ∧ t.mem = s.mem ∧ t.coats = s.coats ∧ t.coll? k = some y ∧
        (y.member m).planes = i + 1 ∧
        (y.member m).next = (if s.memberBid x = none then s.cycle + cycles else 32 * (s.tick + 1)) ∧
        t.flitsLeft (x.pair / 8) row = s.flitsLeft (x.pair / 8) row - 2 * tiles.length ∧
        -- the first plane of a tile
        (∀ n ∈ tiles, c.plane? m n i = none → (∀ sc ∈ x.scales, sc.1 ≠ n) → (∀ z ∈ x.silent, z.1 ≠ n) →
          ∃ p e bad, y.plane? m n i = some p ∧ (n, e, bad) ∈ (y.member m).scales ∧
            (∀ r, r < 16 → live n r → (∀ r', r' < r → ¬ live n r') → e = BitVec.ofInt 8 (coatE (block n r).coat)) ∧
            ((∀ r, r < 16 → ¬ live n r) → e = 0) ∧
            (∀ r, r ∈ bad ↔ r < 16 ∧ (poison n r = true ∨ zero n r = false ∧
              ¬ (live n r ∧ BitVec.ofInt 8 (coatE (block n r).coat) = e))) ∧
            carried p fun el => !bad.contains (el / 64) && !zero n (el / 64) && bit n el) ∧
        -- a later one
        (∀ n ∈ tiles, ∀ l e bad, c.plane? m n i = none → x.scales.find? (fun z => z.1 == n) = some (n, e, bad) →
          x.silent.find? (fun z => z.1 == n) = some (n, l) → ∃ p, y.plane? m n i = some p ∧
            carried p fun el => !l.contains (el / 64) && bit n el) ∧
        ∀ n ∈ tiles, ∀ r u, (r, u) ∈ c.sinks m n → (c.member r).peer = 0 → y.gathered r u i = true →
          ∃ due, s.cycle < due ∧ { due := due, src := srcFabric, ev := .planeLanding k r u (7 - i) } ∈ t.agenda) ∧
    (∀ b y t', s.memberBid x = some b → Tbl.find f.bookings b = some y →
      let t0 := y.start + x.loff + i * x.pticks
      t0 ≤ s.tick → s.tick ≤ t' → t' < t0 + x.pticks → f.owner row t' ≠ .bid b → (s.ctx owner).run = .booked →
      (∀ v ∈ (s.ctx owner).late, v.fell < s.cycle) → ∃ t z, exec (.planeSend k m) s = .next t ∧ t.coll? k = some z ∧
        z.sent = c.sent ∧ (z.member m).planes = i ∧
        t.ctx owner = { s.ctx owner with
          late := (s.ctx owner).late ++ [{ code := 0x10, addr := BitVec.ofNat 64 row, slot := 6, fell := s.cycle }] })

/-- A plane that has come to a receive tile waits for the one before it and begins to land. In each tick it waits for banks that are
booked to others and for the units that come before it, and then writes a cell of 128 bytes in each cycle up to the tick's end: every
element of those cells has taken weight times the number of contributors whose bit is 1, modulo 2^32, and each of their blocks has the
tile's scale with CODE 0x06, or 0xFF where a contributor's block was poisoned or the scales disagree. After the 32 cells the plane has
landed and the counter advances (R172, R378, R385 to R388, R392, R400). The model's choices: the cells of a tick change in its first
cycle, when their banks are held (log 79), and the events have the source number 0x3C3 (log 118). -/
def Sys2Proof.Claims.PlanesLandInTiles : Prop :=
  ∀ (s : State) (k m n i : Nat) (c : Coll) (r : RTile), s.coll? k = some c → c.tile? m n = some r → i < c.q → c.q ≤ 8 →
    (c.member m).peer = 0 → c.gathered m n i = true → c.lost = false ∨ r.wrote ≠ 0 → r.cancelled = false → r.failed = false →
    let x := c.member m
    let o := x.rbuf % 2 ^ 21 + 4096 * n
    let place (b : Nat) : Nat := scratchPlace x.pair (o + 64 * b)
    let mine (row : Nat) : Prop := (s.face (x.pair / 8)).owner row s.tick = .free ∨
      ∃ b, s.memberBid x = some b ∧ (s.face (x.pair / 8)).owner row s.tick = .bid b
    -- the cells of this tick: from r.wrote on, len of them, the first near of them in the tile's first bank
    let len := min (32 - r.wrote) (32 - s.cycle % 32)
    let split := min 4096 (65536 - o % 65536) / 128
    let near := min (r.wrote + len) split - min r.wrote split
    let taken : Prop := (near ≠ 0 → mine (rowBank x.pair (o / 65536))) ∧ (near ≠ len → mine (rowBank x.pair ((o + 4095) / 65536)))
    let opened : Prop := (near ≠ 0 → (s.pair x.pair).bankOpen (o / 65536) s.cycle near = true) ∧
      (near ≠ len → (s.pair x.pair).bankOpen ((o + 4095) / 65536) (s.cycle + near) (len - near) = true)
    let now (b : Nat) : Prop := 2 * r.wrote ≤ b ∧ b < 2 * (r.wrote + len)
    let fails : Bool := c.lost && decide (i + 1 < c.q)
    let w : Int := if i = 0 ∧ c.uns = false then -128 else 2 ^ (7 - i)
    let ones (el : Nat) : Nat := ((c.sources m n).filter fun q =>
      (((c.plane? q.1 q.2 i).getD []).getD (el / 8) 0).getLsbD (el % 8)).length
    let run : Host.Outcome State Fault Refusal := exec (.planeLanding k m n (7 - i)) s
    let later (t : State) (due : Nat) : Prop :=
      t = s.schedule due srcFabric (.planeLanding k m n (7 - i))
    (r.planes < i → run = .next (s.setColl k (c.onTile m n fun r => { r with came := r.came ++ [i] }))) ∧
    (r.planes = i → r.busy = none → ∃ t due, run = .next t ∧ t.mem = s.mem ∧ t.coats = s.coats ∧
      s.cycle < due ∧ { due := due, src := srcFabric, ev := .planeLanding k m n (7 - i) } ∈ t.agenda ∧
      ∃ y, t.coll? k = some y ∧ y.tile? m n = some { r with busy := some due }) ∧
    (∀ z, r.planes = i → r.busy = some z → z ≤ s.cycle → r.wrote < 32 →
      (¬ taken → ∃ t, run = .next t ∧ later t (32 * (s.tick + 1))) ∧
      (taken → ¬ opened → ∃ t, run = .next t ∧ later t (s.cycle + 1)) ∧
      (taken → opened → o + 4096 ≤ 2 ^ 21 → ∃ t y, run = .next t ∧
        { due := s.cycle + len, src := srcFabric, ev := .planeLanding k m n (7 - i) } ∈ t.agenda ∧ t.coll? k = some y ∧
        y.tile? m n = some { r with busy := some (s.cycle + len), wrote := r.wrote + len } ∧
        (near ≠ 0 → (o / 65536, s.cycle, s.cycle + near) ∈ (t.pair x.pair).bankBusy) ∧
        (near ≠ len → ((o + 4095) / 65536, s.cycle + near, s.cycle + len) ∈ (t.pair x.pair).bankBusy) ∧
        (∀ el, el < 1024 → now (el / 16) →
          (((t.blockAt (place (el / 16))).data / 2 ^ (32 * (el % 16)) % 2 ^ 32 : Nat) : Int) =
            (((s.blockAt (place (el / 16))).data / 2 ^ (32 * (el % 16)) % 2 ^ 32 : Nat) + w * ones el) % 2 ^ 32) ∧
        (∀ (E : Nat × Nat → Byte) (bad : Nat × Nat → List Nat), c.sources m n ≠ [] →
          (∀ q ∈ c.sources m n, (c.member q.1).scales.find? (fun sc => sc.1 == q.2) = some (q.2, E q, bad q)) →
          ((∃ e, ∀ q ∈ c.sources m n, E q = e) → ∀ b, now b → ∀ q ∈ c.sources m n, (t.blockAt (place b)).coat =
            if ∃ q ∈ c.sources m n, b / 4 ∈ bad q then 0x00FF else BitVec.ofNat 16 ((E q).toNat * 256 + 6)) ∧
          ((¬ ∃ e, ∀ q ∈ c.sources m n, E q = e) → ∀ b, now b → (t.blockAt (place b)).coat = 0x00FF)) ∧
        (∀ a, (∀ b, now b → a < place b ∨ place b + 64 ≤ a) → memGet t.mem a = memGet s.mem a))) ∧
    (∀ z, r.planes = i → r.busy = some z → z ≤ s.cycle → 32 ≤ r.wrote →
      ∃ t y, run = .next t ∧ t.mem = s.mem ∧ t.coats = s.coats ∧ t.coll? k = some y ∧
        (∃ q, y.tile? m n = some q ∧ q.planes = i + 1 ∧ q.busy = none ∧ q.wrote = 0 ∧ q.cancelled = r.asked ∧ q.failed = fails) ∧
        (r.owns = true →
          ((t.pair x.pair).counter (x.cbase + n)).planes = i + 1 ∧
          (c.q = i + 1 → ((t.pair x.pair).counter (x.cbase + n)).done = true) ∧
          (fails = true → ((t.pair x.pair).counter (x.cbase + n)).error = true) ∧
          (r.asked = true → ((t.pair x.pair).counter (x.cbase + n)).cancelled = true)) ∧
        ∀ (E : Nat × Nat → Byte) (bad : Nat × Nat → List Nat), c.sources m n ≠ [] → r.owns = true →
          (∀ q ∈ c.sources m n, (c.member q.1).scales.find? (fun sc => sc.1 == q.2) = some (q.2, E q, bad q)) →
          (¬ ∃ e, ∀ q ∈ c.sources m n, E q = e) → ((t.pair x.pair).counter (x.cbase + n)).error = true)

/-- The oldest entry of a cancel queue is processed: a tile cancel freezes the tile and its counter at once, or at the end of a
landing in progress; a tag cancel does so for every tile of the collective, and is kept by a COLL that has not joined; every
sender learns of it within 256 cycles, and one that has nothing left to send stops, which frees the ticks of its planes not
started (R391 to R394). The model's choice: after how many of those cycles is free (log 27). -/
def Sys2Proof.Claims.Cancels : Prop :=
  ∀ (s : State) (p k m : Nat) (c : Coll) (rest : List CancelEntry),
    let u := s.onPair p fun y => { y with cancelQ := rest }
    let run : Host.Outcome State Fault Refusal := exec (.cancelProcess p) s
    let told (t : State) (c : Coll) : Prop := ∀ i, i < c.members.length → (c.member i).peer = 0 → c.sends i ≠ 0 →
      ∃ due, s.cycle < due ∧ due ≤ s.cycle + 256 ∧
        { due := due, src := srcCopy (c.member i).eng, ev := .senderStop k i } ∈ t.agenda
    let frozen (r : RTile) : RTile := if r.busy = none then { r with cancelled := true } else { r with asked := true }
    let going (r : RTile) : Prop :=
      r.planes < c.q ∧ r.cancelled = false ∧ r.failed = false ∧ r.mixed = false ∧ r.asked = false
    ((s.pair p).cancelQ = [] → run = .next s) ∧
    (∀ n, (s.pair p).cancelQ = .tile n :: rest → s.tileOfCounter p n = none → run = .next u) ∧
    (∀ n r, (s.pair p).cancelQ = .tile n :: rest → s.tileOfCounter p n = some (k, r) → s.coll? k = some c →
      s.colls.Pairwise (fun a b => a.1 < b.1) →
      (c.tiles.filter fun q => q.m == r.m && q.t == r.t) = [r] → going r →
      ∃ t y, run = .next t ∧ (t.pair p).cancelQ = rest ∧ t.coll? k = some y ∧ frozen r ∈ y.tiles ∧
        (∀ q ∈ c.tiles, q ≠ r → q ∈ y.tiles) ∧ told t c ∧ t.mem = s.mem ∧
        (r.busy = none → ((t.pair p).counter n).cancelled = true) ∧
        ((t.pair p).counter n).planes = ((s.pair p).counter n).planes) ∧
    (∀ core tag, (s.pair p).cancelQ = .tag core tag :: rest → s.collTag core tag = none → run = .next u) ∧
    (∀ core tag e z, (s.pair p).cancelQ = .tag core tag :: rest → s.collTag core tag = some (e, z) → s.joinedBy z = none →
      run = .next (u.onCopy e z.id fun x => { x with cancelled := true })) ∧
    (∀ core tag e z, (s.pair p).cancelQ = .tag core tag :: rest → s.collTag core tag = some (e, z) →
      s.joinedBy z = some k → s.coll? k = some c →
      ∃ t y, run = .next t ∧ (t.pair p).cancelQ = rest ∧ t.coll? k = some y ∧ y.cancel = true ∧ told t c ∧ t.mem = s.mem ∧
        ∀ r ∈ c.tiles, going r → frozen r ∈ y.tiles) ∧
    (s.coll? k = some c → m < c.members.length → (c.member m).peer = 0 → (c.member m).stopped = false →
      (c.member m).planes < c.q →
      let x := c.member m
      let heard (z : Member) : Member := { z with heard := (List.range (c.sends m)).filter fun t => !c.wanted m t }
      ((∀ t, t < c.sends m → c.wanted m t = false) → ∃ t, exec (.senderStop k m) s = .next t ∧
        t.coll? k = some (c.onMember m fun z => { heard z with stopped := true }) ∧ t.mem = s.mem ∧ t.ctxs = s.ctxs ∧
        (s.memberBid x = none → t.faces = s.faces) ∧
        ∀ b y, s.memberBid x = some b → Tbl.find (s.face (x.pair / 8)).bookings b = some y → ∃ y',
          Tbl.find (t.face (x.pair / 8)).bookings b = some y' ∧ ∀ row u, (∃ v ∈ y'.rows, v.covers row u = true) ↔
            ∃ v ∈ y.rows, v.covers row u = true ∧ ¬ (row = 0x164 + x.lrow ∧ v.hold = false ∧ s.tick + 1 ≤ u ∧
              y.start + x.loff + (x.planes + if x.flits = 0 then 0 else 1) * x.pticks ≤ u ∧
              u < y.start + x.loff + c.q * x.pticks)) ∧
      (∀ t, t < c.sends m → c.wanted m t = true → exec (.senderStop k m) s = .next (s.setColl k (c.onMember m heard))))

/-- The plane streams of a collective. -/
def Obligations.PlaneStreams : Prop :=
  Sys2Proof.Claims.PlanesAreSent ∧
  Sys2Proof.Claims.PlanesLandInTiles ∧
  Sys2Proof.Claims.Cancels

/-- CXL.mem: a logical device reads and writes the memory of its own partition, payload and coat apart, and its control block;
every other access is rejected, a rejected write is discarded whole, and each is counted in HREJ (R428). The model's choice: 1 as the
return code that stands for CXL poison (log 90 for the faces that the host reaches). -/
def Sys2Proof.Claims.HostLink : Prop :=
  ∀ (s : State) (ld o n off : Nat) (bs : List Byte) (v : Coat) (ln : Line),
    let rejected : State :=
      { s with plat := { s.plat with reply := [], rc := 1, hrej := min (s.plat.hrej + 1) (2 ^ 32 - 1) } }
    let mine : Prop := s.plat.boot = .running ∧ ld < 16 ∧ o / 2 ^ 48 ≤ 7 ∧ 0 < n ∧ o % 64 + n ≤ 64 ∧
      Tbl.find s.lines (o / 64) = some ln ∧ ln.owner = ld
    let ctl := 0xF00000B000000 + 0x1000 * ld + off
    (mine → ∃ t, exec (.hostRead ld o n) s = .next t ∧ t.plat.rc = 0 ∧
      t.plat.reply = leBytes n (ln.data / 2 ^ (8 * (o % 64))) ∧ t.mem = s.mem ∧ t.lines = s.lines) ∧
    (mine → bs.length = n → ∃ t, exec (.hostWrite ld o bs) s = .next t ∧ t.plat.rc = 0 ∧
      LineWritten s t o n (leNat bs) ln) ∧
    (mine → ∃ t, exec (.hostCoatRead ld (2 ^ 52 + 2 * (o / 64))) s = .next t ∧ t.plat.rc = 0 ∧
      t.plat.reply = leBytes 2 ln.coat.toNat ∧ t.mem = s.mem ∧ t.lines = s.lines) ∧
    (mine → ∃ t, exec (.hostCoatWrite ld (2 ^ 52 + 2 * (o / 64)) v) s = .next t ∧ t.plat.rc = 0 ∧ t.mem = s.mem ∧
      Tbl.find t.lines (o / 64) = some { ln with coat := v, dirty := true } ∧
      ∀ k, k ≠ o / 64 → Tbl.find t.lines k = Tbl.find s.lines k) ∧
    (s.plat.boot = .running → ld < 16 → o / 2 ^ 48 ≤ 7 → 0 < n → o % 64 + n ≤ 64 → Tbl.find s.lines (o / 64) = some ln →
      ln.owner ≠ ld → (∃ t, exec (.hostRead ld o n) s = .next t ∧ t.plat = rejected.plat ∧ t.lines = s.lines) ∧
        (bs.length = n → exec (.hostWrite ld o bs) s = .next rejected) ∧
        ∃ t, exec (.hostCoatWrite ld (2 ^ 52 + 2 * (o / 64)) v) s = .next t ∧ t.plat = rejected.plat ∧ t.lines = s.lines) ∧
    (s.plat.boot = .running → ld < 16 → off % 8 = 0 → off < 0x1000 →
      exec (.hostRead ld ctl 8) s = .next
        { s with plat := { s.plat with reply := leBytes 8 (s.cfgLoad ctl 8).toNat, rc := 0 } } ∧
      (off ∈ [0x20, 0x28, 0x40, 0x60, 0x68, 0x70, 0x78] → bs.length = 8 → exec (.hostWrite ld ctl bs) s = .next
        { s with todo := .write 1 ld ctl (BitVec.ofNat 64 (leNat bs)) :: s.todo
                 plat := { s.plat with reply := [], rc := 0 } })) ∧
    -- a write that memory refuses at any of its blocks
    (∀ code t, ld < 16 → s.plat.boot = .running → o / 2 ^ 48 ≤ 8 → bs ≠ [] → (o + bs.length - 1) / 2 ^ 48 = o / 2 ^ 48 →
      s.writeBytes (engineReq (o / 2 ^ 48 % 8) ld) o bs = (some code, t) → exec (.hostWrite ld o bs) s = .next rejected) ∧
    -- staging space beyond the size of its slice
    (o / 2 ^ 48 = 9 → 65536 * (16 - (s.slice (o / 2 ^ 20 % 2 ^ 11)).w) < o % 2 ^ 20 + n →
      exec (.hostRead ld o n) s = .next rejected ∧ (bs.length = n → exec (.hostWrite ld o bs) s = .next rejected)) ∧
    (s.plat.boot ≠ .running ∨ 16 < ld ∨ 2 ^ 52 < o + n → exec (.hostRead ld o n) s = .next rejected) ∧
    (s.plat.boot ≠ .running ∨ 16 < ld ∨ 2 ^ 52 < o + bs.length → exec (.hostWrite ld o bs) s = .next rejected) ∧
    (s.plat.boot ≠ .running ∨ 15 < ld ∨ o < 2 ^ 52 ∨ o % 2 = 1 → exec (.hostCoatRead ld o) s = .next rejected ∧
        exec (.hostCoatWrite ld o v) s = .next rejected)

/-- The mailbox of a running package: what each command answers and changes, which ones only the FM LD may send, and which ones
minimal mode turns away; a PREEMPT completes when its context has stopped and the message is written, or at once for a context
that is HALTED (R417, R431, R434, R436, R437, R446). The return codes Unsupported 0x15 and Invalid Input 0x02, and
16 as the number of the FM LD, are the model's own choice (log 89), and so are that the lifetime log is log 0, the payloads that the
manual only names (log 88), the functions for the cryptography (log 87), when PREEMPT answers (log 86), and that the message of a
stop already going on, or of a trap, completes it too (log 114). -/
def Sys2Proof.Claims.Mailbox : Prop :=
  ∀ (s : State) (ld c i log watts op : Nat) (image data nonce : List Byte) (w : Word), ld ≤ 16 →
    let answer (s : State) (rc : Nat) (bs : List Byte) : State := { s with plat := { s.plat with reply := bs, rc := rc } }
    let gives (j : Instr) (t : State) : Prop := exec j s = .next t
    let denied (j : Instr) : Prop := exec j s = .next (answer s 0x15 [])
    let free (j : Instr) (op : Nat) : Prop :=
      gives j { (answer s 0 (Config.mailboxPayload op s.fresh)) with fresh := s.fresh + 1 }
    let meas (k : Nat) : List Byte := leBytes 64 (Tbl.look s.plat.meas k 0).toNat
    (s.plat.boot = .running →
      gives (.getEventRecords ld) (answer s 0 (Config.eventPayload s.plat.timestamp s.plat.events)) ∧
      free (.getFwInfo ld) 0x0200 ∧ free (.getSupportedLogs ld) 0x0400 ∧ free (.identifyMemoryDevice ld) 0x4000 ∧
      free (.getHealthInfo ld) 0x4200 ∧
      gives (.getidkey ld) (answer s 0 Config.identityKey) ∧ denied (.unsupported ld op) ∧
      gives (.setTimestamp ld w) (answer { s with plat := { s.plat with timestamp := w } } 0 []) ∧
      (log ≠ 0 → gives (.getLog ld log) (answer s 0 (Config.logPayload log))) ∧
      gives (.getLog 16 0) (answer s 0
        ((List.range 9).flatMap fun k => Config.logSection k ((s.stack 0).syslog.filter fun e => e.1 == k))) ∧
      (imageVerifies image = true → gives (.transferFw 16 image)
        (answer { s with plat := { s.plat with newImage := some image } } 0 [])) ∧
      (imageVerifies image = false → gives (.transferFw 16 image) (answer s 0x02 [])) ∧
      (s.plat.newImage = some image → ∃ t, exec (.activateFw 16) s = .next t ∧ t.plat.image = image ∧ t.plat.fails = 0 ∧
        t.plat.newImage = none ∧ t.plat.rc = 0 ∧ s.cycle < t.plat.imageDone) ∧
      (s.plat.newImage = none → gives (.activateFw 16) (answer s 0x02 [])) ∧
      gives (.powercap 16 watts) (answer { s with plat := { s.plat with plimit := max 1200 (min 3600 watts) } } 0 []) ∧
      (2 ≤ i → i ≤ 7 → data.length ≤ 1024 → gives (.extend 16 i data)
        (answer { s with plat := { s.plat with meas := Tbl.put s.plat.meas i (shake256 (meas i ++ data)) } } 0 [])) ∧
      (i < 2 ∨ 7 < i ∨ 1024 < data.length → gives (.extend 16 i data) (answer s 0x02 [])) ∧
      (nonce.length = 32 → ∃ r, gives (.attest ld nonce) (answer s 0 r) ∧
        r.take 8 = [0x41, 0x45, 0x50, 0x54, 0x01, 0x00, 0x00, 0x00] ∧ (r.drop 8).take 8 = leBytes 8 s.gtc ∧
        (r.drop 0x10).take 8 = leBytes 8 Config.serial.toNat ∧ (r.drop 0x18).take 8 = List.replicate 8 0 ∧
        (r.drop 0x20).take 32 = nonce ∧ (∀ k, k < 8 → (r.drop (0x40 + 64 * k)).take 64 = meas k) ∧
        (r.drop 0x240).take 8 = leBytes 8 (s.plat.cause + s.plat.lastfail * 2 ^ 8 + s.plat.fails * 2 ^ 16) ∧
        r.drop 0x250 = (Config.falconSign (r.take 0x248)).take 1280 ∧
        (r.drop 0x248).take 8 = leBytes 8 (r.drop 0x250).length) ∧
      (nonce.length ≠ 32 → gives (.attest ld nonce) (answer s 0x02 [])) ∧
      (c < 2048 → (ld = 16 ∨ s.ownerOf (c / 64) = some ld) → (s.ctx c).run = .free ∨ (s.ctx c).run = .booked →
        ∃ t, exec (.preempt ld c) s = .next t ∧ t.plat = { s.plat with preempts := s.plat.preempts ++ [c] } ∧
          t.ctx c = { s.ctx c with stopReq := some (max 3 ((s.ctx c).stopReq.getD 0)) } ∧
          ∃ due, s.cycle < due ∧ due ≤ s.cycle + 160 ∧
            { due := due, src := srcCore (c / 4), ev := .contextStop c 3 } ∈ t.agenda) ∧
      (c < 2048 → (ld = 16 ∨ s.ownerOf (c / 64) = some ld) → (s.ctx c).run = .stopping →
        ∃ t, exec (.preempt ld c) s = .next t ∧ c ∈ t.plat.preempts ∧ t.plat.rc = s.plat.rc ∧ t.mem = s.mem ∧
          (t.ctx c).stopping = (s.ctx c).stopping) ∧
      (c < 2048 → (ld = 16 ∨ s.ownerOf (c / 64) = some ld) → (s.ctx c).run = .halted →
        ∃ t, exec (.preempt ld c) s = .next t ∧ t.plat.rc = 0 ∧ t.plat.preempts = s.plat.preempts ∧ t.ctxs = s.ctxs ∧
          t.mem = s.mem) ∧
      (2048 ≤ c → gives (.preempt ld c) (answer s 0x02 [])) ∧
      (c < 2048 → ld ≠ 16 → s.ownerOf (c / 64) ≠ some ld → denied (.preempt ld c)) ∧
      (ld ≠ 16 → denied (.transferFw ld image) ∧ denied (.activateFw ld) ∧ denied (.getLog ld 0) ∧
        denied (.extend ld i data) ∧ denied (.powercap ld watts))) ∧
    -- the end of a PREEMPT: its message is written, or a stop request finds the context HALTED
    (let done (t : State) : Prop := t.plat.rc = 0 ∧ t.plat.reply = [] ∧ t.plat.preempts = s.plat.preempts.filter (fun k => k != c)
     c ∈ s.plat.preempts →
      (∀ p fw ws, (wordAt ws 0).toNat % 256 = 3 ∨ (s.ctx c).run = .halted → done (s.sendPost c (.message p fw ws))) ∧
      ((s.ctx c).run = .halted → (s.ctx c).stopping = none → ∃ t, exec (.contextStop c 3) s = .next t ∧ done t ∧
        t.ctxs = s.ctxs ∧ t.mem = s.mem)) ∧
    (s.plat.boot = .minimal →
      denied (.getEventRecords ld) ∧ denied (.getHealthInfo ld) ∧ denied (.setTimestamp ld w) ∧ denied (.preempt ld c) ∧
      denied (.extend ld i data) ∧ denied (.powercap ld watts) ∧ denied (.wreset ld) ∧ free (.getFwInfo ld) 0x0200 ∧
      free (.identifyMemoryDevice ld) 0x4000 ∧ gives (.getidkey ld) (answer s 0 Config.identityKey)) ∧
    (s.plat.boot = .tripped → free (.identifyMemoryDevice ld) 0x4000 ∧ gives (.getFwInfo ld) s)

/-- What the host may do. -/
def Obligations.HostAndMailbox : Prop :=
  Sys2Proof.Claims.HostLink ∧
  Sys2Proof.Claims.Mailbox

/-- A cold start: everything but the flash stacks and what the security processor keeps is as at power-on; FAILS counts the
start, and more than three fails, an unreadable or unsigned image or a lane without repair end it with their cause; else
STARTOK or the time-out follows. STARTOK clears FAILS and makes the package run, and the
two copies of the log grow by the counts of its sections (R307, R429, R432 to R435, R436,
R446). The model's choices: what a failed start leaves, and the free time and outcome of each step (log 91), what a cold start
keeps (log 92), that Activate FW takes a free time (log 94), and the form of a repair record (log 114). -/
def Sys2Proof.Claims.ColdStart : Prop :=
  ∀ s : State,
    let y := s.plat
    let n := y.starts
    let fails := min 4 (y.fails + 1)
    let whole : Bool := y.imageWhole && decide (y.imageDone ≤ s.cycle)
    let goes (p : State → Prop) : Prop := ∃ t, exec .coldStart s = .next t ∧
      t.cycle = 0 ∧ t.todo = [] ∧ t.ctxs = [] ∧ t.cores = [] ∧ t.pairs = [] ∧ t.faces = [] ∧ t.engines = [] ∧ t.slices = [] ∧
      t.lines = [] ∧ t.doms = [] ∧ t.handles = [] ∧ t.disps = [] ∧ t.queues = [] ∧ t.parts = [] ∧ t.colls = [] ∧
      (∀ a, memGet t.mem a = if 2 ^ 48 ≤ a then memGet s.mem a else 0) ∧
      (∀ a, a < 2 ^ 48 → coatGet t.coats a = 0x8000) ∧ (∀ k, (t.stack k).map = (s.stack k).map) ∧
      (∃ l, (t.stack 0).syslog = (s.stack 0).syslog ++ l) ∧
      t.plat.starts = n + 1 ∧ t.plat.fails = fails ∧ t.plat.image = y.image ∧ p t
    let ends (cause : Nat) : Prop := goes fun t => t.plat.boot = .off ∧ t.plat.cause = cause ∧ t.plat.lastfail = cause ∧
      (6, [cause], 0) ∈ (t.stack 0).syslog ∧ (6, [cause], 0) ∈ (t.stack 4).syslog
    (3 < fails → goes fun t => t.plat.boot = .minimal ∧ t.plat.cause = 0x20) ∧
    (fails ≤ 3 → Config.imageUnreadable n = true → ends 0x11) ∧
    (fails ≤ 3 → Config.imageUnreadable n = false → (whole = false ∨ imageVerifies y.image = false) → ends 0x10) ∧
    (fails ≤ 3 → Config.imageUnreadable n = false → whole = true → imageVerifies y.image = true →
      Config.repairFails n = true → ends 0x13) ∧
    (fails ≤ 3 → Config.imageUnreadable n = false → whole = true → imageVerifies y.image = true →
      Config.repairFails n = false → goes fun t => t.plat.boot = .starting ∧
        t.plat.cause = (if y.boot = .tripped then 0x14 else 0) ∧ Tbl.look t.plat.meas 0 0 = shake256 y.image ∧
        (∀ d, d < 4 → let r : RepairRecord :=
            { version := Config.recordVersion, lanes := Config.repairLanes n d, check := crc32c (Config.repairLanes n d) }
          Tbl.find t.plat.records d = some r ∧ Tbl.find t.plat.soft d = some r.lanes) ∧
        Tbl.look t.plat.meas 1 0 = shake256 (List.replicate 64 0 ++ ((List.range 4).flatMap fun d =>
          leBytes 4 Config.recordVersion ++ Config.repairLanes n d ++ leBytes 4 (crc32c (Config.repairLanes n d))) ++
          Config.partitionImage n) ∧
        (∃ due, { due := due, src := srcMgmt, ev := .startok } ∈ t.agenda) ∧
        { due := 54000000000, src := srcMgmt, ev := .startTimeout } ∈ t.agenda) ∧
    (y.boot = .starting → exec .startok s = .next
      { s with todo := .event .logAppend :: s.todo, plat := { y with boot := .running, fails := 0 } }) ∧
    (y.boot ≠ .starting → exec .startok s = .next s ∧ exec .startTimeout s = .next s) ∧
    (y.boot = .starting → 30000000000 ≤ s.cycle * 5 / 9 → ∃ t, exec .startTimeout s = .next t ∧ t.plat.boot = .off ∧
      t.plat.cause = 0x12 ∧ t.plat.lastfail = 0x12 ∧ t.plat.fails = y.fails) ∧
    (∃ t, exec .logAppend s = .next t ∧
      (∃ l, (t.stack 0).syslog = (s.stack 0).syslog ++ l ∧ (t.stack 4).syslog = (s.stack 4).syslog ++ l ∧
        (∀ d, d < 8 → (0, d :: (s.stack d).peHistogram d, s.gtc) ∈ l ∧
          (1, [d, (s.stack d).reloc % 2 ^ 32 + (s.stack d).relocRd % 2 ^ 32 * 2 ^ 32], s.gtc) ∈ l ∧
          (2, [d, s.flashRead d 0x48, s.flashRead d 0x50, s.flashRead d 0x58, s.flashRead d 0x60], s.gtc) ∈ l ∧
          (3, [d, Config.hbmCorrections d s.gtc], s.gtc) ∈ l) ∧
        ∀ i, i < 296 → (5, (0x400 + i) :: (List.range 21).map (fun b => Config.bandTime (0x400 + i) b s.gtc), s.gtc) ∈ l) ∧
      t.mem = s.mem ∧ t.ctxs = s.ctxs ∧ t.todo = s.todo)

/-- What temperatures, power and droops do: a weight layer of 85 °C and a face with a sensor of 95 °C lower ALLOW, and restore it
below 80 °C and 90 °C; a trip at 105 °C stops every clock; each millisecond's comparison of PWR with PLIMIT moves ALLOW, and what a
pair gets back later, by 4 within its bounds, which are those that the readings ask for; and a droop is captured once (R442 to R444,
R448). The model's choices: what is saved and restored where several of these meet, that what a pair gets back is only lowered, and
that the first droop of a record is not counted (log 96); the readings themselves (log 95). -/
def Sys2Proof.Claims.ThermalAndPower : Prop :=
  ∀ (s : State) (f i p : Nat), f < 32 → i < 8 → p = 8 * f + i →
    let x := s.face f
    let v := x.allow i
    let y := s.plat
    let pwr := Config.power (s.cycle * 5 / 9 / 1000000) % 65536
    let ms : Prop := s.cycle ≠ 0 ∧ s.cycle * 5 / 9 / 1000000 ≠ (s.cycle - 1) * 5 / 9 / 1000000 ∧ y.boot = .running
    let hot (lim : Nat) : Prop := ∃ n, (n = 0x500 + f ∨ 0x400 + 8 * f ≤ n ∧ n < 0x408 + 8 * f) ∧ lim ≤ s.temp n
    let is (b : Nat) : Prop := (x.dblref.getLsbD i = true ∨ 85 ≤ s.temp (0x400 + p) → b = 8) ∧
      (x.dblref.getLsbD i = false → s.temp (0x400 + p) < 85 → (x.throttled = true ∨ hot 95 → b = 32) ∧
        (x.throttled = false → ¬ hot 95 → b = 64))
    let lower (v : Nat) : Nat := if v ≤ 8 then v else max 8 (v - 4)
    (x.dblref.getLsbD i = true ∨ s.temp (0x400 + p) < 85 → exec (.doubleRefreshEntry p) s = .next s) ∧
    (x.dblref.getLsbD i = false → 85 ≤ s.temp (0x400 + p) → ∃ t, exec (.doubleRefreshEntry p) s = .next t ∧
      (t.face f).dblref = x.dblref ||| BitVec.ofNat 8 (2 ^ i) ∧ (t.face f).allow i = min v 8 ∧
      Tbl.find (t.face f).tsaved i = some v ∧ t.plat.events = y.events ++ [(1, s.gtc)] ∧
      ∀ j, j ≠ i → (t.face f).allow j = x.allow j) ∧
    (x.dblref.getLsbD i = false ∨ 80 ≤ s.temp (0x400 + p) → exec (.doubleRefreshExit p) s = .next s) ∧
    (x.dblref.getLsbD i = true → s.temp (0x400 + p) < 80 → ∃ t, exec (.doubleRefreshExit p) s = .next t ∧
      (t.face f).dblref = x.dblref &&& ~~~(BitVec.ofNat 8 (2 ^ i)) ∧
      (t.face f).allow i = min 64 (Tbl.look x.tsaved i 64) ∧ Tbl.find (t.face f).tsaved i = none ∧
      ∀ j, j ≠ i → (t.face f).allow j = x.allow j) ∧
    (x.throttled = true ∨ ¬ hot 95 → exec (.faceThrottle f) s = .next s) ∧
    (x.throttled = false → hot 95 → ∃ t, exec (.faceThrottle f) s = .next t ∧ (t.face f).throttled = true ∧
      (t.face f).allow i = min v 32 ∧ t.plat.events = y.events ++ [(2, s.gtc)] ∧
      Tbl.find (t.face f).fsaved i = some (if x.dblref.getLsbD i then Tbl.look x.tsaved i 64 else v) ∧
      ∀ v', Tbl.find x.tsaved i = some v' → Tbl.find (t.face f).tsaved i = some (min v' 32)) ∧
    (x.throttled = false ∨ hot 90 → exec (.faceThrottleEnd f) s = .next s) ∧
    (x.throttled = true → ¬ hot 90 → ∃ t, exec (.faceThrottleEnd f) s = .next t ∧ (t.face f).throttled = false ∧
      (x.dblref.getLsbD i = false → (t.face f).allow i = min 64 (Tbl.look x.fsaved i 64)) ∧
      (x.dblref.getLsbD i = true → (t.face f).allow i = v ∧ (Tbl.find x.tsaved i ≠ none →
        Tbl.find (t.face f).tsaved i = some (Tbl.look x.fsaved i 64)))) ∧
    ((∃ n, 0x400 ≤ n ∧ n < 0x528 ∧ 105 ≤ s.temp n) → exec .thermtrip s = .next
      { s with todo := [], plat := { y with boot := .tripped, events := y.events ++ [(3, s.gtc)] } }) ∧
    ((∀ n, 0x400 ≤ n → n < 0x528 → s.temp n < 105) → exec .thermtrip s = .next s) ∧
    (¬ ms → exec .powerCheck s = .next s) ∧
    (∀ bound, is bound → ms → v ≤ 64 → ∃ t, exec .powerCheck s = .next t ∧ (t.face f).allow i =
      (if y.plimit < pwr then lower v
       else if 100 * pwr < 95 * y.plimit then (if bound ≤ v then v else min bound (v + 4)) else v) ∧
      (∀ v', Tbl.find x.tsaved i = some v' → Tbl.find (t.face f).tsaved i = some
        (if y.plimit < pwr then lower v' else v')) ∧
      (∀ v', Tbl.find x.fsaved i = some v' → Tbl.find (t.face f).fsaved i = some (if y.plimit < pwr then lower v' else v')) ∧
      t.mem = s.mem ∧ t.ctxs = s.ctxs) ∧
    (x.dvalid = true → exec (.droop f) s = .next (s.onFace f fun x => { x with dcount := min (x.dcount + 1) 65535 })) ∧
    (x.dvalid = false → ∃ t, exec (.droop f) s = .next t ∧ (t.face f).dvalid = true ∧ (t.face f).dcount = x.dcount ∧
      (t.face f).dgtc = BitVec.ofNat 64 s.gtc ∧
      ∀ j, j < 16 → Tbl.look (t.face f).dpc j 0 = (s.core (16 * f + j)).last)

/-- The start of the package, and its sensors. -/
def Obligations.StartAndThermal : Prop :=
  Sys2Proof.Claims.ColdStart ∧
  Sys2Proof.Claims.ThermalAndPower

/-- A step with an event next runs that event's meaning on the state without it; a stop request stands aside for a bundle of its
context that traps in the same cycle (R426). A write of a register that is an event of its own is that event, and another is a
REGISTER_WRITE (R449). With nothing left of the cycle what was posted leaves if its nanosecond ends, and then the next cycle begins.
A sequencer begins and completes nothing in the cycle in which its pair freezes, nor while it is frozen (R214). When the controllers'
turn has come, each request of the lowest face that has one is processed (R205). The model's choices: one item is one step (log 5),
the order of the items of one cycle (log 146), and that posts leave with their nanosecond (log 120). -/
def Sys2Proof.Claims.StepRunsTheEvent : Prop :=
  ∀ (s : State) (i : Instr) (rest : List Item) (priv p n k : Nat) (v : Word), s.plat.boot ≠ .tripped →
    let u : State := { s with todo := rest }
    let writes (ia : Nat) (i : Instr) : Prop := s.todo = .write priv p ia v :: rest → step s = exec i u
    (s.todo = .event i :: rest → (∀ c k, i = .contextStop c k → u.stopTrap exec c = none) →
      (∀ p k, i = .arrayStep p k ∨ i = .macroopComplete p k → u.pairStill exec p = false) → step s = exec i u) ∧
    (∀ p k, s.todo = .event i :: rest → i = .arrayStep p k ∨ i = .macroopComplete p k →
      (s.pair p).freeze ≠ none ∨ u.freezes exec (2 * p) ≠ none ∨ u.freezes exec (2 * p + 1) ≠ none → step s = .next u) ∧
    (∀ c k t, s.todo = .event i :: rest → i = .contextStop c k → u.stopTrap exec c = some t →
      step s = .next t) ∧
    (∀ f, s.todo = .requests :: rest → f < 32 → (s.face f).requests ≠ [] → (∀ g, g < f → (s.face g).requests = []) →
      step s = .next { s with todo := .event (.admission f) :: .requests :: rest }) ∧
    (s.todo = .requests :: rest → (∀ f, f < 32 → (s.face f).requests = []) → step s = .next u) ∧
    (n < 1536 → writes (0xF000001000000 + 0x40 * n) (.waypartWrite n v)) ∧
    (n < 16 → k < 16 → writes (0xF00000B000020 + 0x1000 * n) (.preset n v) ∧ writes (0xF00000B000040 + 0x1000 * n) (.start n v) ∧
      writes (0xF00000B000078 + 0x1000 * n) (.msgheadWrite n v) ∧
      writes (0xF00000B000060 + 0x1000 * n) (.registerWrite priv p (0xF00000B000060 + 0x1000 * n) v)) ∧
    (s.todo = [] → s.outbox = [] ∨ s.gtc = (s.cycle + 1) * 5 / 9 → step s = .next s.advance)

/-- After a thermal trip only Identify Memory Device and a cold start happen, and without one of them in sight the run stops (R431,
R442). The model's choice: that stop is the fault clocksStopped (log 98). -/
def Sys2Proof.Claims.StepAfterATrip : Prop :=
  ∀ (s : State) (t : Timed), s.plat.boot = .tripped →
    ((∀ t ∈ s.agenda, t.ev ≠ .coldStart ∧ ∀ ld, t.ev ≠ .identifyMemoryDevice ld) → step s = .fault .clocksStopped) ∧
    (∀ l r, s.agenda = l ++ t :: r → (t.ev = .coldStart ∨ ∃ ld, t.ev = .identifyMemoryDevice ld) →
      (∀ z ∈ l, z.ev ≠ .coldStart ∧ ∀ ld, z.ev ≠ .identifyMemoryDevice ld) →
      step s = exec t.ev { s with agenda := l ++ r, todo := [] })

/-- A step with a core's issue next, whose current free context has a bundle with eight decoded words that can all issue, runs
the meaning of each decoded word in slot order on the one state, with the PC one bundle on; that of a booked context likewise
(R37, R109, R110). An even core stands aside where the odd core of its pair brings a freeze in this cycle (R214). Held macro-ops of a
core whose MRESUME has begun enter first (R250). -/
def Sys2Proof.Claims.StepIssuesTheBundle : Prop :=
  ∀ (s : State) (core : Nat) (rest : List Item) (ws : List (BitVec 32)) (ops : List (Nat × Instr)),
    let u := ({ s with todo := rest }).resumeHeld core
    s.plat.boot ≠ .tripped → s.todo = .issue core :: rest → u.frozen core = false →
    (core % 2 = 0 → u.freezes exec (core + 1) = none) →
    let own (b : Nat) : Prop := (u.face (faceOf core)).owner (rowCore core) u.tick = .bid b
    let ready (v : State) (c : Nat) : Prop := (v.ctx c).ready ≤ v.cycle ∧ (v.ctx c).fetchMiss = none ∧
      (v.ctx c).sleep.snooze = none ∧ (v.ctx c).sleep.book = none ∧ (v.ctx c).late = [] ∧
      (v.atIssue c).fetch c = .words ws ∧ ws.length = 8 ∧
      ops = ws.zipIdx.filterMap (fun w => (decodeSlot w.2 w.1).toOption.map fun i => (w.2, i)) ∧ ops.length = 8 ∧
      (∀ o ∈ ops, (probe exec (v.atIssue c) o.1 o.2).1 = .committed) ∧ v.stopHit c = false
    let begun (v : State) (c : Nat) : State := v.beforeOps c
    (∀ c, (∀ b, ¬ own b) →
      let v := u.noteHolds exec core none
      (v.core core).idle = false → (v.core core).turn ≤ v.cycle → c = 4 * core + (v.core core).cur → (v.ctx c).run = .free →
      ready v c →
      (∀ t, runOps exec ops (begun v c) = .next t → ∃ z, step s = .next z ∧
        ((t.ctx c).run = .free → z = t.afterOps c)) ∧
      (∀ r, runOps exec ops (begun v c) = .fault r → step s = .fault r) ∧
      ((begun v c).ctx c).pc = (v.ctx c).pc + 32 ∧ (begun v c).iss.pc = (v.ctx c).pc) ∧
    (∀ b c, own b →
      let v := (u.passGone exec core).noteHolds exec core (some c)
      u.rowCtx core b = some c → ready v c →
      ∀ t, runOps exec ops (begun v c) = .next t → step s = .next (t.afterOps c)) ∧
    ∀ (k : Nat) (i : Instr) (l : List (Nat × Instr)) (v t : State),
      exec i { v with iss := { v.iss with slot := k, sure := true } } = .next t →
      runOps exec ((k, i) :: l) v = runOps exec l t

/-- What a step does. -/
def Obligations.StepRunsTheDecoded : Prop :=
  Sys2Proof.Claims.StepRunsTheEvent ∧
  Sys2Proof.Claims.StepAfterATrip ∧
  Sys2Proof.Claims.StepIssuesTheBundle

/-- When the next cycle begins, the results in flight that are due reach their registers, which hold their old values until then,
the shift of a LOOP before the others and these in the order of issue, so that the last one of a register stays; later ones stay in
flight, and writes of s0 and p0 are discarded (R25, R37, R38, R102, R137, R144). -/
def Obligations.ResultsLand : Prop :=
  ∀ (s : State) (c : Nat), s.plat.boot ≠ .tripped → s.todo = [] → s.outbox = [] → s.launches = [] →
    (s.ctx c).sleep = .awake → (s.ctx c).unbook = false → (∀ x, (c / 8, x) ∈ s.pairs → x.freeze = none) →
    s.ctxs.Pairwise (fun a b => a.1 < b.1) →
    let x := s.ctx c
    let due := x.inflight.filter fun i => i.due ≤ s.cycle + 1
    let shifted (q : Nat → Bool) (i : InFlight) : Nat → Bool := match i.w with
      | .loopShift live => fun m => if m = 8 then live else if 8 < m then q (m - 1) else q m
      | _ => q
    ∃ t, step s = .next t ∧ t.cycle = s.cycle + 1 ∧
      (t.ctx c).inflight = x.inflight.filter (fun i => s.cycle + 1 < i.due) ∧
      (∀ n : BitVec 5, (t.ctx c).sreg n = if n = 0 then 0 else due.foldl (fun v i => match i.w with
        | .scalar m u => if m = n.toNat then u else v
        | _ => v) (x.sreg n)) ∧
      (∀ n : BitVec 4, (t.ctx c).preg n = (n == 0 || due.foldl (fun v i => match i.w with
        | .pred m u => if m = n.toNat then u else v
        | _ => v) (due.foldl shifted (fun m => x.preg (BitVec.ofNat 4 m)) n.toNat))) ∧
      -- special registers, each write as its access code has it
      (let y := due.foldl (fun u i => match i.w with
        | .sreg m v => u.land c (.sreg m v)
        | _ => u) s
       ∀ m, m ∈ [0x001, 0x003, 0x004, 0x005, 0x006, 0x007] ∨ 0x100 ≤ m ∧ m < 0x120 → t.srRead c m = y.srRead c m) ∧
      -- vector registers, whole and single lanes
      ((∀ d, d / 4 = c / 4 → d ≠ c → ∀ j ∈ (s.ctx d).inflight, s.cycle + 1 < j.due) →
        ∀ p, (t.core (c / 4)).tile p = due.foldl (fun v i => match i.w with
          | .tile q z => if q = p then z else v
          | .lane q j z => if q = p then setLane v j z else v
          | _ => v) ((s.core (c / 4)).tile p))

/-- The state right after power-on: the cold start is next, every context is HALTED, every special register and every register of a
map has the reset value that the map states, memory lists nothing and every coat is 0x8000 (R67, R75, R103, R115, R116, R188, R189,
R223, R224, R254, R255, R282, R299, R307, R311, R354, R364, R374, R375, R398, R404, R429, R445). The model's choices: power-on with
the cold start as the only item (log 3), memory and coats that list nothing (log 23), and the predicates (log 2). -/
def Sys2Proof.Claims.ResetValues : Prop :=
  let s := State.reset
  s.todo = [.event .coldStart] ∧ s.cycle = 0 ∧ s.mem = [] ∧ (∀ a, coatGet s.coats a = 0x8000) ∧ s.plat.boot = .off ∧
  (∀ c, (s.ctx c).run = .halted ∧ (s.ctx c).p = 1 ∧ (s.ctx c).inflight = [] ∧ (s.ctx c).pending = []) ∧
  (∀ k, (s.core k).flags = 0 ∧ (s.core k).landing = []) ∧ (∀ p, (s.pair p).counters = [] ∧ (s.pair p).active = false) ∧
  -- special registers
  (∀ c, c < 2048 → s.srRead c 0x000 =
    BitVec.ofNat 64 (c % 4 + c / 4 * 2 ^ 2 + c / 8 * 2 ^ 11 + c / 64 * 2 ^ 19 + c / 256 * 2 ^ 24 + c / 512 * 2 ^ 27)) ∧
  (∀ c, s.srRead c 0x006 = 0x3F800000 ∧ s.srRead c 0x007 = 8 ∧ s.srRead c 0x041 = 0x18 ∧ s.srRead c 0x042 = 0x18 ∧
    ∀ n ∈ [0x003, 0x004, 0x005, 0x008, 0x009, 0x00A, 0x00B, 0x022, 0x030, 0x031, 0x032, 0x033, 0x050], s.srRead c n = 0) ∧
  -- slices and retention ranges
  (∀ n o, s.regRead (.slice n o) = if o = 0 then 16 else 0) ∧ (∀ d n o, s.regRead (.ret d n o) = 0) ∧
  -- calendars: ROWOWN and TALLOW
  (∀ f o, s.regRead (.cal f o) = if o = 0x40 then 0xFF else if 0x80 ≤ o ∧ o < 0xC0 then 64 else 0) ∧
  -- arrays: LEASEMAX
  (∀ p o, s.regRead (.pair p o) = if o = 0 then 0x800 else 0) ∧ (∀ p i o, s.regRead (.acct p i o) = 0) ∧
  (∀ e o, s.regRead (.engine e o) = 0) ∧ (∀ c o, s.regRead (.tstat c o) = 0) ∧
  -- domains: PROMO, EPOCHLEN and WMARK
  (∀ d o, s.regRead (.dom d o) = if d = 8 then 0 else if o = 0x10 then 0x40 else if o = 0x18 then 1000000
    else if o = 0x20 then 64 + 192 * 2 ^ 16 else 0) ∧
  -- flash stacks: RDTHR, PATROL and WLDELTA; SPARE, GROWNBAD, PECYC, TEMP and LIFE have no fixed value
  (∀ n o, o ∉ [0x00, 0x08, 0x18, 0x38, 0x40] → s.regRead (.flash n o) =
    if o = 0x80 then 100000 else if o = 0x88 then 168 else if o = 0x98 then 500 else 0) ∧
  (∀ h o, s.regRead (.handle h o) = 0) ∧ (∀ p q o, s.regRead (.queue p q o) = 0) ∧ (∀ p o, s.regRead (.sq p o) = 0) ∧
  (∀ d o, s.regRead (.disp d o) = if o = 0 then 1 else 0) ∧ (∀ p n, s.regRead (.peer p n) = 0) ∧
  -- control blocks: FSHARE; the platform: PLIMIT, while BOOTCAUSE and TEMP have no fixed value
  (∀ p o, s.regRead (.ctl p o) = if o = 0x058 then 64 else 0) ∧
  (∀ o, o ≠ 0 → o < 0x4000 → s.regRead (.plat o) = if o = 0x018 then 3600 else 0)

/-- Memory after reset is in its canonical form. -/
def Sys2Proof.Claims.ResetHoldsTheInvariant : Prop := Memory.wf State.reset.mem = true

/-- Reset: the values of the registers, and the invariant of memory. -/
def Obligations.ResetState : Prop :=
  Sys2Proof.Claims.ResetValues ∧
  Sys2Proof.Claims.ResetHoldsTheInvariant

/-- Every step keeps memory in its canonical form: no place listed twice or out of order, and none with its reset value (R429).
That a list stands for memory is the model's own choice. -/
def Obligations.StepKeepsTheInvariant : Prop :=
  ∀ s t : State, Memory.wf s.mem = true → step s = .next t → Memory.wf t.mem = true

end Statements
end

