-- ==== Sys2Proof/Laws/State.lean ====
section
/-! SUPPORT. One lemma for each field of the state and each update of it: what the update leaves there. -/

namespace Sys2Proof.Machine

/-! ### setCtx -/

@[simp] theorem State.setCtx_cycle (s : State) (c : Nat) (x : Ctx) : (s.setCtx c x).cycle = s.cycle := rfl
@[simp] theorem State.setCtx_todo (s : State) (c : Nat) (x : Ctx) : (s.setCtx c x).todo = s.todo := rfl
@[simp] theorem State.setCtx_agenda (s : State) (c : Nat) (x : Ctx) : (s.setCtx c x).agenda = s.agenda := rfl
@[simp] theorem State.setCtx_iss (s : State) (c : Nat) (x : Ctx) : (s.setCtx c x).iss = s.iss := rfl
@[simp] theorem State.setCtx_fresh (s : State) (c : Nat) (x : Ctx) : (s.setCtx c x).fresh = s.fresh := rfl
@[simp] theorem State.setCtx_mem (s : State) (c : Nat) (x : Ctx) : (s.setCtx c x).mem = s.mem := rfl
@[simp] theorem State.setCtx_coats (s : State) (c : Nat) (x : Ctx) : (s.setCtx c x).coats = s.coats := rfl
@[simp] theorem State.setCtx_ctxs (s : State) (c : Nat) (x : Ctx) : (s.setCtx c x).ctxs = Tbl.put s.ctxs c x := rfl
@[simp] theorem State.setCtx_cores (s : State) (c : Nat) (x : Ctx) : (s.setCtx c x).cores = s.cores := rfl
@[simp] theorem State.setCtx_pairs (s : State) (c : Nat) (x : Ctx) : (s.setCtx c x).pairs = s.pairs := rfl
@[simp] theorem State.setCtx_faces (s : State) (c : Nat) (x : Ctx) : (s.setCtx c x).faces = s.faces := rfl
@[simp] theorem State.setCtx_engines (s : State) (c : Nat) (x : Ctx) : (s.setCtx c x).engines = s.engines := rfl
@[simp] theorem State.setCtx_slices (s : State) (c : Nat) (x : Ctx) : (s.setCtx c x).slices = s.slices := rfl
@[simp] theorem State.setCtx_lines (s : State) (c : Nat) (x : Ctx) : (s.setCtx c x).lines = s.lines := rfl
@[simp] theorem State.setCtx_doms (s : State) (c : Nat) (x : Ctx) : (s.setCtx c x).doms = s.doms := rfl
@[simp] theorem State.setCtx_ft8base (s : State) (c : Nat) (x : Ctx) : (s.setCtx c x).ft8base = s.ft8base := rfl
@[simp] theorem State.setCtx_ft8len (s : State) (c : Nat) (x : Ctx) : (s.setCtx c x).ft8len = s.ft8len := rfl
@[simp] theorem State.setCtx_flash (s : State) (c : Nat) (x : Ctx) : (s.setCtx c x).flash = s.flash := rfl
@[simp] theorem State.setCtx_handles (s : State) (c : Nat) (x : Ctx) : (s.setCtx c x).handles = s.handles := rfl
@[simp] theorem State.setCtx_disps (s : State) (c : Nat) (x : Ctx) : (s.setCtx c x).disps = s.disps := rfl
@[simp] theorem State.setCtx_queues (s : State) (c : Nat) (x : Ctx) : (s.setCtx c x).queues = s.queues := rfl
@[simp] theorem State.setCtx_parts (s : State) (c : Nat) (x : Ctx) : (s.setCtx c x).parts = s.parts := rfl
@[simp] theorem State.setCtx_colls (s : State) (c : Nat) (x : Ctx) : (s.setCtx c x).colls = s.colls := rfl
@[simp] theorem State.setCtx_spawns (s : State) (c : Nat) (x : Ctx) : (s.setCtx c x).spawns = s.spawns := rfl
@[simp] theorem State.setCtx_resumes (s : State) (c : Nat) (x : Ctx) : (s.setCtx c x).resumes = s.resumes := rfl
@[simp] theorem State.setCtx_launches (s : State) (c : Nat) (x : Ctx) : (s.setCtx c x).launches = s.launches := rfl
@[simp] theorem State.setCtx_plat (s : State) (c : Nat) (x : Ctx) : (s.setCtx c x).plat = s.plat := rfl

/-! ### setCore -/

@[simp] theorem State.setCore_cycle (s : State) (c : Nat) (x : Core) : (s.setCore c x).cycle = s.cycle := rfl
@[simp] theorem State.setCore_todo (s : State) (c : Nat) (x : Core) : (s.setCore c x).todo = s.todo := rfl
@[simp] theorem State.setCore_agenda (s : State) (c : Nat) (x : Core) : (s.setCore c x).agenda = s.agenda := rfl
@[simp] theorem State.setCore_iss (s : State) (c : Nat) (x : Core) : (s.setCore c x).iss = s.iss := rfl
@[simp] theorem State.setCore_fresh (s : State) (c : Nat) (x : Core) : (s.setCore c x).fresh = s.fresh := rfl
@[simp] theorem State.setCore_mem (s : State) (c : Nat) (x : Core) : (s.setCore c x).mem = s.mem := rfl
@[simp] theorem State.setCore_coats (s : State) (c : Nat) (x : Core) : (s.setCore c x).coats = s.coats := rfl
@[simp] theorem State.setCore_ctxs (s : State) (c : Nat) (x : Core) : (s.setCore c x).ctxs = s.ctxs := rfl
@[simp] theorem State.setCore_cores (s : State) (c : Nat) (x : Core) : (s.setCore c x).cores = Tbl.put s.cores c x := rfl
@[simp] theorem State.setCore_pairs (s : State) (c : Nat) (x : Core) : (s.setCore c x).pairs = s.pairs := rfl
@[simp] theorem State.setCore_faces (s : State) (c : Nat) (x : Core) : (s.setCore c x).faces = s.faces := rfl
@[simp] theorem State.setCore_engines (s : State) (c : Nat) (x : Core) : (s.setCore c x).engines = s.engines := rfl
@[simp] theorem State.setCore_slices (s : State) (c : Nat) (x : Core) : (s.setCore c x).slices = s.slices := rfl
@[simp] theorem State.setCore_lines (s : State) (c : Nat) (x : Core) : (s.setCore c x).lines = s.lines := rfl
@[simp] theorem State.setCore_doms (s : State) (c : Nat) (x : Core) : (s.setCore c x).doms = s.doms := rfl
@[simp] theorem State.setCore_ft8base (s : State) (c : Nat) (x : Core) : (s.setCore c x).ft8base = s.ft8base := rfl
@[simp] theorem State.setCore_ft8len (s : State) (c : Nat) (x : Core) : (s.setCore c x).ft8len = s.ft8len := rfl
@[simp] theorem State.setCore_flash (s : State) (c : Nat) (x : Core) : (s.setCore c x).flash = s.flash := rfl
@[simp] theorem State.setCore_handles (s : State) (c : Nat) (x : Core) : (s.setCore c x).handles = s.handles := rfl
@[simp] theorem State.setCore_disps (s : State) (c : Nat) (x : Core) : (s.setCore c x).disps = s.disps := rfl
@[simp] theorem State.setCore_queues (s : State) (c : Nat) (x : Core) : (s.setCore c x).queues = s.queues := rfl
@[simp] theorem State.setCore_parts (s : State) (c : Nat) (x : Core) : (s.setCore c x).parts = s.parts := rfl
@[simp] theorem State.setCore_colls (s : State) (c : Nat) (x : Core) : (s.setCore c x).colls = s.colls := rfl
@[simp] theorem State.setCore_spawns (s : State) (c : Nat) (x : Core) : (s.setCore c x).spawns = s.spawns := rfl
@[simp] theorem State.setCore_resumes (s : State) (c : Nat) (x : Core) : (s.setCore c x).resumes = s.resumes := rfl
@[simp] theorem State.setCore_launches (s : State) (c : Nat) (x : Core) : (s.setCore c x).launches = s.launches := rfl
@[simp] theorem State.setCore_plat (s : State) (c : Nat) (x : Core) : (s.setCore c x).plat = s.plat := rfl

/-! ### setPair -/

@[simp] theorem State.setPair_cycle (s : State) (p : Nat) (x : Pair) : (s.setPair p x).cycle = s.cycle := rfl
@[simp] theorem State.setPair_todo (s : State) (p : Nat) (x : Pair) : (s.setPair p x).todo = s.todo := rfl
@[simp] theorem State.setPair_agenda (s : State) (p : Nat) (x : Pair) : (s.setPair p x).agenda = s.agenda := rfl
@[simp] theorem State.setPair_iss (s : State) (p : Nat) (x : Pair) : (s.setPair p x).iss = s.iss := rfl
@[simp] theorem State.setPair_fresh (s : State) (p : Nat) (x : Pair) : (s.setPair p x).fresh = s.fresh := rfl
@[simp] theorem State.setPair_mem (s : State) (p : Nat) (x : Pair) : (s.setPair p x).mem = s.mem := rfl
@[simp] theorem State.setPair_coats (s : State) (p : Nat) (x : Pair) : (s.setPair p x).coats = s.coats := rfl
@[simp] theorem State.setPair_ctxs (s : State) (p : Nat) (x : Pair) : (s.setPair p x).ctxs = s.ctxs := rfl
@[simp] theorem State.setPair_cores (s : State) (p : Nat) (x : Pair) : (s.setPair p x).cores = s.cores := rfl
@[simp] theorem State.setPair_pairs (s : State) (p : Nat) (x : Pair) : (s.setPair p x).pairs = Tbl.put s.pairs p x := rfl
@[simp] theorem State.setPair_faces (s : State) (p : Nat) (x : Pair) : (s.setPair p x).faces = s.faces := rfl
@[simp] theorem State.setPair_engines (s : State) (p : Nat) (x : Pair) : (s.setPair p x).engines = s.engines := rfl
@[simp] theorem State.setPair_slices (s : State) (p : Nat) (x : Pair) : (s.setPair p x).slices = s.slices := rfl
@[simp] theorem State.setPair_lines (s : State) (p : Nat) (x : Pair) : (s.setPair p x).lines = s.lines := rfl
@[simp] theorem State.setPair_doms (s : State) (p : Nat) (x : Pair) : (s.setPair p x).doms = s.doms := rfl
@[simp] theorem State.setPair_ft8base (s : State) (p : Nat) (x : Pair) : (s.setPair p x).ft8base = s.ft8base := rfl
@[simp] theorem State.setPair_ft8len (s : State) (p : Nat) (x : Pair) : (s.setPair p x).ft8len = s.ft8len := rfl
@[simp] theorem State.setPair_flash (s : State) (p : Nat) (x : Pair) : (s.setPair p x).flash = s.flash := rfl
@[simp] theorem State.setPair_handles (s : State) (p : Nat) (x : Pair) : (s.setPair p x).handles = s.handles := rfl
@[simp] theorem State.setPair_disps (s : State) (p : Nat) (x : Pair) : (s.setPair p x).disps = s.disps := rfl
@[simp] theorem State.setPair_queues (s : State) (p : Nat) (x : Pair) : (s.setPair p x).queues = s.queues := rfl
@[simp] theorem State.setPair_parts (s : State) (p : Nat) (x : Pair) : (s.setPair p x).parts = s.parts := rfl
@[simp] theorem State.setPair_colls (s : State) (p : Nat) (x : Pair) : (s.setPair p x).colls = s.colls := rfl
@[simp] theorem State.setPair_spawns (s : State) (p : Nat) (x : Pair) : (s.setPair p x).spawns = s.spawns := rfl
@[simp] theorem State.setPair_resumes (s : State) (p : Nat) (x : Pair) : (s.setPair p x).resumes = s.resumes := rfl
@[simp] theorem State.setPair_launches (s : State) (p : Nat) (x : Pair) : (s.setPair p x).launches = s.launches := rfl
@[simp] theorem State.setPair_plat (s : State) (p : Nat) (x : Pair) : (s.setPair p x).plat = s.plat := rfl

/-! ### setFace -/

@[simp] theorem State.setFace_cycle (s : State) (f : Nat) (x : Face) : (s.setFace f x).cycle = s.cycle := rfl
@[simp] theorem State.setFace_todo (s : State) (f : Nat) (x : Face) : (s.setFace f x).todo = s.todo := rfl
@[simp] theorem State.setFace_agenda (s : State) (f : Nat) (x : Face) : (s.setFace f x).agenda = s.agenda := rfl
@[simp] theorem State.setFace_iss (s : State) (f : Nat) (x : Face) : (s.setFace f x).iss = s.iss := rfl
@[simp] theorem State.setFace_fresh (s : State) (f : Nat) (x : Face) : (s.setFace f x).fresh = s.fresh := rfl
@[simp] theorem State.setFace_mem (s : State) (f : Nat) (x : Face) : (s.setFace f x).mem = s.mem := rfl
@[simp] theorem State.setFace_coats (s : State) (f : Nat) (x : Face) : (s.setFace f x).coats = s.coats := rfl
@[simp] theorem State.setFace_ctxs (s : State) (f : Nat) (x : Face) : (s.setFace f x).ctxs = s.ctxs := rfl
@[simp] theorem State.setFace_cores (s : State) (f : Nat) (x : Face) : (s.setFace f x).cores = s.cores := rfl
@[simp] theorem State.setFace_pairs (s : State) (f : Nat) (x : Face) : (s.setFace f x).pairs = s.pairs := rfl
@[simp] theorem State.setFace_faces (s : State) (f : Nat) (x : Face) : (s.setFace f x).faces = Tbl.put s.faces f x := rfl
@[simp] theorem State.setFace_engines (s : State) (f : Nat) (x : Face) : (s.setFace f x).engines = s.engines := rfl
@[simp] theorem State.setFace_slices (s : State) (f : Nat) (x : Face) : (s.setFace f x).slices = s.slices := rfl
@[simp] theorem State.setFace_lines (s : State) (f : Nat) (x : Face) : (s.setFace f x).lines = s.lines := rfl
@[simp] theorem State.setFace_doms (s : State) (f : Nat) (x : Face) : (s.setFace f x).doms = s.doms := rfl
@[simp] theorem State.setFace_ft8base (s : State) (f : Nat) (x : Face) : (s.setFace f x).ft8base = s.ft8base := rfl
@[simp] theorem State.setFace_ft8len (s : State) (f : Nat) (x : Face) : (s.setFace f x).ft8len = s.ft8len := rfl
@[simp] theorem State.setFace_flash (s : State) (f : Nat) (x : Face) : (s.setFace f x).flash = s.flash := rfl
@[simp] theorem State.setFace_handles (s : State) (f : Nat) (x : Face) : (s.setFace f x).handles = s.handles := rfl
@[simp] theorem State.setFace_disps (s : State) (f : Nat) (x : Face) : (s.setFace f x).disps = s.disps := rfl
@[simp] theorem State.setFace_queues (s : State) (f : Nat) (x : Face) : (s.setFace f x).queues = s.queues := rfl
@[simp] theorem State.setFace_parts (s : State) (f : Nat) (x : Face) : (s.setFace f x).parts = s.parts := rfl
@[simp] theorem State.setFace_colls (s : State) (f : Nat) (x : Face) : (s.setFace f x).colls = s.colls := rfl
@[simp] theorem State.setFace_spawns (s : State) (f : Nat) (x : Face) : (s.setFace f x).spawns = s.spawns := rfl
@[simp] theorem State.setFace_resumes (s : State) (f : Nat) (x : Face) : (s.setFace f x).resumes = s.resumes := rfl
@[simp] theorem State.setFace_launches (s : State) (f : Nat) (x : Face) : (s.setFace f x).launches = s.launches := rfl
@[simp] theorem State.setFace_plat (s : State) (f : Nat) (x : Face) : (s.setFace f x).plat = s.plat := rfl

/-! ### setEngine -/

@[simp] theorem State.setEngine_cycle (s : State) (e : Nat) (x : Engine) : (s.setEngine e x).cycle = s.cycle := rfl
@[simp] theorem State.setEngine_todo (s : State) (e : Nat) (x : Engine) : (s.setEngine e x).todo = s.todo := rfl
@[simp] theorem State.setEngine_agenda (s : State) (e : Nat) (x : Engine) : (s.setEngine e x).agenda = s.agenda := rfl
@[simp] theorem State.setEngine_iss (s : State) (e : Nat) (x : Engine) : (s.setEngine e x).iss = s.iss := rfl
@[simp] theorem State.setEngine_fresh (s : State) (e : Nat) (x : Engine) : (s.setEngine e x).fresh = s.fresh := rfl
@[simp] theorem State.setEngine_mem (s : State) (e : Nat) (x : Engine) : (s.setEngine e x).mem = s.mem := rfl
@[simp] theorem State.setEngine_coats (s : State) (e : Nat) (x : Engine) : (s.setEngine e x).coats = s.coats := rfl
@[simp] theorem State.setEngine_ctxs (s : State) (e : Nat) (x : Engine) : (s.setEngine e x).ctxs = s.ctxs := rfl
@[simp] theorem State.setEngine_cores (s : State) (e : Nat) (x : Engine) : (s.setEngine e x).cores = s.cores := rfl
@[simp] theorem State.setEngine_pairs (s : State) (e : Nat) (x : Engine) : (s.setEngine e x).pairs = s.pairs := rfl
@[simp] theorem State.setEngine_faces (s : State) (e : Nat) (x : Engine) : (s.setEngine e x).faces = s.faces := rfl
@[simp] theorem State.setEngine_engines (s : State) (e : Nat) (x : Engine) : (s.setEngine e x).engines = Tbl.put s.engines e x := rfl
@[simp] theorem State.setEngine_slices (s : State) (e : Nat) (x : Engine) : (s.setEngine e x).slices = s.slices := rfl
@[simp] theorem State.setEngine_lines (s : State) (e : Nat) (x : Engine) : (s.setEngine e x).lines = s.lines := rfl
@[simp] theorem State.setEngine_doms (s : State) (e : Nat) (x : Engine) : (s.setEngine e x).doms = s.doms := rfl
@[simp] theorem State.setEngine_ft8base (s : State) (e : Nat) (x : Engine) : (s.setEngine e x).ft8base = s.ft8base := rfl
@[simp] theorem State.setEngine_ft8len (s : State) (e : Nat) (x : Engine) : (s.setEngine e x).ft8len = s.ft8len := rfl
@[simp] theorem State.setEngine_flash (s : State) (e : Nat) (x : Engine) : (s.setEngine e x).flash = s.flash := rfl
@[simp] theorem State.setEngine_handles (s : State) (e : Nat) (x : Engine) : (s.setEngine e x).handles = s.handles := rfl
@[simp] theorem State.setEngine_disps (s : State) (e : Nat) (x : Engine) : (s.setEngine e x).disps = s.disps := rfl
@[simp] theorem State.setEngine_queues (s : State) (e : Nat) (x : Engine) : (s.setEngine e x).queues = s.queues := rfl
@[simp] theorem State.setEngine_parts (s : State) (e : Nat) (x : Engine) : (s.setEngine e x).parts = s.parts := rfl
@[simp] theorem State.setEngine_colls (s : State) (e : Nat) (x : Engine) : (s.setEngine e x).colls = s.colls := rfl
@[simp] theorem State.setEngine_spawns (s : State) (e : Nat) (x : Engine) : (s.setEngine e x).spawns = s.spawns := rfl
@[simp] theorem State.setEngine_resumes (s : State) (e : Nat) (x : Engine) : (s.setEngine e x).resumes = s.resumes := rfl
@[simp] theorem State.setEngine_launches (s : State) (e : Nat) (x : Engine) : (s.setEngine e x).launches = s.launches := rfl
@[simp] theorem State.setEngine_plat (s : State) (e : Nat) (x : Engine) : (s.setEngine e x).plat = s.plat := rfl

/-! ### setSlice -/

@[simp] theorem State.setSlice_cycle (s : State) (n : Nat) (x : Slice) : (s.setSlice n x).cycle = s.cycle := rfl
@[simp] theorem State.setSlice_todo (s : State) (n : Nat) (x : Slice) : (s.setSlice n x).todo = s.todo := rfl
@[simp] theorem State.setSlice_agenda (s : State) (n : Nat) (x : Slice) : (s.setSlice n x).agenda = s.agenda := rfl
@[simp] theorem State.setSlice_iss (s : State) (n : Nat) (x : Slice) : (s.setSlice n x).iss = s.iss := rfl
@[simp] theorem State.setSlice_fresh (s : State) (n : Nat) (x : Slice) : (s.setSlice n x).fresh = s.fresh := rfl
@[simp] theorem State.setSlice_mem (s : State) (n : Nat) (x : Slice) : (s.setSlice n x).mem = s.mem := rfl
@[simp] theorem State.setSlice_coats (s : State) (n : Nat) (x : Slice) : (s.setSlice n x).coats = s.coats := rfl
@[simp] theorem State.setSlice_ctxs (s : State) (n : Nat) (x : Slice) : (s.setSlice n x).ctxs = s.ctxs := rfl
@[simp] theorem State.setSlice_cores (s : State) (n : Nat) (x : Slice) : (s.setSlice n x).cores = s.cores := rfl
@[simp] theorem State.setSlice_pairs (s : State) (n : Nat) (x : Slice) : (s.setSlice n x).pairs = s.pairs := rfl
@[simp] theorem State.setSlice_faces (s : State) (n : Nat) (x : Slice) : (s.setSlice n x).faces = s.faces := rfl
@[simp] theorem State.setSlice_engines (s : State) (n : Nat) (x : Slice) : (s.setSlice n x).engines = s.engines := rfl
@[simp] theorem State.setSlice_slices (s : State) (n : Nat) (x : Slice) : (s.setSlice n x).slices = Tbl.put s.slices n x := rfl
@[simp] theorem State.setSlice_lines (s : State) (n : Nat) (x : Slice) : (s.setSlice n x).lines = s.lines := rfl
@[simp] theorem State.setSlice_doms (s : State) (n : Nat) (x : Slice) : (s.setSlice n x).doms = s.doms := rfl
@[simp] theorem State.setSlice_ft8base (s : State) (n : Nat) (x : Slice) : (s.setSlice n x).ft8base = s.ft8base := rfl
@[simp] theorem State.setSlice_ft8len (s : State) (n : Nat) (x : Slice) : (s.setSlice n x).ft8len = s.ft8len := rfl
@[simp] theorem State.setSlice_flash (s : State) (n : Nat) (x : Slice) : (s.setSlice n x).flash = s.flash := rfl
@[simp] theorem State.setSlice_handles (s : State) (n : Nat) (x : Slice) : (s.setSlice n x).handles = s.handles := rfl
@[simp] theorem State.setSlice_disps (s : State) (n : Nat) (x : Slice) : (s.setSlice n x).disps = s.disps := rfl
@[simp] theorem State.setSlice_queues (s : State) (n : Nat) (x : Slice) : (s.setSlice n x).queues = s.queues := rfl
@[simp] theorem State.setSlice_parts (s : State) (n : Nat) (x : Slice) : (s.setSlice n x).parts = s.parts := rfl
@[simp] theorem State.setSlice_colls (s : State) (n : Nat) (x : Slice) : (s.setSlice n x).colls = s.colls := rfl
@[simp] theorem State.setSlice_spawns (s : State) (n : Nat) (x : Slice) : (s.setSlice n x).spawns = s.spawns := rfl
@[simp] theorem State.setSlice_resumes (s : State) (n : Nat) (x : Slice) : (s.setSlice n x).resumes = s.resumes := rfl
@[simp] theorem State.setSlice_launches (s : State) (n : Nat) (x : Slice) : (s.setSlice n x).launches = s.launches := rfl
@[simp] theorem State.setSlice_plat (s : State) (n : Nat) (x : Slice) : (s.setSlice n x).plat = s.plat := rfl

/-! ### setDom -/

@[simp] theorem State.setDom_cycle (s : State) (d : Nat) (x : Domain) : (s.setDom d x).cycle = s.cycle := rfl
@[simp] theorem State.setDom_todo (s : State) (d : Nat) (x : Domain) : (s.setDom d x).todo = s.todo := rfl
@[simp] theorem State.setDom_agenda (s : State) (d : Nat) (x : Domain) : (s.setDom d x).agenda = s.agenda := rfl
@[simp] theorem State.setDom_iss (s : State) (d : Nat) (x : Domain) : (s.setDom d x).iss = s.iss := rfl
@[simp] theorem State.setDom_fresh (s : State) (d : Nat) (x : Domain) : (s.setDom d x).fresh = s.fresh := rfl
@[simp] theorem State.setDom_mem (s : State) (d : Nat) (x : Domain) : (s.setDom d x).mem = s.mem := rfl
@[simp] theorem State.setDom_coats (s : State) (d : Nat) (x : Domain) : (s.setDom d x).coats = s.coats := rfl
@[simp] theorem State.setDom_ctxs (s : State) (d : Nat) (x : Domain) : (s.setDom d x).ctxs = s.ctxs := rfl
@[simp] theorem State.setDom_cores (s : State) (d : Nat) (x : Domain) : (s.setDom d x).cores = s.cores := rfl
@[simp] theorem State.setDom_pairs (s : State) (d : Nat) (x : Domain) : (s.setDom d x).pairs = s.pairs := rfl
@[simp] theorem State.setDom_faces (s : State) (d : Nat) (x : Domain) : (s.setDom d x).faces = s.faces := rfl
@[simp] theorem State.setDom_engines (s : State) (d : Nat) (x : Domain) : (s.setDom d x).engines = s.engines := rfl
@[simp] theorem State.setDom_slices (s : State) (d : Nat) (x : Domain) : (s.setDom d x).slices = s.slices := rfl
@[simp] theorem State.setDom_lines (s : State) (d : Nat) (x : Domain) : (s.setDom d x).lines = s.lines := rfl
@[simp] theorem State.setDom_doms (s : State) (d : Nat) (x : Domain) : (s.setDom d x).doms = Tbl.put s.doms d x := rfl
@[simp] theorem State.setDom_ft8base (s : State) (d : Nat) (x : Domain) : (s.setDom d x).ft8base = s.ft8base := rfl
@[simp] theorem State.setDom_ft8len (s : State) (d : Nat) (x : Domain) : (s.setDom d x).ft8len = s.ft8len := rfl
@[simp] theorem State.setDom_flash (s : State) (d : Nat) (x : Domain) : (s.setDom d x).flash = s.flash := rfl
@[simp] theorem State.setDom_handles (s : State) (d : Nat) (x : Domain) : (s.setDom d x).handles = s.handles := rfl
@[simp] theorem State.setDom_disps (s : State) (d : Nat) (x : Domain) : (s.setDom d x).disps = s.disps := rfl
@[simp] theorem State.setDom_queues (s : State) (d : Nat) (x : Domain) : (s.setDom d x).queues = s.queues := rfl
@[simp] theorem State.setDom_parts (s : State) (d : Nat) (x : Domain) : (s.setDom d x).parts = s.parts := rfl
@[simp] theorem State.setDom_colls (s : State) (d : Nat) (x : Domain) : (s.setDom d x).colls = s.colls := rfl
@[simp] theorem State.setDom_spawns (s : State) (d : Nat) (x : Domain) : (s.setDom d x).spawns = s.spawns := rfl
@[simp] theorem State.setDom_resumes (s : State) (d : Nat) (x : Domain) : (s.setDom d x).resumes = s.resumes := rfl
@[simp] theorem State.setDom_launches (s : State) (d : Nat) (x : Domain) : (s.setDom d x).launches = s.launches := rfl
@[simp] theorem State.setDom_plat (s : State) (d : Nat) (x : Domain) : (s.setDom d x).plat = s.plat := rfl

/-! ### setStack -/

@[simp] theorem State.setStack_cycle (s : State) (n : Nat) (x : Flash) : (s.setStack n x).cycle = s.cycle := rfl
@[simp] theorem State.setStack_todo (s : State) (n : Nat) (x : Flash) : (s.setStack n x).todo = s.todo := rfl
@[simp] theorem State.setStack_agenda (s : State) (n : Nat) (x : Flash) : (s.setStack n x).agenda = s.agenda := rfl
@[simp] theorem State.setStack_iss (s : State) (n : Nat) (x : Flash) : (s.setStack n x).iss = s.iss := rfl
@[simp] theorem State.setStack_fresh (s : State) (n : Nat) (x : Flash) : (s.setStack n x).fresh = s.fresh := rfl
@[simp] theorem State.setStack_mem (s : State) (n : Nat) (x : Flash) : (s.setStack n x).mem = s.mem := rfl
@[simp] theorem State.setStack_coats (s : State) (n : Nat) (x : Flash) : (s.setStack n x).coats = s.coats := rfl
@[simp] theorem State.setStack_ctxs (s : State) (n : Nat) (x : Flash) : (s.setStack n x).ctxs = s.ctxs := rfl
@[simp] theorem State.setStack_cores (s : State) (n : Nat) (x : Flash) : (s.setStack n x).cores = s.cores := rfl
@[simp] theorem State.setStack_pairs (s : State) (n : Nat) (x : Flash) : (s.setStack n x).pairs = s.pairs := rfl
@[simp] theorem State.setStack_faces (s : State) (n : Nat) (x : Flash) : (s.setStack n x).faces = s.faces := rfl
@[simp] theorem State.setStack_engines (s : State) (n : Nat) (x : Flash) : (s.setStack n x).engines = s.engines := rfl
@[simp] theorem State.setStack_slices (s : State) (n : Nat) (x : Flash) : (s.setStack n x).slices = s.slices := rfl
@[simp] theorem State.setStack_lines (s : State) (n : Nat) (x : Flash) : (s.setStack n x).lines = s.lines := rfl
@[simp] theorem State.setStack_doms (s : State) (n : Nat) (x : Flash) : (s.setStack n x).doms = s.doms := rfl
@[simp] theorem State.setStack_ft8base (s : State) (n : Nat) (x : Flash) : (s.setStack n x).ft8base = s.ft8base := rfl
@[simp] theorem State.setStack_ft8len (s : State) (n : Nat) (x : Flash) : (s.setStack n x).ft8len = s.ft8len := rfl
@[simp] theorem State.setStack_flash (s : State) (n : Nat) (x : Flash) : (s.setStack n x).flash = Tbl.put s.flash n x := rfl
@[simp] theorem State.setStack_handles (s : State) (n : Nat) (x : Flash) : (s.setStack n x).handles = s.handles := rfl
@[simp] theorem State.setStack_disps (s : State) (n : Nat) (x : Flash) : (s.setStack n x).disps = s.disps := rfl
@[simp] theorem State.setStack_queues (s : State) (n : Nat) (x : Flash) : (s.setStack n x).queues = s.queues := rfl
@[simp] theorem State.setStack_parts (s : State) (n : Nat) (x : Flash) : (s.setStack n x).parts = s.parts := rfl
@[simp] theorem State.setStack_colls (s : State) (n : Nat) (x : Flash) : (s.setStack n x).colls = s.colls := rfl
@[simp] theorem State.setStack_spawns (s : State) (n : Nat) (x : Flash) : (s.setStack n x).spawns = s.spawns := rfl
@[simp] theorem State.setStack_resumes (s : State) (n : Nat) (x : Flash) : (s.setStack n x).resumes = s.resumes := rfl
@[simp] theorem State.setStack_launches (s : State) (n : Nat) (x : Flash) : (s.setStack n x).launches = s.launches := rfl
@[simp] theorem State.setStack_plat (s : State) (n : Nat) (x : Flash) : (s.setStack n x).plat = s.plat := rfl

/-! ### setHandle -/

@[simp] theorem State.setHandle_cycle (s : State) (h : Nat) (x : Handle) : (s.setHandle h x).cycle = s.cycle := rfl
@[simp] theorem State.setHandle_todo (s : State) (h : Nat) (x : Handle) : (s.setHandle h x).todo = s.todo := rfl
@[simp] theorem State.setHandle_agenda (s : State) (h : Nat) (x : Handle) : (s.setHandle h x).agenda = s.agenda := rfl
@[simp] theorem State.setHandle_iss (s : State) (h : Nat) (x : Handle) : (s.setHandle h x).iss = s.iss := rfl
@[simp] theorem State.setHandle_fresh (s : State) (h : Nat) (x : Handle) : (s.setHandle h x).fresh = s.fresh := rfl
@[simp] theorem State.setHandle_mem (s : State) (h : Nat) (x : Handle) : (s.setHandle h x).mem = s.mem := rfl
@[simp] theorem State.setHandle_coats (s : State) (h : Nat) (x : Handle) : (s.setHandle h x).coats = s.coats := rfl
@[simp] theorem State.setHandle_ctxs (s : State) (h : Nat) (x : Handle) : (s.setHandle h x).ctxs = s.ctxs := rfl
@[simp] theorem State.setHandle_cores (s : State) (h : Nat) (x : Handle) : (s.setHandle h x).cores = s.cores := rfl
@[simp] theorem State.setHandle_pairs (s : State) (h : Nat) (x : Handle) : (s.setHandle h x).pairs = s.pairs := rfl
@[simp] theorem State.setHandle_faces (s : State) (h : Nat) (x : Handle) : (s.setHandle h x).faces = s.faces := rfl
@[simp] theorem State.setHandle_engines (s : State) (h : Nat) (x : Handle) : (s.setHandle h x).engines = s.engines := rfl
@[simp] theorem State.setHandle_slices (s : State) (h : Nat) (x : Handle) : (s.setHandle h x).slices = s.slices := rfl
@[simp] theorem State.setHandle_lines (s : State) (h : Nat) (x : Handle) : (s.setHandle h x).lines = s.lines := rfl
@[simp] theorem State.setHandle_doms (s : State) (h : Nat) (x : Handle) : (s.setHandle h x).doms = s.doms := rfl
@[simp] theorem State.setHandle_ft8base (s : State) (h : Nat) (x : Handle) : (s.setHandle h x).ft8base = s.ft8base := rfl
@[simp] theorem State.setHandle_ft8len (s : State) (h : Nat) (x : Handle) : (s.setHandle h x).ft8len = s.ft8len := rfl
@[simp] theorem State.setHandle_flash (s : State) (h : Nat) (x : Handle) : (s.setHandle h x).flash = s.flash := rfl
@[simp] theorem State.setHandle_handles (s : State) (h : Nat) (x : Handle) : (s.setHandle h x).handles = Tbl.put s.handles h x := rfl
@[simp] theorem State.setHandle_disps (s : State) (h : Nat) (x : Handle) : (s.setHandle h x).disps = s.disps := rfl
@[simp] theorem State.setHandle_queues (s : State) (h : Nat) (x : Handle) : (s.setHandle h x).queues = s.queues := rfl
@[simp] theorem State.setHandle_parts (s : State) (h : Nat) (x : Handle) : (s.setHandle h x).parts = s.parts := rfl
@[simp] theorem State.setHandle_colls (s : State) (h : Nat) (x : Handle) : (s.setHandle h x).colls = s.colls := rfl
@[simp] theorem State.setHandle_spawns (s : State) (h : Nat) (x : Handle) : (s.setHandle h x).spawns = s.spawns := rfl
@[simp] theorem State.setHandle_resumes (s : State) (h : Nat) (x : Handle) : (s.setHandle h x).resumes = s.resumes := rfl
@[simp] theorem State.setHandle_launches (s : State) (h : Nat) (x : Handle) : (s.setHandle h x).launches = s.launches := rfl
@[simp] theorem State.setHandle_plat (s : State) (h : Nat) (x : Handle) : (s.setHandle h x).plat = s.plat := rfl

/-! ### setDisp -/

@[simp] theorem State.setDisp_cycle (s : State) (d : Nat) (x : Dispatcher) : (s.setDisp d x).cycle = s.cycle := rfl
@[simp] theorem State.setDisp_todo (s : State) (d : Nat) (x : Dispatcher) : (s.setDisp d x).todo = s.todo := rfl
@[simp] theorem State.setDisp_agenda (s : State) (d : Nat) (x : Dispatcher) : (s.setDisp d x).agenda = s.agenda := rfl
@[simp] theorem State.setDisp_iss (s : State) (d : Nat) (x : Dispatcher) : (s.setDisp d x).iss = s.iss := rfl
@[simp] theorem State.setDisp_fresh (s : State) (d : Nat) (x : Dispatcher) : (s.setDisp d x).fresh = s.fresh := rfl
@[simp] theorem State.setDisp_mem (s : State) (d : Nat) (x : Dispatcher) : (s.setDisp d x).mem = s.mem := rfl
@[simp] theorem State.setDisp_coats (s : State) (d : Nat) (x : Dispatcher) : (s.setDisp d x).coats = s.coats := rfl
@[simp] theorem State.setDisp_ctxs (s : State) (d : Nat) (x : Dispatcher) : (s.setDisp d x).ctxs = s.ctxs := rfl
@[simp] theorem State.setDisp_cores (s : State) (d : Nat) (x : Dispatcher) : (s.setDisp d x).cores = s.cores := rfl
@[simp] theorem State.setDisp_pairs (s : State) (d : Nat) (x : Dispatcher) : (s.setDisp d x).pairs = s.pairs := rfl
@[simp] theorem State.setDisp_faces (s : State) (d : Nat) (x : Dispatcher) : (s.setDisp d x).faces = s.faces := rfl
@[simp] theorem State.setDisp_engines (s : State) (d : Nat) (x : Dispatcher) : (s.setDisp d x).engines = s.engines := rfl
@[simp] theorem State.setDisp_slices (s : State) (d : Nat) (x : Dispatcher) : (s.setDisp d x).slices = s.slices := rfl
@[simp] theorem State.setDisp_lines (s : State) (d : Nat) (x : Dispatcher) : (s.setDisp d x).lines = s.lines := rfl
@[simp] theorem State.setDisp_doms (s : State) (d : Nat) (x : Dispatcher) : (s.setDisp d x).doms = s.doms := rfl
@[simp] theorem State.setDisp_ft8base (s : State) (d : Nat) (x : Dispatcher) : (s.setDisp d x).ft8base = s.ft8base := rfl
@[simp] theorem State.setDisp_ft8len (s : State) (d : Nat) (x : Dispatcher) : (s.setDisp d x).ft8len = s.ft8len := rfl
@[simp] theorem State.setDisp_flash (s : State) (d : Nat) (x : Dispatcher) : (s.setDisp d x).flash = s.flash := rfl
@[simp] theorem State.setDisp_handles (s : State) (d : Nat) (x : Dispatcher) : (s.setDisp d x).handles = s.handles := rfl
@[simp] theorem State.setDisp_disps (s : State) (d : Nat) (x : Dispatcher) : (s.setDisp d x).disps = Tbl.put s.disps d x := rfl
@[simp] theorem State.setDisp_queues (s : State) (d : Nat) (x : Dispatcher) : (s.setDisp d x).queues = s.queues := rfl
@[simp] theorem State.setDisp_parts (s : State) (d : Nat) (x : Dispatcher) : (s.setDisp d x).parts = s.parts := rfl
@[simp] theorem State.setDisp_colls (s : State) (d : Nat) (x : Dispatcher) : (s.setDisp d x).colls = s.colls := rfl
@[simp] theorem State.setDisp_spawns (s : State) (d : Nat) (x : Dispatcher) : (s.setDisp d x).spawns = s.spawns := rfl
@[simp] theorem State.setDisp_resumes (s : State) (d : Nat) (x : Dispatcher) : (s.setDisp d x).resumes = s.resumes := rfl
@[simp] theorem State.setDisp_launches (s : State) (d : Nat) (x : Dispatcher) : (s.setDisp d x).launches = s.launches := rfl
@[simp] theorem State.setDisp_plat (s : State) (d : Nat) (x : Dispatcher) : (s.setDisp d x).plat = s.plat := rfl

/-! ### setQueue -/

@[simp] theorem State.setQueue_cycle (s : State) (n : Nat) (x : Queue) : (s.setQueue n x).cycle = s.cycle := rfl
@[simp] theorem State.setQueue_todo (s : State) (n : Nat) (x : Queue) : (s.setQueue n x).todo = s.todo := rfl
@[simp] theorem State.setQueue_agenda (s : State) (n : Nat) (x : Queue) : (s.setQueue n x).agenda = s.agenda := rfl
@[simp] theorem State.setQueue_iss (s : State) (n : Nat) (x : Queue) : (s.setQueue n x).iss = s.iss := rfl
@[simp] theorem State.setQueue_fresh (s : State) (n : Nat) (x : Queue) : (s.setQueue n x).fresh = s.fresh := rfl
@[simp] theorem State.setQueue_mem (s : State) (n : Nat) (x : Queue) : (s.setQueue n x).mem = s.mem := rfl
@[simp] theorem State.setQueue_coats (s : State) (n : Nat) (x : Queue) : (s.setQueue n x).coats = s.coats := rfl
@[simp] theorem State.setQueue_ctxs (s : State) (n : Nat) (x : Queue) : (s.setQueue n x).ctxs = s.ctxs := rfl
@[simp] theorem State.setQueue_cores (s : State) (n : Nat) (x : Queue) : (s.setQueue n x).cores = s.cores := rfl
@[simp] theorem State.setQueue_pairs (s : State) (n : Nat) (x : Queue) : (s.setQueue n x).pairs = s.pairs := rfl
@[simp] theorem State.setQueue_faces (s : State) (n : Nat) (x : Queue) : (s.setQueue n x).faces = s.faces := rfl
@[simp] theorem State.setQueue_engines (s : State) (n : Nat) (x : Queue) : (s.setQueue n x).engines = s.engines := rfl
@[simp] theorem State.setQueue_slices (s : State) (n : Nat) (x : Queue) : (s.setQueue n x).slices = s.slices := rfl
@[simp] theorem State.setQueue_lines (s : State) (n : Nat) (x : Queue) : (s.setQueue n x).lines = s.lines := rfl
@[simp] theorem State.setQueue_doms (s : State) (n : Nat) (x : Queue) : (s.setQueue n x).doms = s.doms := rfl
@[simp] theorem State.setQueue_ft8base (s : State) (n : Nat) (x : Queue) : (s.setQueue n x).ft8base = s.ft8base := rfl
@[simp] theorem State.setQueue_ft8len (s : State) (n : Nat) (x : Queue) : (s.setQueue n x).ft8len = s.ft8len := rfl
@[simp] theorem State.setQueue_flash (s : State) (n : Nat) (x : Queue) : (s.setQueue n x).flash = s.flash := rfl
@[simp] theorem State.setQueue_handles (s : State) (n : Nat) (x : Queue) : (s.setQueue n x).handles = s.handles := rfl
@[simp] theorem State.setQueue_disps (s : State) (n : Nat) (x : Queue) : (s.setQueue n x).disps = s.disps := rfl
@[simp] theorem State.setQueue_queues (s : State) (n : Nat) (x : Queue) : (s.setQueue n x).queues = Tbl.put s.queues n x := rfl
@[simp] theorem State.setQueue_parts (s : State) (n : Nat) (x : Queue) : (s.setQueue n x).parts = s.parts := rfl
@[simp] theorem State.setQueue_colls (s : State) (n : Nat) (x : Queue) : (s.setQueue n x).colls = s.colls := rfl
@[simp] theorem State.setQueue_spawns (s : State) (n : Nat) (x : Queue) : (s.setQueue n x).spawns = s.spawns := rfl
@[simp] theorem State.setQueue_resumes (s : State) (n : Nat) (x : Queue) : (s.setQueue n x).resumes = s.resumes := rfl
@[simp] theorem State.setQueue_launches (s : State) (n : Nat) (x : Queue) : (s.setQueue n x).launches = s.launches := rfl
@[simp] theorem State.setQueue_plat (s : State) (n : Nat) (x : Queue) : (s.setQueue n x).plat = s.plat := rfl

/-! ### setPart -/

@[simp] theorem State.setPart_cycle (s : State) (p : Nat) (x : Part) : (s.setPart p x).cycle = s.cycle := rfl
@[simp] theorem State.setPart_todo (s : State) (p : Nat) (x : Part) : (s.setPart p x).todo = s.todo := rfl
@[simp] theorem State.setPart_agenda (s : State) (p : Nat) (x : Part) : (s.setPart p x).agenda = s.agenda := rfl
@[simp] theorem State.setPart_iss (s : State) (p : Nat) (x : Part) : (s.setPart p x).iss = s.iss := rfl
@[simp] theorem State.setPart_fresh (s : State) (p : Nat) (x : Part) : (s.setPart p x).fresh = s.fresh := rfl
@[simp] theorem State.setPart_mem (s : State) (p : Nat) (x : Part) : (s.setPart p x).mem = s.mem := rfl
@[simp] theorem State.setPart_coats (s : State) (p : Nat) (x : Part) : (s.setPart p x).coats = s.coats := rfl
@[simp] theorem State.setPart_ctxs (s : State) (p : Nat) (x : Part) : (s.setPart p x).ctxs = s.ctxs := rfl
@[simp] theorem State.setPart_cores (s : State) (p : Nat) (x : Part) : (s.setPart p x).cores = s.cores := rfl
@[simp] theorem State.setPart_pairs (s : State) (p : Nat) (x : Part) : (s.setPart p x).pairs = s.pairs := rfl
@[simp] theorem State.setPart_faces (s : State) (p : Nat) (x : Part) : (s.setPart p x).faces = s.faces := rfl
@[simp] theorem State.setPart_engines (s : State) (p : Nat) (x : Part) : (s.setPart p x).engines = s.engines := rfl
@[simp] theorem State.setPart_slices (s : State) (p : Nat) (x : Part) : (s.setPart p x).slices = s.slices := rfl
@[simp] theorem State.setPart_lines (s : State) (p : Nat) (x : Part) : (s.setPart p x).lines = s.lines := rfl
@[simp] theorem State.setPart_doms (s : State) (p : Nat) (x : Part) : (s.setPart p x).doms = s.doms := rfl
@[simp] theorem State.setPart_ft8base (s : State) (p : Nat) (x : Part) : (s.setPart p x).ft8base = s.ft8base := rfl
@[simp] theorem State.setPart_ft8len (s : State) (p : Nat) (x : Part) : (s.setPart p x).ft8len = s.ft8len := rfl
@[simp] theorem State.setPart_flash (s : State) (p : Nat) (x : Part) : (s.setPart p x).flash = s.flash := rfl
@[simp] theorem State.setPart_handles (s : State) (p : Nat) (x : Part) : (s.setPart p x).handles = s.handles := rfl
@[simp] theorem State.setPart_disps (s : State) (p : Nat) (x : Part) : (s.setPart p x).disps = s.disps := rfl
@[simp] theorem State.setPart_queues (s : State) (p : Nat) (x : Part) : (s.setPart p x).queues = s.queues := rfl
@[simp] theorem State.setPart_parts (s : State) (p : Nat) (x : Part) : (s.setPart p x).parts = Tbl.put s.parts p x := rfl
@[simp] theorem State.setPart_colls (s : State) (p : Nat) (x : Part) : (s.setPart p x).colls = s.colls := rfl
@[simp] theorem State.setPart_spawns (s : State) (p : Nat) (x : Part) : (s.setPart p x).spawns = s.spawns := rfl
@[simp] theorem State.setPart_resumes (s : State) (p : Nat) (x : Part) : (s.setPart p x).resumes = s.resumes := rfl
@[simp] theorem State.setPart_launches (s : State) (p : Nat) (x : Part) : (s.setPart p x).launches = s.launches := rfl
@[simp] theorem State.setPart_plat (s : State) (p : Nat) (x : Part) : (s.setPart p x).plat = s.plat := rfl

/-! ### setColl -/

@[simp] theorem State.setColl_cycle (s : State) (k : Nat) (x : Coll) : (s.setColl k x).cycle = s.cycle := rfl
@[simp] theorem State.setColl_todo (s : State) (k : Nat) (x : Coll) : (s.setColl k x).todo = s.todo := rfl
@[simp] theorem State.setColl_agenda (s : State) (k : Nat) (x : Coll) : (s.setColl k x).agenda = s.agenda := rfl
@[simp] theorem State.setColl_iss (s : State) (k : Nat) (x : Coll) : (s.setColl k x).iss = s.iss := rfl
@[simp] theorem State.setColl_fresh (s : State) (k : Nat) (x : Coll) : (s.setColl k x).fresh = s.fresh := rfl
@[simp] theorem State.setColl_mem (s : State) (k : Nat) (x : Coll) : (s.setColl k x).mem = s.mem := rfl
@[simp] theorem State.setColl_coats (s : State) (k : Nat) (x : Coll) : (s.setColl k x).coats = s.coats := rfl
@[simp] theorem State.setColl_ctxs (s : State) (k : Nat) (x : Coll) : (s.setColl k x).ctxs = s.ctxs := rfl
@[simp] theorem State.setColl_cores (s : State) (k : Nat) (x : Coll) : (s.setColl k x).cores = s.cores := rfl
@[simp] theorem State.setColl_pairs (s : State) (k : Nat) (x : Coll) : (s.setColl k x).pairs = s.pairs := rfl
@[simp] theorem State.setColl_faces (s : State) (k : Nat) (x : Coll) : (s.setColl k x).faces = s.faces := rfl
@[simp] theorem State.setColl_engines (s : State) (k : Nat) (x : Coll) : (s.setColl k x).engines = s.engines := rfl
@[simp] theorem State.setColl_slices (s : State) (k : Nat) (x : Coll) : (s.setColl k x).slices = s.slices := rfl
@[simp] theorem State.setColl_lines (s : State) (k : Nat) (x : Coll) : (s.setColl k x).lines = s.lines := rfl
@[simp] theorem State.setColl_doms (s : State) (k : Nat) (x : Coll) : (s.setColl k x).doms = s.doms := rfl
@[simp] theorem State.setColl_ft8base (s : State) (k : Nat) (x : Coll) : (s.setColl k x).ft8base = s.ft8base := rfl
@[simp] theorem State.setColl_ft8len (s : State) (k : Nat) (x : Coll) : (s.setColl k x).ft8len = s.ft8len := rfl
@[simp] theorem State.setColl_flash (s : State) (k : Nat) (x : Coll) : (s.setColl k x).flash = s.flash := rfl
@[simp] theorem State.setColl_handles (s : State) (k : Nat) (x : Coll) : (s.setColl k x).handles = s.handles := rfl
@[simp] theorem State.setColl_disps (s : State) (k : Nat) (x : Coll) : (s.setColl k x).disps = s.disps := rfl
@[simp] theorem State.setColl_queues (s : State) (k : Nat) (x : Coll) : (s.setColl k x).queues = s.queues := rfl
@[simp] theorem State.setColl_parts (s : State) (k : Nat) (x : Coll) : (s.setColl k x).parts = s.parts := rfl
@[simp] theorem State.setColl_colls (s : State) (k : Nat) (x : Coll) : (s.setColl k x).colls = Tbl.put s.colls k x := rfl
@[simp] theorem State.setColl_spawns (s : State) (k : Nat) (x : Coll) : (s.setColl k x).spawns = s.spawns := rfl
@[simp] theorem State.setColl_resumes (s : State) (k : Nat) (x : Coll) : (s.setColl k x).resumes = s.resumes := rfl
@[simp] theorem State.setColl_launches (s : State) (k : Nat) (x : Coll) : (s.setColl k x).launches = s.launches := rfl
@[simp] theorem State.setColl_plat (s : State) (k : Nat) (x : Coll) : (s.setColl k x).plat = s.plat := rfl

/-! ### onPlat -/

@[simp] theorem State.onPlat_cycle (s : State) (f : Platform → Platform) : (s.onPlat f).cycle = s.cycle := rfl
@[simp] theorem State.onPlat_todo (s : State) (f : Platform → Platform) : (s.onPlat f).todo = s.todo := rfl
@[simp] theorem State.onPlat_agenda (s : State) (f : Platform → Platform) : (s.onPlat f).agenda = s.agenda := rfl
@[simp] theorem State.onPlat_iss (s : State) (f : Platform → Platform) : (s.onPlat f).iss = s.iss := rfl
@[simp] theorem State.onPlat_fresh (s : State) (f : Platform → Platform) : (s.onPlat f).fresh = s.fresh := rfl
@[simp] theorem State.onPlat_mem (s : State) (f : Platform → Platform) : (s.onPlat f).mem = s.mem := rfl
@[simp] theorem State.onPlat_coats (s : State) (f : Platform → Platform) : (s.onPlat f).coats = s.coats := rfl
@[simp] theorem State.onPlat_ctxs (s : State) (f : Platform → Platform) : (s.onPlat f).ctxs = s.ctxs := rfl
@[simp] theorem State.onPlat_cores (s : State) (f : Platform → Platform) : (s.onPlat f).cores = s.cores := rfl
@[simp] theorem State.onPlat_pairs (s : State) (f : Platform → Platform) : (s.onPlat f).pairs = s.pairs := rfl
@[simp] theorem State.onPlat_faces (s : State) (f : Platform → Platform) : (s.onPlat f).faces = s.faces := rfl
@[simp] theorem State.onPlat_engines (s : State) (f : Platform → Platform) : (s.onPlat f).engines = s.engines := rfl
@[simp] theorem State.onPlat_slices (s : State) (f : Platform → Platform) : (s.onPlat f).slices = s.slices := rfl
@[simp] theorem State.onPlat_lines (s : State) (f : Platform → Platform) : (s.onPlat f).lines = s.lines := rfl
@[simp] theorem State.onPlat_doms (s : State) (f : Platform → Platform) : (s.onPlat f).doms = s.doms := rfl
@[simp] theorem State.onPlat_ft8base (s : State) (f : Platform → Platform) : (s.onPlat f).ft8base = s.ft8base := rfl
@[simp] theorem State.onPlat_ft8len (s : State) (f : Platform → Platform) : (s.onPlat f).ft8len = s.ft8len := rfl
@[simp] theorem State.onPlat_flash (s : State) (f : Platform → Platform) : (s.onPlat f).flash = s.flash := rfl
@[simp] theorem State.onPlat_handles (s : State) (f : Platform → Platform) : (s.onPlat f).handles = s.handles := rfl
@[simp] theorem State.onPlat_disps (s : State) (f : Platform → Platform) : (s.onPlat f).disps = s.disps := rfl
@[simp] theorem State.onPlat_queues (s : State) (f : Platform → Platform) : (s.onPlat f).queues = s.queues := rfl
@[simp] theorem State.onPlat_parts (s : State) (f : Platform → Platform) : (s.onPlat f).parts = s.parts := rfl
@[simp] theorem State.onPlat_colls (s : State) (f : Platform → Platform) : (s.onPlat f).colls = s.colls := rfl
@[simp] theorem State.onPlat_spawns (s : State) (f : Platform → Platform) : (s.onPlat f).spawns = s.spawns := rfl
@[simp] theorem State.onPlat_resumes (s : State) (f : Platform → Platform) : (s.onPlat f).resumes = s.resumes := rfl
@[simp] theorem State.onPlat_launches (s : State) (f : Platform → Platform) : (s.onPlat f).launches = s.launches := rfl
@[simp] theorem State.onPlat_plat (s : State) (f : Platform → Platform) : (s.onPlat f).plat = f s.plat := rfl

/-! ### bump -/

@[simp] theorem State.bump_cycle (s : State) : (s.bump).cycle = s.cycle := rfl
@[simp] theorem State.bump_todo (s : State) : (s.bump).todo = s.todo := rfl
@[simp] theorem State.bump_agenda (s : State) : (s.bump).agenda = s.agenda := rfl
@[simp] theorem State.bump_iss (s : State) : (s.bump).iss = s.iss := rfl
@[simp] theorem State.bump_fresh (s : State) : (s.bump).fresh = s.fresh + 1 := rfl
@[simp] theorem State.bump_mem (s : State) : (s.bump).mem = s.mem := rfl
@[simp] theorem State.bump_coats (s : State) : (s.bump).coats = s.coats := rfl
@[simp] theorem State.bump_ctxs (s : State) : (s.bump).ctxs = s.ctxs := rfl
@[simp] theorem State.bump_cores (s : State) : (s.bump).cores = s.cores := rfl
@[simp] theorem State.bump_pairs (s : State) : (s.bump).pairs = s.pairs := rfl
@[simp] theorem State.bump_faces (s : State) : (s.bump).faces = s.faces := rfl
@[simp] theorem State.bump_engines (s : State) : (s.bump).engines = s.engines := rfl
@[simp] theorem State.bump_slices (s : State) : (s.bump).slices = s.slices := rfl
@[simp] theorem State.bump_lines (s : State) : (s.bump).lines = s.lines := rfl
@[simp] theorem State.bump_doms (s : State) : (s.bump).doms = s.doms := rfl
@[simp] theorem State.bump_ft8base (s : State) : (s.bump).ft8base = s.ft8base := rfl
@[simp] theorem State.bump_ft8len (s : State) : (s.bump).ft8len = s.ft8len := rfl
@[simp] theorem State.bump_flash (s : State) : (s.bump).flash = s.flash := rfl
@[simp] theorem State.bump_handles (s : State) : (s.bump).handles = s.handles := rfl
@[simp] theorem State.bump_disps (s : State) : (s.bump).disps = s.disps := rfl
@[simp] theorem State.bump_queues (s : State) : (s.bump).queues = s.queues := rfl
@[simp] theorem State.bump_parts (s : State) : (s.bump).parts = s.parts := rfl
@[simp] theorem State.bump_colls (s : State) : (s.bump).colls = s.colls := rfl
@[simp] theorem State.bump_spawns (s : State) : (s.bump).spawns = s.spawns := rfl
@[simp] theorem State.bump_resumes (s : State) : (s.bump).resumes = s.resumes := rfl
@[simp] theorem State.bump_launches (s : State) : (s.bump).launches = s.launches := rfl
@[simp] theorem State.bump_plat (s : State) : (s.bump).plat = s.plat := rfl

/-! ### schedule -/

@[simp] theorem State.schedule_cycle (s : State) (t n : Nat) (i : Instr) : (s.schedule t n i).cycle = s.cycle := rfl
@[simp] theorem State.schedule_todo (s : State) (t n : Nat) (i : Instr) : (s.schedule t n i).todo = s.todo := rfl
@[simp] theorem State.schedule_agenda (s : State) (t n : Nat) (i : Instr) : (s.schedule t n i).agenda = s.agenda ++ [{ due := t, src := n, ev := i }] := rfl
@[simp] theorem State.schedule_iss (s : State) (t n : Nat) (i : Instr) : (s.schedule t n i).iss = s.iss := rfl
@[simp] theorem State.schedule_fresh (s : State) (t n : Nat) (i : Instr) : (s.schedule t n i).fresh = s.fresh := rfl
@[simp] theorem State.schedule_mem (s : State) (t n : Nat) (i : Instr) : (s.schedule t n i).mem = s.mem := rfl
@[simp] theorem State.schedule_coats (s : State) (t n : Nat) (i : Instr) : (s.schedule t n i).coats = s.coats := rfl
@[simp] theorem State.schedule_ctxs (s : State) (t n : Nat) (i : Instr) : (s.schedule t n i).ctxs = s.ctxs := rfl
@[simp] theorem State.schedule_cores (s : State) (t n : Nat) (i : Instr) : (s.schedule t n i).cores = s.cores := rfl
@[simp] theorem State.schedule_pairs (s : State) (t n : Nat) (i : Instr) : (s.schedule t n i).pairs = s.pairs := rfl
@[simp] theorem State.schedule_faces (s : State) (t n : Nat) (i : Instr) : (s.schedule t n i).faces = s.faces := rfl
@[simp] theorem State.schedule_engines (s : State) (t n : Nat) (i : Instr) : (s.schedule t n i).engines = s.engines := rfl
@[simp] theorem State.schedule_slices (s : State) (t n : Nat) (i : Instr) : (s.schedule t n i).slices = s.slices := rfl
@[simp] theorem State.schedule_lines (s : State) (t n : Nat) (i : Instr) : (s.schedule t n i).lines = s.lines := rfl
@[simp] theorem State.schedule_doms (s : State) (t n : Nat) (i : Instr) : (s.schedule t n i).doms = s.doms := rfl
@[simp] theorem State.schedule_ft8base (s : State) (t n : Nat) (i : Instr) : (s.schedule t n i).ft8base = s.ft8base := rfl
@[simp] theorem State.schedule_ft8len (s : State) (t n : Nat) (i : Instr) : (s.schedule t n i).ft8len = s.ft8len := rfl
@[simp] theorem State.schedule_flash (s : State) (t n : Nat) (i : Instr) : (s.schedule t n i).flash = s.flash := rfl
@[simp] theorem State.schedule_handles (s : State) (t n : Nat) (i : Instr) : (s.schedule t n i).handles = s.handles := rfl
@[simp] theorem State.schedule_disps (s : State) (t n : Nat) (i : Instr) : (s.schedule t n i).disps = s.disps := rfl
@[simp] theorem State.schedule_queues (s : State) (t n : Nat) (i : Instr) : (s.schedule t n i).queues = s.queues := rfl
@[simp] theorem State.schedule_parts (s : State) (t n : Nat) (i : Instr) : (s.schedule t n i).parts = s.parts := rfl
@[simp] theorem State.schedule_colls (s : State) (t n : Nat) (i : Instr) : (s.schedule t n i).colls = s.colls := rfl
@[simp] theorem State.schedule_spawns (s : State) (t n : Nat) (i : Instr) : (s.schedule t n i).spawns = s.spawns := rfl
@[simp] theorem State.schedule_resumes (s : State) (t n : Nat) (i : Instr) : (s.schedule t n i).resumes = s.resumes := rfl
@[simp] theorem State.schedule_launches (s : State) (t n : Nat) (i : Instr) : (s.schedule t n i).launches = s.launches := rfl
@[simp] theorem State.schedule_plat (s : State) (t n : Nat) (i : Instr) : (s.schedule t n i).plat = s.plat := rfl

/-! ### unschedule -/

@[simp] theorem State.unschedule_cycle (s : State) (i : Instr) : (s.unschedule i).cycle = s.cycle := rfl
@[simp] theorem State.unschedule_todo (s : State) (i : Instr) : (s.unschedule i).todo = s.todo := rfl
@[simp] theorem State.unschedule_agenda (s : State) (i : Instr) : (s.unschedule i).agenda = s.agenda.filter fun t => t.ev != i := rfl
@[simp] theorem State.unschedule_iss (s : State) (i : Instr) : (s.unschedule i).iss = s.iss := rfl
@[simp] theorem State.unschedule_fresh (s : State) (i : Instr) : (s.unschedule i).fresh = s.fresh := rfl
@[simp] theorem State.unschedule_mem (s : State) (i : Instr) : (s.unschedule i).mem = s.mem := rfl
@[simp] theorem State.unschedule_coats (s : State) (i : Instr) : (s.unschedule i).coats = s.coats := rfl
@[simp] theorem State.unschedule_ctxs (s : State) (i : Instr) : (s.unschedule i).ctxs = s.ctxs := rfl
@[simp] theorem State.unschedule_cores (s : State) (i : Instr) : (s.unschedule i).cores = s.cores := rfl
@[simp] theorem State.unschedule_pairs (s : State) (i : Instr) : (s.unschedule i).pairs = s.pairs := rfl
@[simp] theorem State.unschedule_faces (s : State) (i : Instr) : (s.unschedule i).faces = s.faces := rfl
@[simp] theorem State.unschedule_engines (s : State) (i : Instr) : (s.unschedule i).engines = s.engines := rfl
@[simp] theorem State.unschedule_slices (s : State) (i : Instr) : (s.unschedule i).slices = s.slices := rfl
@[simp] theorem State.unschedule_lines (s : State) (i : Instr) : (s.unschedule i).lines = s.lines := rfl
@[simp] theorem State.unschedule_doms (s : State) (i : Instr) : (s.unschedule i).doms = s.doms := rfl
@[simp] theorem State.unschedule_ft8base (s : State) (i : Instr) : (s.unschedule i).ft8base = s.ft8base := rfl
@[simp] theorem State.unschedule_ft8len (s : State) (i : Instr) : (s.unschedule i).ft8len = s.ft8len := rfl
@[simp] theorem State.unschedule_flash (s : State) (i : Instr) : (s.unschedule i).flash = s.flash := rfl
@[simp] theorem State.unschedule_handles (s : State) (i : Instr) : (s.unschedule i).handles = s.handles := rfl
@[simp] theorem State.unschedule_disps (s : State) (i : Instr) : (s.unschedule i).disps = s.disps := rfl
@[simp] theorem State.unschedule_queues (s : State) (i : Instr) : (s.unschedule i).queues = s.queues := rfl
@[simp] theorem State.unschedule_parts (s : State) (i : Instr) : (s.unschedule i).parts = s.parts := rfl
@[simp] theorem State.unschedule_colls (s : State) (i : Instr) : (s.unschedule i).colls = s.colls := rfl
@[simp] theorem State.unschedule_spawns (s : State) (i : Instr) : (s.unschedule i).spawns = s.spawns := rfl
@[simp] theorem State.unschedule_resumes (s : State) (i : Instr) : (s.unschedule i).resumes = s.resumes := rfl
@[simp] theorem State.unschedule_launches (s : State) (i : Instr) : (s.unschedule i).launches = s.launches := rfl
@[simp] theorem State.unschedule_plat (s : State) (i : Instr) : (s.unschedule i).plat = s.plat := rfl

/-! ### A function on one unit is a setter -/

theorem State.onCtx_eq (s : State) (c : Nat) (f : Ctx → Ctx) : s.onCtx c f = s.setCtx c (f (s.ctx c)) := rfl
theorem State.onCore_eq (s : State) (c : Nat) (f : Core → Core) : s.onCore c f = s.setCore c (f (s.core c)) := rfl
theorem State.onPair_eq (s : State) (p : Nat) (f : Pair → Pair) : s.onPair p f = s.setPair p (f (s.pair p)) := rfl
theorem State.onFace_eq (s : State) (n : Nat) (f : Face → Face) : s.onFace n f = s.setFace n (f (s.face n)) := rfl
theorem State.onEngine_eq (s : State) (e : Nat) (f : Engine → Engine) : s.onEngine e f = s.setEngine e (f (s.engine e)) := rfl
theorem State.onSlice_eq (s : State) (n : Nat) (f : Slice → Slice) : s.onSlice n f = s.setSlice n (f (s.slice n)) := rfl
theorem State.onDom_eq (s : State) (d : Nat) (f : Domain → Domain) : s.onDom d f = s.setDom d (f (s.dom d)) := rfl
theorem State.onStack_eq (s : State) (n : Nat) (f : Flash → Flash) : s.onStack n f = s.setStack n (f (s.stack n)) := rfl
theorem State.onHandle_eq (s : State) (h : Nat) (f : Handle → Handle) : s.onHandle h f = s.setHandle h (f (s.handle h)) := rfl
theorem State.onDisp_eq (s : State) (d : Nat) (f : Dispatcher → Dispatcher) : s.onDisp d f = s.setDisp d (f (s.disp d)) := rfl
theorem State.onQueue_eq (s : State) (n : Nat) (f : Queue → Queue) : s.onQueue n f = s.setQueue n (f (s.queue n)) := rfl
theorem State.onPart_eq (s : State) (p : Nat) (f : Part → Part) : s.onPart p f = s.setPart p (f (s.part p)) := rfl

end Sys2Proof.Machine
end

