-- ==== Sys2Proof/Laws/Tbl.lean ====
section
/-! SUPPORT. Sparse tables: a look after a put or a deletion. -/

namespace Sys2Proof

variable {α : Type}

@[simp] theorem Tbl.look_put_self (t : List (Nat × α)) (k : Nat) (v d : α) : Tbl.look (Tbl.put t k v) k d = v := by
  induction t with
  | nil => simp [Tbl.put, Tbl.look]
  | cons e t ih =>
    obtain ⟨j, x⟩ := e
    simp only [Tbl.put]
    split
    · simp [Tbl.look]
    · split
      · simp [Tbl.look]
      · rename_i h1 h2
        simp [Tbl.look, ih, Ne.symm h2]

theorem Tbl.look_put_other (t : List (Nat × α)) {k j : Nat} (v d : α) (h : j ≠ k) :
    Tbl.look (Tbl.put t k v) j d = Tbl.look t j d := by
  induction t with
  | nil => simp [Tbl.put, Tbl.look, Ne.symm h]
  | cons e t ih =>
    obtain ⟨i, x⟩ := e
    simp only [Tbl.put]
    split
    · simp [Tbl.look, Ne.symm h]
    · split
      · rename_i h1 h2
        subst h2
        simp [Tbl.look, Ne.symm h]
      · simp only [Tbl.look, ih]

@[simp] theorem Tbl.find_put_self (t : List (Nat × α)) (k : Nat) (v : α) : Tbl.find (Tbl.put t k v) k = some v := by
  induction t with
  | nil => simp [Tbl.put, Tbl.find]
  | cons e t ih =>
    obtain ⟨j, x⟩ := e
    simp only [Tbl.put]
    split
    · simp [Tbl.find]
    · split
      · simp [Tbl.find]
      · rename_i h1 h2
        simp [Tbl.find, ih, Ne.symm h2]

theorem Tbl.find_put_other (t : List (Nat × α)) {k j : Nat} (v : α) (h : j ≠ k) :
    Tbl.find (Tbl.put t k v) j = Tbl.find t j := by
  induction t with
  | nil => simp [Tbl.put, Tbl.find, Ne.symm h]
  | cons e t ih =>
    obtain ⟨i, x⟩ := e
    simp only [Tbl.put]
    split
    · simp [Tbl.find, Ne.symm h]
    · split
      · rename_i h1 h2
        subst h2
        simp [Tbl.find, Ne.symm h]
      · simp only [Tbl.find, ih]

@[simp] theorem Tbl.look_del_self (t : List (Nat × α)) (k : Nat) (d : α) : Tbl.look (Tbl.del t k) k d = d := by
  induction t with
  | nil => rfl
  | cons e t ih =>
    obtain ⟨j, x⟩ := e
    by_cases h : j = k
    · simp [Tbl.del, h] at ih ⊢; exact ih
    · simp [Tbl.del, h, Tbl.look] at ih ⊢; exact ih

theorem Tbl.look_del_other (t : List (Nat × α)) {k j : Nat} (d : α) (h : j ≠ k) :
    Tbl.look (Tbl.del t k) j d = Tbl.look t j d := by
  induction t with
  | nil => rfl
  | cons e t ih =>
    obtain ⟨i, x⟩ := e
    by_cases hi : i = k
    · subst hi; simp [Tbl.del, Tbl.look, Ne.symm h] at ih ⊢; exact ih
    · simp [Tbl.del, hi, Tbl.look] at ih ⊢; rw [ih]

@[simp] theorem Tbl.find_del_self (t : List (Nat × α)) (k : Nat) : Tbl.find (Tbl.del t k) k = none := by
  induction t with
  | nil => rfl
  | cons e t ih =>
    obtain ⟨j, x⟩ := e
    by_cases h : j = k
    · simp [Tbl.del, h] at ih ⊢; exact ih
    · simp [Tbl.del, h, Tbl.find] at ih ⊢; exact ih

/-- A look is what `find` answers, with the default for an unlisted key. -/
theorem Tbl.look_eq_find (t : List (Nat × α)) (k : Nat) (d : α) : Tbl.look t k d = (Tbl.find t k).getD d := by
  induction t with
  | nil => rfl
  | cons e t ih =>
    obtain ⟨j, x⟩ := e
    by_cases h : j = k <;> simp [Tbl.look, Tbl.find, h, ih]

/-- Where a key is put, the keys that were listed stay listed. -/
theorem Tbl.mem_put (t : List (Nat × α)) (k : Nat) (v : α) (e : Nat × α) :
    e ∈ Tbl.put t k v → e = (k, v) ∨ e ∈ t := by
  induction t with
  | nil => simp [Tbl.put]
  | cons f t ih =>
    obtain ⟨j, x⟩ := f
    simp only [Tbl.put]
    split
    · simp
    · split
      · simp only [List.mem_cons]; tauto
      · simp only [List.mem_cons]; tauto

end Sys2Proof
end

