-- ==== Sys2Proof/Laws/Memory.lean ====
section
/-! SUPPORT. Memory: a read after a write, and that every operation on the list keeps its canonical form. -/

namespace Sys2Proof.Machine

/-! ## Read after write -/

theorem memGet_memPut_self (m : List Host.Cell) (a : Nat) (v : Byte) : memGet (memPut m a v) a = v := by
  unfold memGet memPut
  split
  · subst_vars; simp
  · simp

theorem memGet_memPut_other (m : List Host.Cell) {a b : Nat} (v : Byte) (h : b ≠ a) :
    memGet (memPut m a v) b = memGet m b := by
  unfold memGet memPut
  split
  · exact Tbl.look_del_other m 0 h
  · exact Tbl.look_put_other m v 0 h

/-- A byte outside a run of written bytes is as before. -/
theorem memGet_memPutBytes_other (bs : List Byte) (m : List Host.Cell) (a b : Nat)
    (h : b < a ∨ a + bs.length ≤ b) : memGet (memPutBytes m a bs) b = memGet m b := by
  induction bs generalizing m a with
  | nil => rfl
  | cons x xs ih =>
    simp only [memPutBytes, List.length_cons] at h ⊢
    rw [ih _ _ (by omega), memGet_memPut_other _ _ (by omega)]

/-- A byte of a run of written bytes is the one written. -/
theorem memGet_memPutBytes_at (bs : List Byte) (m : List Host.Cell) (a i : Nat) (h : i < bs.length) :
    memGet (memPutBytes m a bs) (a + i) = bs[i] := by
  induction bs generalizing m a i with
  | nil => simp at h
  | cons x xs ih =>
    cases i with
    | zero =>
      simp only [memPutBytes, Nat.add_zero, List.getElem_cons_zero]
      rw [memGet_memPutBytes_other _ _ _ _ (by omega), memGet_memPut_self]
    | succ i =>
      simp only [memPutBytes, List.getElem_cons_succ]
      rw [show a + (i + 1) = a + 1 + i by omega]
      exact ih _ _ _ (by simpa using h)

/-! ## The canonical form -/

/-- The canonical form as a proposition: keys rise and no byte is 0. -/
theorem Memory.wf_iff (m : List Host.Cell) :
    Memory.wf m = true ↔ m.Pairwise (fun c d => c.1 < d.1) ∧ ∀ c ∈ m, c.2 ≠ 0 := by
  induction m with
  | nil => simp [Memory.wf]
  | cons c t ih =>
    cases t with
    | nil => simp [Memory.wf]
    | cons d t =>
      simp only [Memory.wf, Bool.and_eq_true, bne_iff_ne, decide_eq_true_eq, ih, List.pairwise_cons, List.mem_cons,
        forall_eq_or_imp]
      constructor
      · rintro ⟨⟨h0, h1⟩, ⟨h2, h3⟩, h4, h5⟩
        exact ⟨⟨⟨h1, fun e he => lt_trans h1 (h2 e he)⟩, h2, h3⟩, h0, h4, h5⟩
      · rintro ⟨⟨⟨h1, -⟩, h2, h3⟩, h0, h4, h5⟩
        exact ⟨⟨h0, h1⟩, ⟨h2, h3⟩, h4, h5⟩

theorem Memory.wf_nil : Memory.wf [] = true := rfl

/-- Any part of a canonical list, in order, is canonical. -/
theorem Memory.wf_filter (m : List Host.Cell) (p : Host.Cell → Bool) (h : Memory.wf m = true) :
    Memory.wf (m.filter p) = true := by
  rw [Memory.wf_iff] at h ⊢
  exact ⟨h.1.filter p, fun c hc => h.2 c (List.mem_of_mem_filter hc)⟩

theorem Memory.wf_del (m : List Host.Cell) (a : Nat) (h : Memory.wf m = true) : Memory.wf (Tbl.del m a) = true :=
  Memory.wf_filter m _ h

theorem Memory.wf_put (m : List Host.Cell) (a : Nat) (v : Byte) (hv : v ≠ 0) (h : Memory.wf m = true) :
    Memory.wf (Tbl.put m a v) = true := by
  rw [Memory.wf_iff] at h ⊢
  obtain ⟨h1, h2⟩ := h
  induction m with
  | nil => simpa [Tbl.put] using hv
  | cons c t ih =>
    obtain ⟨j, x⟩ := c
    simp only [List.pairwise_cons, List.mem_cons, forall_eq_or_imp] at h1 h2
    simp only [Tbl.put]
    split
    · rename_i hlt
      refine ⟨?_, ?_⟩
      · simp only [List.pairwise_cons, List.mem_cons, forall_eq_or_imp]
        exact ⟨⟨hlt, fun e he => lt_trans hlt (h1.1 e he)⟩, h1⟩
      · simp only [List.mem_cons, forall_eq_or_imp]; exact ⟨hv, h2⟩
    · split
      · rename_i h3; subst h3
        refine ⟨by simpa using h1, ?_⟩
        simp only [List.mem_cons, forall_eq_or_imp]
        exact ⟨hv, h2.2⟩
      · rename_i hlt hne
        obtain ⟨i1, i2⟩ := ih h1.2 h2.2
        refine ⟨?_, ?_⟩
        · simp only [List.pairwise_cons]
          refine ⟨fun e he => ?_, i1⟩
          rcases Tbl.mem_put t a v e he with rfl | he
          · simp only; omega
          · exact h1.1 e he
        · simp only [List.mem_cons, forall_eq_or_imp]; exact ⟨h2.1, i2⟩

theorem Memory.wf_memPut (m : List Host.Cell) (a : Nat) (v : Byte) (h : Memory.wf m = true) :
    Memory.wf (memPut m a v) = true := by
  unfold memPut
  split
  · exact Memory.wf_del m a h
  · exact Memory.wf_put m a v ‹_› h

theorem Memory.wf_memPutBytes (bs : List Byte) (m : List Host.Cell) (a : Nat) (h : Memory.wf m = true) :
    Memory.wf (memPutBytes m a bs) = true := by
  induction bs generalizing m a with
  | nil => exact h
  | cons x xs ih => exact ih _ _ (Memory.wf_memPut m a x h)

/-! ## The state's operations on memory -/

@[simp] theorem length_leBytes (n x : Nat) : (leBytes n x).length = n := by
  induction n generalizing x with
  | zero => rfl
  | succ n ih => simp [leBytes, ih]

theorem State.wf_putBlock (s : State) (p : Nat) (b : BlockVal) (h : Memory.wf s.mem = true) :
    Memory.wf (s.putBlock p b).mem = true := Memory.wf_memPutBytes _ _ _ h

theorem State.wf_writeAt (s : State) (p : Nat) (w : BWrite) (h : Memory.wf s.mem = true) :
    Memory.wf (s.writeAt p w).mem = true := s.wf_putBlock _ _ h

/-- A write at one place leaves every byte outside its 64 as it was. -/
theorem State.writeAt_frame (s : State) (p a : Nat) (w : BWrite) (h : a < p ∨ p + 64 ≤ a) :
    memGet (s.writeAt p w).mem a = memGet s.mem a := by
  unfold State.writeAt State.putBlock
  refine memGet_memPutBytes_other _ _ _ _ ?_
  rw [length_leBytes]
  exact h

end Sys2Proof.Machine
end

