-- ==== Sys2Proof/Laws/Slot.lean ====
section
/-! SUPPORT. The frame of every slot instruction: everything it can do, and when it does which (R22 to R43); the units
of the state after an update of one of them. -/

namespace Sys2Proof.Machine

/-! ## A unit after an update of one of its kind -/

@[simp] theorem State.ctx_setCtx_self (s : State) (c : Nat) (x : Ctx) : (s.setCtx c x).ctx c = x := by
  simp [State.ctx]
theorem State.ctx_setCtx_other (s : State) {c e : Nat} (x : Ctx) (h : e ≠ c) : (s.setCtx c x).ctx e = s.ctx e := by
  simp only [State.ctx, State.setCtx_ctxs]; exact Tbl.look_put_other _ _ _ h
@[simp] theorem State.ctx_onCtx_self (s : State) (c : Nat) (f : Ctx → Ctx) : (s.onCtx c f).ctx c = f (s.ctx c) :=
  s.ctx_setCtx_self c _
theorem State.ctx_onCtx_other (s : State) {c e : Nat} (f : Ctx → Ctx) (h : e ≠ c) : (s.onCtx c f).ctx e = s.ctx e :=
  s.ctx_setCtx_other _ h
@[simp] theorem State.core_setCore_self (s : State) (c : Nat) (x : Core) : (s.setCore c x).core c = x := by
  simp [State.core]
theorem State.core_setCore_other (s : State) {c e : Nat} (x : Core) (h : e ≠ c) :
    (s.setCore c x).core e = s.core e := by
  simp only [State.core, State.setCore_cores]; exact Tbl.look_put_other _ _ _ h
@[simp] theorem State.core_onCore_self (s : State) (c : Nat) (f : Core → Core) :
    (s.onCore c f).core c = f (s.core c) := s.core_setCore_self c _
theorem State.core_onCore_other (s : State) {c e : Nat} (f : Core → Core) (h : e ≠ c) :
    (s.onCore c f).core e = s.core e := s.core_setCore_other _ h
@[simp] theorem State.ctx_onCore (s : State) (c e : Nat) (f : Core → Core) : (s.onCore c f).ctx e = s.ctx e := rfl
@[simp] theorem State.core_onCtx (s : State) (c e : Nat) (f : Ctx → Ctx) : (s.onCtx c f).core e = s.core e := rfl
@[simp] theorem State.pair_setPair_self (s : State) (p : Nat) (x : Pair) : (s.setPair p x).pair p = x := by
  simp [State.pair]
@[simp] theorem State.pair_onPair_self (s : State) (p : Nat) (f : Pair → Pair) :
    (s.onPair p f).pair p = f (s.pair p) := s.pair_setPair_self p _
@[simp] theorem State.face_setFace_self (s : State) (n : Nat) (x : Face) : (s.setFace n x).face n = x := by
  simp [State.face]
@[simp] theorem State.face_onFace_self (s : State) (n : Nat) (f : Face → Face) :
    (s.onFace n f).face n = f (s.face n) := s.face_setFace_self n _
@[simp] theorem State.engine_setEngine_self (s : State) (e : Nat) (x : Engine) : (s.setEngine e x).engine e = x := by
  simp [State.engine]
@[simp] theorem State.slice_setSlice_self (s : State) (n : Nat) (x : Slice) : (s.setSlice n x).slice n = x := by
  simp [State.slice]
@[simp] theorem State.dom_setDom_self (s : State) (d : Nat) (x : Domain) : (s.setDom d x).dom d = x := by
  simp [State.dom]
@[simp] theorem State.stack_setStack_self (s : State) (n : Nat) (x : Flash) : (s.setStack n x).stack n = x := by
  simp [State.stack]
@[simp] theorem State.handle_setHandle_self (s : State) (h : Nat) (x : Handle) : (s.setHandle h x).handle h = x := by
  simp [State.handle]
@[simp] theorem State.disp_setDisp_self (s : State) (d : Nat) (x : Dispatcher) : (s.setDisp d x).disp d = x := by
  simp [State.disp]
@[simp] theorem State.queue_setQueue_self (s : State) (n : Nat) (x : Queue) : (s.setQueue n x).queue n = x := by
  simp [State.queue]
@[simp] theorem State.part_setPart_self (s : State) (p : Nat) (x : Part) : (s.setPart p x).part p = x := by
  simp [State.part]
@[simp] theorem State.part_onPart_self (s : State) (p : Nat) (f : Part → Part) :
    (s.onPart p f).part p = f (s.part p) := s.part_setPart_self p _

/-! ## The point of issue -/

/-- Every field but the context in hand and the point of issue is as before. -/
theorem State.commit_eq (s : State) : s.commit =
    { (s.setCtx s.cs { s.cx with prefixes := Tbl.del s.cx.prefixes s.iss.slot }) with
      iss := { s.iss with verdict := .committed } } := rfl

/-- A result in flight is appended to the context in hand; nothing else changes. -/
theorem State.result_eq (s : State) (lat : Nat) (w : Write) : s.result lat w =
    s.setCtx s.cs { s.cx with
      inflight := s.cx.inflight ++ [{ due := s.cycle + lat, slot := s.iss.slot, w := w, issued := s.cycle }] } := rfl

@[simp] theorem State.result_iss (s : State) (lat : Nat) (w : Write) : (s.result lat w).iss = s.iss := rfl
@[simp] theorem State.result_mem (s : State) (lat : Nat) (w : Write) : (s.result lat w).mem = s.mem := rfl
@[simp] theorem State.result_coats (s : State) (lat : Nat) (w : Write) : (s.result lat w).coats = s.coats := rfl
@[simp] theorem State.result_cores (s : State) (lat : Nat) (w : Write) : (s.result lat w).cores = s.cores := rfl
@[simp] theorem State.result_pairs (s : State) (lat : Nat) (w : Write) : (s.result lat w).pairs = s.pairs := rfl
@[simp] theorem State.result_faces (s : State) (lat : Nat) (w : Write) : (s.result lat w).faces = s.faces := rfl
@[simp] theorem State.result_cycle (s : State) (lat : Nat) (w : Write) : (s.result lat w).cycle = s.cycle := rfl
@[simp] theorem State.commit_mem (s : State) : s.commit.mem = s.mem := rfl
@[simp] theorem State.commit_coats (s : State) : s.commit.coats = s.coats := rfl
@[simp] theorem State.commit_cores (s : State) : s.commit.cores = s.cores := rfl
@[simp] theorem State.commit_pairs (s : State) : s.commit.pairs = s.pairs := rfl
@[simp] theorem State.commit_faces (s : State) : s.commit.faces = s.faces := rfl
@[simp] theorem State.commit_verdict (s : State) : s.commit.iss.verdict = .committed := rfl
@[simp] theorem State.hold_verdict (s : State) (b : Bool) : (s.hold b).iss.verdict = .held b := rfl
@[simp] theorem State.takeTrap_verdict (s : State) (k : Cause) : (s.takeTrap k).iss.verdict = .trapped k := rfl

/-- The context in hand after a commit: its slot's prefix is gone. -/
theorem State.ctx_commit (s : State) :
    s.commit.ctx s.cs = { s.cx with prefixes := Tbl.del s.cx.prefixes s.iss.slot } := by
  rw [State.commit_eq]; exact s.ctx_setCtx_self _ _

/-- Another context is as it was. -/
theorem State.ctx_commit_other (s : State) {e : Nat} (h : e ≠ s.cs) : s.commit.ctx e = s.ctx e := by
  rw [State.commit_eq]; exact s.ctx_setCtx_other _ h

/-! ## slotOp -/

section
variable (i : Instr) (pred : Option (BitVec 4)) (u : Uses) (priv : Bool) (wait : State → Option (Bool × State))
  (causes : State → List Cause) (body : State → State) (s : State)

/-- When the bundle has been found free to issue, the slot does what it does, unless its predicate is false. -/
theorem slotOp_sure (h : s.iss.sure = true) :
    slotOp i pred u priv wait causes body s =
      .next (if pred.all fun p => s.cx.preg p then (body s).commit else s.commit) := by
  simp [slotOp, h]

/-- A cause that follows from the word alone traps, unless a value of the operands makes the slot ILLOP (R43). -/
theorem slotOp_word {k : Cause} (h : s.iss.sure = false) (hk : firstCause (wordCauses i u priv s) = some k) :
    slotOp i pred u priv wait causes body s = .next (s.takeTrap (valueFirst pred u wait causes s k)) := by
  simp [slotOp, h, hk]

/-- No value of the operands ranks before a cause of the word: it is ILLOP itself or of another stage, or the values make no
ILLOP (R43). -/
theorem valueFirst_eq {k : Cause} (h : k.stage ≠ 3 ∨ k.code = 1 ∨ ∀ j ∈ causes s, ¬ (j.stage = 3 ∧ j.code = 1)) :
    valueFirst pred u wait causes s k = k := by
  unfold valueFirst
  split
  · rename_i g
    have hn : (causes s).find? (fun j => j.stage == 3 && j.code == 1) = none := by
      simp only [Bool.and_eq_true, beq_iff_eq, bne_iff_ne] at g
      rw [List.find?_eq_none]
      intro j hj
      rcases h with h | h | h
      · exact absurd g.1.1.1.1 h
      · exact absurd h g.1.1.1.2
      · simpa using h j hj
    rw [hn]
  · rfl

/-- A word in order whose predicate is false commits with no effect. -/
theorem slotOp_skip (hk : wordCauses i u priv s = []) (hp : (pred.all fun p => s.cx.preg p) = false)
    (hc : s.cx.chk = false ∨ s.cx.inflight = []) :
    slotOp i pred u priv wait causes body s = .next s.commit := by
  unfold slotOp
  split
  · simp [hp]
  · simp only [hk, firstCause, List.foldl_nil, hp]
    rcases hc with hc | hc <;> simp [hc, Uses.short]

/-- A word in order that nothing holds and that meets no cause does what it does. -/
theorem slotOp_go (hk : wordCauses i u priv s = []) (hp : (pred.all fun p => s.cx.preg p) = true)
    (hi : u.interlocked s.cx = false) (hw : wait s = none) (hc : s.cx.chk = false ∨ s.cx.inflight = [])
    (hq : causes s = []) :
    slotOp i pred u priv wait causes body s = .next (body s).commit := by
  unfold slotOp
  split
  · simp
  · simp only [hk, firstCause, List.foldl_nil, hp, hi, hw, hq]
    rcases hc with hc | hc <;> simp [hc, Uses.short]

/-- Everything that the frame can do: commit with or without the effect, wait, or trap. -/
theorem slotOp_cases {t : State} (h : slotOp i pred u priv wait causes body s = .next t) :
    t = s.commit ∨ t = (body s).commit ∨ t = s.hold true ∨
      (∃ b s', wait s = some (b, s') ∧ t = s'.hold b) ∨ ∃ k, t = s.takeTrap k := by
  unfold slotOp at h
  repeat' split at h
  all_goals
    injection h with h
    first
    | with_reducible exact .inl h.symm
    | with_reducible exact .inr (.inl h.symm)
    | with_reducible exact .inr (.inr (.inl h.symm))
    | with_reducible exact .inr (.inr (.inr (.inl ⟨_, _, ‹_›, h.symm⟩)))
    | with_reducible exact .inr (.inr (.inr (.inr ⟨_, h.symm⟩)))

/-- The frame always answers a next state. -/
theorem slotOp_next : ∃ t, slotOp i pred u priv wait causes body s = .next t := by
  unfold slotOp
  repeat' split
  all_goals exact ⟨_, rfl⟩

end

end Sys2Proof.Machine
end

