-- ==== Sys2Proof/Laws/Access.lean ====
section
/-! SUPPORT. What an access to memory may change: bytes, coats, lines, slices, domains, flash stacks and the occasion
counter, and of a context nothing but its monitor (R178 to R187, R286 to R305, R332). Every access keeps the canonical
form of memory. -/

namespace Sys2Proof.Machine

/-- From `s` an access to memory may lead to `t`. -/
structure MemOnly (s t : State) : Prop where
  cycle : t.cycle = s.cycle
  todo : t.todo = s.todo
  agenda : t.agenda = s.agenda
  iss : t.iss = s.iss
  cores : t.cores = s.cores
  pairs : t.pairs = s.pairs
  faces : t.faces = s.faces
  engines : t.engines = s.engines
  ft8base : t.ft8base = s.ft8base
  ft8len : t.ft8len = s.ft8len
  handles : t.handles = s.handles
  disps : t.disps = s.disps
  queues : t.queues = s.queues
  parts : t.parts = s.parts
  colls : t.colls = s.colls
  spawns : t.spawns = s.spawns
  resumes : t.resumes = s.resumes
  launches : t.launches = s.launches
  plat : t.plat = s.plat
  ctxs : ∀ c, { t.ctx c with monitor := (s.ctx c).monitor } = s.ctx c
  wf : Memory.wf s.mem = true → Memory.wf t.mem = true

theorem MemOnly.refl (s : State) : MemOnly s s := by constructor <;> intros <;> first | rfl | assumption

theorem MemOnly.trans {s t u : State} (h : MemOnly s t) (k : MemOnly t u) : MemOnly s u where
  cycle := k.cycle.trans h.cycle
  todo := k.todo.trans h.todo
  agenda := k.agenda.trans h.agenda
  iss := k.iss.trans h.iss
  cores := k.cores.trans h.cores
  pairs := k.pairs.trans h.pairs
  faces := k.faces.trans h.faces
  engines := k.engines.trans h.engines
  ft8base := k.ft8base.trans h.ft8base
  ft8len := k.ft8len.trans h.ft8len
  handles := k.handles.trans h.handles
  disps := k.disps.trans h.disps
  queues := k.queues.trans h.queues
  parts := k.parts.trans h.parts
  colls := k.colls.trans h.colls
  spawns := k.spawns.trans h.spawns
  resumes := k.resumes.trans h.resumes
  launches := k.launches.trans h.launches
  plat := k.plat.trans h.plat
  ctxs := fun c => by
    have a := h.ctxs c
    have b := k.ctxs c
    rw [← a, ← b]
  wf := fun w => k.wf (h.wf w)

/-- An update of slices, domains, flash stacks, lines, coats and the counter alone is an access. -/
theorem MemOnly.of_eq {s t : State} (hm : t.mem = s.mem)
    (h : t = { s with coats := t.coats, lines := t.lines, slices := t.slices, doms := t.doms, flash := t.flash
                      fresh := t.fresh }) : MemOnly s t := by
  constructor <;> intros <;> first | (rw [h]; done) | (rw [hm]; assumption) | skip
  rw [h]; rfl

theorem State.putBlock_memOnly (s : State) (p : Nat) (b : BlockVal) : MemOnly s (s.putBlock p b) := by
  constructor <;> intros <;> first | rfl | skip
  exact s.wf_putBlock p b ‹_›

theorem State.writeAt_memOnly (s : State) (p : Nat) (w : BWrite) : MemOnly s (s.writeAt p w) := s.putBlock_memOnly _ _

theorem State.onSlice_memOnly (s : State) (n : Nat) (f : Slice → Slice) : MemOnly s (s.onSlice n f) := .of_eq rfl rfl
theorem State.onDom_memOnly (s : State) (d : Nat) (f : Domain → Domain) : MemOnly s (s.onDom d f) := .of_eq rfl rfl
theorem State.setDom_memOnly (s : State) (d : Nat) (x : Domain) : MemOnly s (s.setDom d x) := .of_eq rfl rfl
theorem State.lines_memOnly (s : State) (l : Tbl Line) : MemOnly s { s with lines := l } := .of_eq rfl rfl

theorem State.setPte_memOnly (s : State) (r idx : Nat) (e : Pte) : MemOnly s (s.setPte r idx e) := by
  constructor <;> intros <;> first | rfl | skip
  exact Memory.wf_memPutBytes _ _ _ ‹_›

theorem State.readCodeword_memOnly (s : State) (n cw b : Nat) : MemOnly s (s.readCodeword n cw b).2 := .of_eq rfl rfl

theorem State.forwardRead_memOnly (s : State) (n cw : Nat) : MemOnly s (s.forwardRead n cw).2 := by
  unfold State.forwardRead
  have h := s.readCodeword_memOnly n cw 1
  generalize s.readCodeword n cw 1 = r at h ⊢
  exact h.trans (by dsimp only; exact State.onDom_memOnly _ _ _)

theorem State.readLba_memOnly (s : State) (n lba blk : Nat) : MemOnly s (s.readLba n lba blk).2 := by
  unfold State.readLba
  split
  · exact .refl s
  · exact s.forwardRead_memOnly _ _

theorem State.pte_memOnly (s : State) (d r idx : Nat) : MemOnly s (s.pte d r idx).2 := by
  unfold State.pte
  dsimp only
  split
  · exact .refl s
  · split
    · exact .refl s
    · dsimp only
      exact s.onDom_memOnly d _

theorem State.memRead_memOnly (s : State) (q : Req) (d ia : Nat) : MemOnly s (s.memRead q d ia).2 := by
  have hp := s.pte_memOnly d (iaRegion ia) (iaPage ia)
  unfold State.memRead
  dsimp only
  split
  · rename_i h; rw [h] at hp; exact hp
  · rename_i e s' h
    rw [h] at hp
    refine hp.trans ?_
    have hs (e : Pte) := s'.setPte_memOnly (iaRegion ia) (iaPage ia) e
    dsimp only
    split
    · exact .refl _
    · split
      · exact .refl _
      · split
        · exact hs _
        · split
          · dsimp only
            split
            · exact ((hs _).trans (State.readLba_memOnly _ d _ _)).trans
                ((State.onDom_memOnly _ d _).trans (State.setDom_memOnly _ d _))
            · exact ((hs _).trans (State.readLba_memOnly _ d _ _)).trans (State.onDom_memOnly _ d _)
          · split
            · exact hs _
            · split
              · exact hs _
              · exact (hs _).trans (State.readLba_memOnly _ _ _ _)

theorem State.memWrite_memOnly (s : State) (q : Req) (d ia : Nat) (w : BWrite) : MemOnly s (s.memWrite q d ia w).2 := by
  have hp := s.pte_memOnly d (iaRegion ia) (iaPage ia)
  unfold State.memWrite
  dsimp only
  split
  · rename_i h; rw [h] at hp; exact hp
  · rename_i e s' h
    rw [h] at hp
    refine hp.trans ?_
    have hs (e : Pte) := s'.setPte_memOnly (iaRegion ia) (iaPage ia) e
    dsimp only
    split
    · exact .refl _
    · split
      · exact .refl _
      · split
        · exact (hs _).trans (State.writeAt_memOnly _ _ _)
        · split
          · dsimp only
            exact State.onDom_memOnly _ d _
          · split
            · exact (hs _).trans (State.writeAt_memOnly _ _ _)
            · split
              · dsimp only
                exact ((hs _).trans (State.writeAt_memOnly _ _ _)).trans (State.onDom_memOnly _ d _)
              · dsimp only
                refine MemOnly.trans ?_ (State.onDom_memOnly _ d _)
                refine MemOnly.trans ?_ (State.putBlock_memOnly _ _ _)
                refine MemOnly.trans ?_ (State.setPte_memOnly _ _ _ _)
                split
                · exact .refl _
                · exact State.readLba_memOnly _ _ _ _

theorem State.writeBack_memOnly (s : State) (key : Nat) (ln : Line) : MemOnly s (s.writeBack key ln) := by
  unfold State.writeBack
  dsimp only
  split
  · exact (State.memWrite_memOnly _ _ _ _ _).trans (State.onSlice_memOnly _ _ _)
  · exact ((State.memWrite_memOnly _ _ _ _ _).trans (State.onSlice_memOnly _ _ _)).trans (State.onDom_memOnly _ _ _)

theorem State.fillWays_memOnly (s : State) (d n ia : Nat) : MemOnly s (s.fillWays d n ia).2 := by
  unfold State.fillWays
  dsimp only
  split
  · exact .refl s
  · split
    · dsimp only
      exact s.onSlice_memOnly n _
    · dsimp only
      exact s.onSlice_memOnly n _

theorem State.touchLine_memOnly (s : State) (key way : Nat) (hit : Bool) : MemOnly s (s.touchLine key way hit) :=
  s.onSlice_memOnly _ _
theorem State.countMiss_memOnly (s : State) (key : Nat) : MemOnly s (s.countMiss key) := s.onSlice_memOnly _ _

theorem State.fill_memOnly (s : State) (key : Nat) (ln : Line) : MemOnly s (s.fill key ln) := by
  unfold State.fill
  dsimp only
  refine (s.fillWays_memOnly (lineDom key) (homeSlice (lineDom key) (lineIa key)) (lineIa key)).trans ?_
  generalize (s.fillWays (lineDom key) (homeSlice (lineDom key) (lineIa key)) (lineIa key)) = r
  obtain ⟨ways, s'⟩ := r
  dsimp only
  split
  · split
    · exact State.writeBack_memOnly _ _ _
    · exact .refl _
  · refine MemOnly.trans ?_ (State.touchLine_memOnly _ _ _ _)
    refine MemOnly.trans ?_ (State.lines_memOnly _ _)
    split
    · split
      · exact (State.lines_memOnly _ _).trans (State.writeBack_memOnly _ _ _)
      · exact State.lines_memOnly _ _
    · exact .refl _

/-- A table whose entries are all changed in the same way. -/
theorem Tbl.look_map {α : Type} (f : α → α) (t : List (Nat × α)) (k : Nat) (d : α) :
    Tbl.look (t.map fun (j, x) => (j, f x)) k d = if (Tbl.find t k).isSome then f (Tbl.look t k d) else d := by
  induction t with
  | nil => rfl
  | cons e t ih =>
    obtain ⟨j, x⟩ := e
    by_cases h : j = k <;> simp [Tbl.look, Tbl.find, h, ih]

theorem Tbl.look_of_find_none {α : Type} (t : List (Nat × α)) (k : Nat) (d : α) (h : (Tbl.find t k).isSome = false) :
    Tbl.look t k d = d := by
  rw [Tbl.look_eq_find]
  cases e : Tbl.find t k with
  | none => rfl
  | some x => rw [e] at h; cases h

theorem State.trigger_memOnly (s : State) (key : Nat) : MemOnly s (s.trigger key) := by
  constructor <;> intros <;> first | rfl | assumption | skip
  rename_i c
  have : (s.trigger key).ctx c =
      if (Tbl.find s.ctxs c).isSome then
        (if (s.ctx c).monitor = .armed key then { s.ctx c with monitor := .triggered key } else s.ctx c)
      else {} :=
    Tbl.look_map (fun (x : Ctx) => if x.monitor = .armed key then { x with monitor := .triggered key } else x) s.ctxs c {}
  rw [this]
  cases h : (Tbl.find s.ctxs c).isSome with
  | true =>
    simp only [if_true]
    split <;> rfl
  | false =>
    have : s.ctx c = {} := Tbl.look_of_find_none _ _ _ h
    simp [this]

theorem State.hitRead_memOnly (s : State) (q : Req) (d ia : Nat) : MemOnly s (s.hitRead q d ia).2 := by
  have hp := s.pte_memOnly d (iaRegion ia) (iaPage ia)
  unfold State.hitRead
  dsimp only
  split
  · rename_i h; rw [h] at hp; exact hp
  · rename_i e s' h
    rw [h] at hp
    refine hp.trans ?_
    dsimp only
    split
    · exact .refl _
    · split
      · exact .refl _
      · split
        · dsimp only
          exact (s'.setPte_memOnly _ _ _).trans (State.onDom_memOnly _ d _)
        · exact s'.setPte_memOnly _ _ _

theorem State.lineRead_memOnly (s : State) (q : Req) (ia : Nat) : MemOnly s (s.lineRead q ia).2 := by
  unfold State.lineRead
  split
  · exact .refl s
  · dsimp only
    split
    · split
      · exact s.countMiss_memOnly _
      · have h : MemOnly s (if q.copy = true then s.hitRead q (s.homeDom q ia) ia else (none, s)).2 := by
          split
          · exact s.hitRead_memOnly _ _ _
          · exact .refl s
        split
        · rename_i e; rw [e] at h; exact h
        · rename_i s' e; rw [e] at h; exact h.trans (s'.touchLine_memOnly _ _ _)
    · have h := s.memRead_memOnly q (s.homeDom q ia) ia
      split
      · rename_i b s' e
        rw [e] at h
        dsimp only
        split
        · exact h.trans ((State.countMiss_memOnly s' _).trans (State.fill_memOnly _ _ _))
        · exact h.trans (State.countMiss_memOnly s' _)
      · rename_i c s' e
        rw [e] at h
        exact h.trans (State.countMiss_memOnly _ _)

/-- A fold of accesses is an access. -/
theorem MemOnly.foldl {β : Type} (f : State → β → State) (hf : ∀ s b, MemOnly s (f s b)) (l : List β) (s : State) :
    MemOnly s (l.foldl f s) := by
  induction l generalizing s with
  | nil => exact .refl s
  | cons b l ih => exact (hf s b).trans (ih _)

theorem State.primaryLine_memOnly (s : State) (q : Req) (e : Pte) (ia : Nat) : MemOnly s (s.primaryLine q e ia) := by
  unfold State.primaryLine
  dsimp only
  split
  · exact s.touchLine_memOnly _ _ _
  · split
    · exact (s.countMiss_memOnly _).trans (State.fill_memOnly _ _ _)
    · exact s.countMiss_memOnly _

theorem State.replicaWrite_memOnly (s : State) (q : Req) (ia : Nat) (w : BWrite) :
    MemOnly s (s.replicaWrite q ia w).2 := by
  have hp := s.pte_memOnly q.dom 8 (iaPage ia)
  unfold State.replicaWrite
  split
  · rename_i h; rw [h] at hp; exact hp
  · rename_i e s' h
    rw [h] at hp
    refine hp.trans ?_
    split
    · exact .refl _
    · split
      · exact .refl _
      · split
        · exact State.countMiss_memOnly _ _
        refine (State.setPte_memOnly _ _ _ _).trans ((State.primaryLine_memOnly _ _ _ _).trans
          (MemOnly.foldl _ (fun s d => ?_) _ _))
        dsimp only
        split
        · refine MemOnly.trans ?_ (State.trigger_memOnly _ _)
          split
          · exact (State.putBlock_memOnly s _ _).trans (State.lines_memOnly _ _)
          · exact State.putBlock_memOnly s _ _
        · exact .refl _

theorem State.lineWrite_memOnly (s : State) (q : Req) (ia : Nat) (w : BWrite) : MemOnly s (s.lineWrite q ia w).2 := by
  unfold State.lineWrite
  split
  · exact (s.writeAt_memOnly _ _).trans (State.trigger_memOnly _ _)
  · split
    · exact s.replicaWrite_memOnly _ _ _
    · dsimp only
      split
      · split
        · exact s.countMiss_memOnly _
        · have h : MemOnly s (if q.copy = true then s.memWrite q (iaRegion ia) ia w else (none, s)).2 := by
            split
            · exact s.memWrite_memOnly _ _ _ _
            · exact .refl s
          split
          · rename_i e; rw [e] at h; exact h
          · rename_i s' e
            rw [e] at h
            exact h.trans (((State.lines_memOnly _ _).trans (State.touchLine_memOnly _ _ _ _)).trans (State.trigger_memOnly _ _))
      · refine (s.countMiss_memOnly (lineKey (iaRegion ia) ia)).trans ?_
        generalize s.countMiss (lineKey (iaRegion ia) ia) = s'
        split
        · have h := s'.memRead_memOnly q (iaRegion ia) ia
          split
          · rename_i t e
            rw [e] at h
            dsimp only at h ⊢
            have hm := h.trans (t.memWrite_memOnly q (iaRegion ia) ia w)
            have hn := s'.memWrite_memOnly q (iaRegion ia) ia w
            generalize hx : (if s'.inFlash (iaRegion ia) ia = true then _ else _) = x
            have ht : MemOnly s' x.2.1 := by
              rw [← hx]
              split
              · exact hm
              · split
                · exact hn
                · exact h
            clear hx
            obtain ⟨r, u, y⟩ := x
            cases r with
            | some c => exact ht
            | none => exact ht.trans ((State.fill_memOnly _ _ _).trans (State.trigger_memOnly _ _))
          · rename_i e
            rw [e] at h
            exact h
        · dsimp only
          split
          · exact (State.memWrite_memOnly s' _ _ _ _).trans (State.trigger_memOnly _ _)
          · exact State.memWrite_memOnly s' _ _ _ _

theorem State.iaRead_memOnly (s : State) (q : Req) (ia : Nat) : MemOnly s (s.iaRead q ia).2 := by
  unfold State.iaRead
  split
  · exact s.lineRead_memOnly _ _
  · split <;> exact .refl s

theorem State.iaWrite_memOnly (s : State) (q : Req) (ia : Nat) (w : BWrite) : MemOnly s (s.iaWrite q ia w).2 := by
  unfold State.iaWrite
  split
  · exact s.lineWrite_memOnly _ _ _
  · split
    · exact .refl s
    · split
      · exact s.writeAt_memOnly _ _
      · exact .refl s

theorem State.readBlocks_memOnly (s : State) (q : Req) (ia n : Nat) : MemOnly s (s.readBlocks q ia n).2 := by
  induction n generalizing s ia with
  | zero => exact .refl s
  | succ n ih =>
    unfold State.readBlocks
    have h := s.iaRead_memOnly q ia
    split
    · rename_i b s' e
      rw [e] at h
      have k := ih s' (ia + 64)
      split
      · rename_i e2; rw [e2] at k; exact h.trans k
      · rename_i e2; rw [e2] at k; exact h.trans k
    · rename_i e; rw [e] at h; exact h

theorem State.readBytes_memOnly (s : State) (q : Req) (ia n : Nat) : MemOnly s (s.readBytes q ia n).2 := by
  unfold State.readBytes
  have h := s.readBlocks_memOnly q (ia / 64 * 64) ((ia + n + 63) / 64 - ia / 64)
  dsimp only
  split
  · rename_i e; rw [e] at h; exact h
  · rename_i e; rw [e] at h; exact h

theorem State.iaWrites_memOnly (q : Req) (l : List (Nat × BWrite)) : ∀ s : State, MemOnly s (s.iaWrites q l).2 := by
  induction l with
  | nil => exact fun s => .refl s
  | cons e l ih =>
    intro s
    have h := State.iaWrite_memOnly s q e.1 e.2
    unfold State.iaWrites
    split
    · rename_i c t g; rw [g] at h; exact h
    · rename_i t g; rw [g] at h; exact h.trans (ih _)

theorem State.writeBytes_memOnly (s : State) (q : Req) (ia : Nat) (bs : List Byte) (coat : Option Coat) :
    MemOnly s (s.writeBytes q ia bs coat).2 :=
  State.iaWrites_memOnly q _ s

theorem State.readVas_memOnly (s : State) (core : Nat) (q : Req) (w : Window) (l : List Nat) :
    MemOnly s (s.readVas core q w l).2 := by
  induction l generalizing s with
  | nil => exact .refl s
  | cons va l ih =>
    unfold State.readVas
    have h : MemOnly s (s.readVa core q w va).2 := s.iaRead_memOnly _ _
    split
    · rename_i e; rw [e] at h; exact h
    · rename_i b s' e
      rw [e] at h
      have k := ih s'
      split
      · rename_i e2; rw [e2] at k; exact h.trans k
      · rename_i e2; rw [e2] at k; exact h.trans k

theorem State.writeEach_memOnly (s : State) (core : Nat) (q : Req) (w : Window) (l : List VWrite) :
    MemOnly s (s.writeEach core q w l).2 := by
  induction l generalizing s with
  | nil => exact .refl s
  | cons x l ih =>
    unfold State.writeEach
    have h := s.iaWrite_memOnly q (s.effIa core w x.va / 64 * 64) x.w
    split
    · rename_i e; rw [e] at h; exact h
    · rename_i s' e; rw [e] at h; exact h.trans (ih s')

/-- A store that meets a memory-side fault changes nothing (R289). -/
theorem State.writeVas_memOnly (s : State) (core : Nat) (q : Req) (w : Window) (l : List VWrite) :
    MemOnly s (s.writeVas core q w l).2 := by
  have h := s.writeEach_memOnly core q w l
  unfold State.writeVas
  split
  · exact .refl s
  · rename_i e; rw [e] at h; exact h

theorem State.loadTile_memOnly (s : State) (core : Nat) (r : Req) (w : Window) (q : TileReq) :
    MemOnly s (s.loadTile core r w q).2 := by
  unfold State.loadTile
  have h := s.readVas_memOnly core r w (((s.tileSpans core r (some w) q).flatMap Span.blocks).map Span.va)
  dsimp only
  split
  · rename_i e; rw [e] at h; exact h
  · rename_i e; rw [e] at h; exact h

theorem State.loadScalar_memOnly (s : State) (core : Nat) (r : Req) (w : Window) (va width : Nat) (sg : Bool) :
    MemOnly s (s.loadScalar core r w va width sg).2 := by
  unfold State.loadScalar
  have h : MemOnly s (s.readVa core r w va).2 := s.iaRead_memOnly _ _
  split
  · rename_i e; rw [e] at h; exact h
  · rename_i e; rw [e] at h; exact h

end Sys2Proof.Machine
end

