-- ==== Sys2Proof/Laws/Ready.lean ====
section
/-! SUPPORT. What the statements' `Free` and `Ready` say of the frame of a slot instruction. -/

namespace Sys2Proof.Claims
open Sys2Proof.Machine

section
variable {i : Instr} {pred : Option (BitVec 4)} {u : Uses} {wait : State → Option (Bool × State)}
  {causes : State → List Cause} {body : State → State} {s : State}

/-- A word that is free to issue meets no cause of its own bits. -/
theorem Free.wordCauses (h : Free i s) (hv : ∀ n ∈ u.rv ++ u.wv, n ∈ vregsOf i) : wordCauses i u false s = [] := by
  have hp : ((Tbl.find s.cx.prefixes s.iss.slot).isSome && !(Instr.takesPrefix i)) = false := by
    rcases h.pfx with e | e <;> simp [e]
  have hr : ((u.rv ++ u.wv).any fun n => decide (s.cx.vcount ≤ n.toNat)) = false := by
    rw [List.any_eq_false]
    intro n hn
    simpa using h.vregs n (hv n hn)
  simp only [Machine.wordCauses, hp, hr, h.wf, h.imm]
  rfl

/-- No outstanding result interlocks it. -/
theorem Free.interlocked (h : Free i s) : u.interlocked s.cx = false := by
  unfold Uses.interlocked
  rw [List.any_eq_false]
  intro p hp
  simp only [List.mem_filter, Bool.and_eq_true, Bool.not_eq_true', Option.isNone_iff_eq_none] at hp
  rcases h.returned p hp.1 with e | e
  · exact absurd hp.2.1 e
  · rw [hp.2.2] at e; cases e

/-- The frame of a word that may commit and whose predicate holds. -/
theorem Ready.slotOp (h : Ready i s) (hl : Live i s) (hp : pred = predOf i ∨ pred = none)
    (hv : ∀ n ∈ u.rv ++ u.wv, n ∈ vregsOf i) (hw : s.iss.sure = false → Free i s → wait s = none)
    (hc : s.iss.sure = false → Free i s → causes s = []) :
    slotOp i pred u false wait causes body s = .next (body s).commit := by
  have hall : (pred.all fun p => s.cx.preg p) = true := by
    rcases hp with rfl | rfl
    · cases e : predOf i with
      | none => rfl
      | some p => exact hl p e
    · rfl
  cases hs : s.iss.sure with
  | true => rw [slotOp_sure _ _ _ _ _ _ _ _ hs, if_pos hall]
  | false =>
    rcases h with h | h
    · rw [hs] at h; cases h
    · exact slotOp_go _ _ _ _ _ _ _ _ (h.wordCauses hv) hall h.interlocked (hw hs h) h.landed (hc hs h)

end

end Sys2Proof.Claims
end

