-- ==== Sys2Proof/Safety.lean ====
section
/-! DEFINITION. What a run may be said to do: answers of a step that go on, and the invariant that memory keeps. -/

namespace Sys2Proof.Machine

/-- The step goes on: it answers a next state. -/
def GoesOn (s : State) : Prop := ∃ t, step s = .next t

/-- Memory is in its canonical form (R429): no place is listed twice, none out of order, none with its reset value. -/
def State.MemOk (s : State) : Prop := Memory.wf s.mem = true

end Sys2Proof.Machine
end

