-- ==== Sys2Proof/Tests/Slice0.lean ====
section
/-! SUPPORT. The model's own tests: refused ill-formed words, decoded words, single steps, and witnesses for the statements. -/

namespace Sys2Proof.Machine.Tests
open Sys2Proof Sys2Proof.Machine Sys2Proof.Claims

set_option Elab.async false

/-! ## Ill-formed terms (R4, R22, R45, R129, R130, R155 to R164, R1): one for each check, all of them refused -/

theorem test_wf_refuses_scalar :
    ([.shli 1 2 64, .shri 1 2 64, .srai 1 2 64, .cmp 1 2 3 0 6, .cmpi 1 6 2 0, .plog 1 2 3 0 4, .mfsr 1 0x00C,
      .mfsr 1 0x120, .mtsr 1 0x041, .mtsr 1 0x042, .mtsr 1 0x034, .fcmps 1 2 3 0 4, .fcvts 1 2 0 6] : List Instr).all
      (fun i => !i.wf) = true := by decide

theorem test_wf_refuses_vector :
    ([.vabsF 0 1 2 3, .vshifti 0 1 2 3 0, .vshifti 0 1 2 0 32, .vidx 0 1 3, .rrot 0 1 2 64, .rbcst 0 1 2 64, .crot 0 1 2 16,
      .cbcst 0 1 2 16, .rred 0 1 2 6, .cred 0 1 2 6, .rscan 0 1 2 1, .rscan 0 1 2 5, .vcvt 0 1 2 9, .xcvt 0 1 2 10] :
      List Instr).all (fun i => !i.wf) = true := by decide

theorem test_wf_refuses_memory :
    ([.vld 0 1 2 15 3, .vst 0 1 2 0 3, .vst 0 1 2 15 3, .vldt 0 1 2 15 3, .ctld 0 1 2 15 3, .ctst 0 1 2 0 3,
      .ctst 0 1 2 15 3, .sld 0 1 2 3 1 0, .slda 0 1 2 0 7, .sstr 0 1 2 0 7, .mark 0 7, .cas 0 1 2 3 7,
      .amoadd 0 1 2 3 7, .amoand 0 1 2 3 7, .amoor 0 1 2 3 7, .amoxor 0 1 2 3 7, .amomin 0 1 2 3 7, .amomax 0 1 2 3 7,
      .amominu 0 1 2 3 7, .amomaxu 0 1 2 3 7, .amoswap 0 1 2 3 7, .amofadd 0 1 2 3 7, .amofmin 0 1 2 3 7,
      .amofmax 0 1 2 3 7] : List Instr).all (fun i => !i.wf) = true := by decide

theorem test_wf_refuses_groups_and_flags :
    ([.mma 0 0 3 8 0 0, .mma 0 0 0 9 0 0, .mma 0 0 0 8 0 1, .mref 0 0 0 0 0, .mref 0 0 8 0 2, .mlut 0 0 12 0 0,
      .mlut 0 0 8 0 4, .mldacc 0 0 4 0 0, .mldacc 0 0 8 0 8, .mdrain 0 0 31 0 0, .mdrain 0 0 8 0 15, .mfmt 0 1,
      .wswap 0 20 0 0, .wswap 0 8 0 1, .xfmt 0 10, .cpy 0 0 7 0, .cpy 0 0 8 6, .cpysl 0 0 7 0, .cpysl 0 0 8 6,
      .cpymc 0 0 25, .coll 0 0 0 0, .whfetch 0 17 0] : List Instr).all (fun i => !i.wf) = true := by decide

theorem test_wf_refuses_ct :
    ([.sync 0 0, .fset 0 7 0 1, .fsetSelf 0 7 0, .pwait 0 1 9, .whwait 0 0 0, .whwait 0 0 9, .barrive 0 1 7] :
      List Instr).all (fun i => !i.wf) = true := by decide

theorem test_wf_refuses_core_events :
    ([.contextStop 2048 1, .stopPoint 16, .watchdog 2048, .loadResult 2048 0, .icacheFill 512 0, .vldtLanded 512 0,
      .vldtLanded 0 32, .snoozeTimeout 2048, .barwaitTimeout 2048, .issueend 2048, .unbooked 2048 0 0, .unbooked 0 8 0,
      .unbooked 0 0 512, .slackExhausted 2048] : List Instr).all (fun i => !i.wf) = true := by decide

theorem test_wf_refuses_face_events :
    ([.tickStart 32, .admission 32, .taskStart 32 0, .slipTest 256, .thaw 256, .wratioChange 32 0, .wratioChange 0 8,
      .ratioSwitch 32 0, .ratioSwitch 0 8, .arrayStep 256 0, .arrayStep 0 4, .macroopComplete 256 0, .macroopComplete 0 4,
      .weightSwap 256, .swapDone 256, .acctFlush 256, .copyChunk 128, .copyComplete 128 0, .cpymcWrite 128 0,
      .collJoin 128 0, .cancelProcess 256, .doubleRefreshEntry 256, .doubleRefreshExit 256, .faceThrottle 32,
      .faceThrottleEnd 32, .droop 32, .tallowWrite 256 0, .acfgWrite 256 0] : List Instr).all (fun i => !i.wf) = true := by
  decide

theorem test_wf_refuses_domain_events :
    ([.handleCommandAccept 8, .cardStart 8, .codewordRead 8, .planeLand 8, .forwardedRead 8, .promotion 8, .promotionDone 8,
      .sweep 8, .demotionDone 8 0, .epochAdvance 8, .garbageCollection 8, .staticWearLevelling 8, .patrolRead 8,
      .waypartDone 1536, .wb 8 0, .wb 0 16, .wbinv 8 0, .wbinv 0 16, .inv 8 0, .inv 0 16, .maphbm 8 0, .maphbm 0 16,
      .maphbf 8 0, .maphbf 0 16, .unmap 8 0, .unmap 0 16, .pin 8 0, .pin 0 16, .unpin 8 0, .unpin 0 16, .promote 8 0,
      .promote 0 16, .demote 8 0, .demote 0 16, .replicate 8 0, .replicate 0 16, .inval 8 0, .inval 0 16, .dispatchStep 8,
      .taskComplete 8 0, .versionCommit 8 0, .l2cmdDone 8, .pgcmdDone 8, .relocation 8, .programFail 8 0,
      .injectWrite 8 0, .waypartWrite 1536 0] : List Instr).all (fun i => !i.wf) = true := by decide

theorem test_wf_refuses_partition_and_host_events :
    ([.presetDone 16, .machine 65536, .queueConfigWrite 16 0 0 0, .queueConfigWrite 0 16 0 0, .sqheadWrite 16 0,
      .msgheadWrite 16 0, .start 16 0, .preset 16 0, .registerWrite 3 0 0 0, .registerWrite 0 16 0 0, .hostRead 17 0 0,
      .hostWrite 17 0 [], .hostCoatRead 17 0, .hostCoatWrite 17 0 0, .getEventRecords 17, .getFwInfo 17, .transferFw 17 [],
      .activateFw 17, .getSupportedLogs 17, .getLog 17 0, .identifyMemoryDevice 17, .getHealthInfo 17, .attest 17 [],
      .getidkey 17, .extend 17 0 [], .preempt 17 0, .wreset 17, .powercap 17 0, .setTimestamp 17 0, .unsupported 17 0] :
      List Instr).all (fun i => !i.wf) = true := by decide

/-! ## Words written out from the encoding tables of R29 to R36 and R44 to R53, field by field -/

/-- opcode 0x02 in [31:24], s4 in [23:19], s4 in [18:14], 64 in [13:0] (SA) -/
theorem test_decode_addi : decodeSlot 0 0b00000010_00100_00100_00000001000000 = .ok (.addi 4 4 64) := by decide
/-- the same word stands in slot SB (R44) -/
theorem test_decode_addi_sb : decodeSlot 1 0b00000010_00100_00100_00000001000000 = .ok (.addi 4 4 64) := by decide
/-- ADD s3, s1, s2 under p5: opcode 0x01, sd, sa, sb, pred, and a zero field -/
theorem test_decode_add : decodeSlot 0 0b00000001_00011_00001_00010_0101_00000 = .ok (.add 3 1 2 5) := by decide
/-- a bit of the zero field set is ILLOP (R22) -/
theorem test_decode_add_zero_field : decodeSlot 0 0b00000001_00011_00001_00010_0101_00001 ≠ .ok (.add 3 1 2 5) := by decide
theorem test_decode_cmpi : decodeSlot 0 0x21244400 = .ok (.cmpi 2 2 4 1024) := by decide
theorem test_decode_loop : decodeSlot 1 0x430FFFFF = .ok (.loop 0 0xFFFFF) := by decide
theorem test_decode_loopseti : decodeSlot 1 0x45180002 = .ok (.loopseti 3 2) := by decide
/-- branches stand in SB alone (R44) -/
theorem test_decode_loop_not_in_sa : (decodeSlot 0 0x430FFFFF).toOption = none := by decide
theorem test_decode_vadd : decodeSlot 2 0x01008004 = .ok (.vaddF 0 2 0 1) := by decide
theorem test_decode_vaddi : decodeSlot 2 0x1F928901 = .ok (.vaddiI 9 10 9 1) := by decide
theorem test_decode_vaddi_negative : decodeSlot 2 0x1F00C1FB = .ok (.vaddiI 0 3 1 0xFB) := by decide
theorem test_decode_vshifti : decodeSlot 2 0x20008284 = .ok (.vshifti 0 2 2 2 4) := by decide
theorem test_decode_rred : decodeSlot 3 0x08004004 = .ok (.rred 0 1 0 1) := by decide
theorem test_decode_vst : decodeSlot 4 0x02A2CB06 = .ok (.vst 10 11 5 8 6) := by decide
theorem test_decode_vst_plain : decodeSlot 4 0x02004905 = .ok (.vst 0 1 4 8 5) := by decide
theorem test_decode_vldt : decodeSlot 4 0x0300C825 = .ok (.vldt 0 3 4 1 5) := by decide
theorem test_decode_vland : decodeSlot 4 0x04008600 = .ok (.vland 0 2 3) := by decide
theorem test_decode_sld : decodeSlot 4 0x05039203 = .ok (.sld 0 7 4 2 0 3) := by decide
theorem test_decode_slda : decodeSlot 4 0x07039074 = .ok (.slda 0 7 4 3 5) := by decide
theorem test_decode_sstr : decodeSlot 4 0x08031050 = .ok (.sstr 0 6 4 2 4) := by decide
theorem test_decode_watch : decodeSlot 4 0x0B000400 = .ok (.watch 0 1) := by decide
theorem test_decode_snooze : decodeSlot 4 0x0C039400 = .ok (.snooze 0 7 5) := by decide
theorem test_decode_mark : decodeSlot 4 0x0D000014 = .ok (.mark 0 5) := by decide
theorem test_decode_cas : decodeSlot 4 0x0E0390B0 = .ok (.cas 0 7 4 5 4) := by decide
theorem test_decode_amoadd : decodeSlot 4 0x100390B4 = .ok (.amoadd 0 7 4 5 5) := by decide
theorem test_decode_mma : decodeSlot 5 0x01008880 = .ok (.mma 0 0 0 8 1 1) := by decide
theorem test_decode_mma_f8 : decodeSlot 5 0x010A8000 = .ok (.mma 0 1 1 8 0 0) := by decide
theorem test_decode_mref : decodeSlot 5 0x02008980 = .ok (.mref 0 0 8 1 3) := by decide
theorem test_decode_mzero : decodeSlot 5 0x04000000 = .ok (.mzero 0 0) := by decide
theorem test_decode_mldacc : decodeSlot 5 0x05090000 = .ok (.mldacc 0 1 16 0 0) := by decide
theorem test_decode_mdrain : decodeSlot 5 0x06010900 = .ok (.mdrain 0 0 16 1 2) := by decide
theorem test_decode_mfmt : decodeSlot 5 0x07008000 = .ok (.mfmt 0 8) := by decide
theorem test_decode_mprog : decodeSlot 5 0x08005000 = .ok (.mprog 0 5) := by decide
theorem test_decode_mresume : decodeSlot 5 0x09000000 = .ok (.mresume 0) := by decide
theorem test_decode_wswap : decodeSlot 5 0x0A018A00 = .ok (.wswap 0 24 1 4) := by decide
theorem test_decode_xcvt : decodeSlot 6 0x02018500 = .ok (.xcvt 0 6 5 0) := by decide
theorem test_decode_cpy : decodeSlot 6 0x10016001 = .ok (.cpy 0 5 16 1) := by decide
theorem test_decode_cpysl : decodeSlot 6 0x11009000 = .ok (.cpysl 0 2 8 0) := by decide
theorem test_decode_cpymc : decodeSlot 6 0x12003000 = .ok (.cpymc 0 0 24) := by decide
theorem test_decode_cpycan : decodeSlot 6 0x13014000 = .ok (.cpycan 0 5) := by decide
theorem test_decode_coll : decodeSlot 6 0x18009000 = .ok (.coll 0 2 8 0) := by decide
theorem test_decode_pcnt : decodeSlot 6 0x1901C800 = .ok (.pcnt 0 7 4) := by decide
theorem test_decode_pcancel : decodeSlot 6 0x1A000800 = .ok (.pcancel 0 4) := by decide
theorem test_decode_pcancel_tag : decodeSlot 6 0x1A008001 = .ok (.pcancelTag 0 2) := by decide
theorem test_decode_whfetch : decodeSlot 6 0x20001008 = .ok (.whfetch 0 8 8) := by decide
theorem test_decode_whstat : decodeSlot 6 0x21014007 = .ok (.whstat 0 5 7) := by decide
theorem test_decode_whdrop : decodeSlot 6 0x22000006 = .ok (.whdrop 0 6) := by decide
theorem test_decode_fset : decodeSlot 7 0x010A6600 = .ok (.fset 0 5 3 6) := by decide
theorem test_decode_waitall : decodeSlot 7 0x02120000 = .ok (.waitall 0 4) := by decide
theorem test_decode_ffr : decodeSlot 7 0x022C1400 = .ok (.ffr 0 24 5) := by decide
theorem test_decode_pwait : decodeSlot 7 0x02321800 = .ok (.pwait 0 4 3) := by decide
theorem test_decode_whwait : decodeSlot 7 0x02440820 = .ok (.whwait 0 1032 2) := by decide
theorem test_decode_barrive : decodeSlot 7 0x03024000 = .ok (.barrive 0 4 4) := by decide
theorem test_decode_barwait : decodeSlot 7 0x031214E0 = .ok (.barwait 0 4 5 7) := by decide
theorem test_decode_slk : decodeSlot 7 0x04000280 = .ok (.slk 0 640) := by decide
theorem test_decode_book : decodeSlot 7 0x05021800 = .ok (.book 0 4 6) := by decide
theorem test_decode_book_stall : decodeSlot 7 0x35021800 = .ok (.book 3 4 6) := by decide
theorem test_decode_unbook : decodeSlot 7 0x05100000 = .ok (.unbook 0) := by decide
theorem test_decode_calq : decodeSlot 7 0x05221800 = .ok (.calq 0 4 6) := by decide
theorem test_decode_spawn : decodeSlot 7 0x06021880 = .ok (.spawn 0 4 6 2) := by decide
theorem test_decode_spawn_w : decodeSlot 7 0x060218A0 = .ok (.spawnW 0 4 6 2) := by decide
theorem test_decode_tdone : decodeSlot 7 0x06100000 = .ok (.tdone 0) := by decide
theorem test_decode_tyield : decodeSlot 7 0x06200000 = .ok (.tyield 0) := by decide
theorem test_decode_trap : decodeSlot 7 0x07000012 = .ok (.trap 0 0x12) := by decide
theorem test_decode_trap_brk : decodeSlot 7 0x07010003 = .ok (.trapBrk 0 3) := by decide
theorem test_decode_rft : decodeSlot 7 0x07120000 = .ok (.rft 0 4) := by decide
theorem test_decode_halt : decodeSlot 7 0x07200000 = .ok (.halt 0) := by decide
theorem test_decode_ctxrun : decodeSlot 7 0x08021400 = .ok (.ctxrun 0 4 5) := by decide
theorem test_decode_ctxstop : decodeSlot 7 0x08120000 = .ok (.ctxstop 0 4) := by decide
/-- an opcode that no slot assigns, and a slot number that does not exist -/
theorem test_decode_unassigned : (decodeSlot 0 0xFE000000).toOption = none ∧ (decodeSlot 5 0x3F000000).toOption = none := by
  decide
/-- a table word without slot: an ADDI word decodes in SA -/
theorem test_decode_table_word : decodeTableWord 32 0x02210040 = some (.addi 4 4 64) := by decide

/-! ## Single steps on a small state: context 0 of core 0 FREE with 64 vector registers -/

/-- Power-on with context 0 of core 0 FREE and changed by `f`, and its slot `k` in hand. -/
def one (k : Nat) (f : Ctx → Ctx) : State :=
  { State.reset.setCtx 0 (f { run := .free, vcount := 64 }) with iss := { slot := k } }

/-- The same without vector registers, which keeps the record of a stop small. -/
def bare (k : Nat) (f : Ctx → Ctx) : State := one k fun x => f { x with vcount := 0 }

/-- Scalar registers `n` and `m` hold `a` and `b`. -/
def regs (n m : Nat) (a b : Word) (x : Ctx) : Ctx := { x with s := (x.s.set! n a).set! m b }

/-- What the word leaves in flight in context 0. -/
def flights (i : Instr) (s : State) : List (Nat × Write) :=
  match exec i s with
  | .next t => (t.ctx 0).inflight.map fun r => (r.due, r.w)
  | _ => []

/-- A field of the state that the word answers. -/
def leaves {α : Type} (i : Instr) (s : State) (f : State → α) : Option α :=
  match exec i s with
  | .next t => some (f t)
  | _ => none

/-- Window 0 maps VA 0x1000_0000 to the own scratchpad for reads and writes (R284). -/
def scratchWin (x : Ctx) : Ctx := { x with aw := [(0, 0x10000000), (1, 0xFFFFFFFFFFE00000), (2, 0x000A000000000000), (3, 0x93)] }

/-- R125: a sum wraps at 2^64. -/
theorem test_add_wraps :
    flights (.add 3 1 2 0) (one 0 (regs 1 2 0x7FFFFFFFFFFFFFFF 1)) = [(1, .scalar 3 0x8000000000000000)] := by decide +kernel
/-- R125: the operands of SUB in their order. -/
theorem test_sub_borrows : flights (.sub 3 1 2 0) (one 0 (regs 1 2 0 1)) = [(1, .scalar 3 0xFFFFFFFFFFFFFFFF)] := by decide +kernel
/-- R33: imm14 is sign-extended. -/
theorem test_addi_negative : flights (.addi 1 1 0x3FFF) (one 0 (regs 1 2 7 0)) = [(1, .scalar 1 6)] := by decide +kernel
/-- R27: a pending prefix supplies the bits above the immediate. -/
theorem test_addi_prefixed :
    flights (.addi 1 2 1) (one 0 fun x => { x with prefixes := [(0, 2)] }) = [(1, .scalar 1 0x8001)] := by decide +kernel
/-- R125: the product's upper half, signed and unsigned, after three cycles (R44). -/
theorem test_mulh_signed : flights (.mulh 3 1 2 0) (one 0 (regs 1 2 0xFFFFFFFFFFFFFFFF 0xFFFFFFFFFFFFFFFF)) = [(3, .scalar 3 0)] := by
  decide +kernel
theorem test_mulhu_unsigned :
    flights (.mulhu 3 1 2 0) (one 0 (regs 1 2 0xFFFFFFFFFFFFFFFF 0xFFFFFFFFFFFFFFFF)) =
      [(3, .scalar 3 0xFFFFFFFFFFFFFFFE)] := by decide +kernel
/-- R127: −2^63 ÷ −1 is −2^63, and a division by 0 gives −1. -/
theorem test_div_overflow :
    flights (.div 3 1 2 0) (one 0 (regs 1 2 0x8000000000000000 0xFFFFFFFFFFFFFFFF)) =
      [(14, .scalar 3 0x8000000000000000)] := by decide +kernel
theorem test_div_by_zero : flights (.div 3 1 2 0) (one 0 (regs 1 2 9 0)) = [(14, .scalar 3 0xFFFFFFFFFFFFFFFF)] := by decide +kernel
/-- R127: the remainder has the dividend's sign: −7 rem 2 = −1. -/
theorem test_rem_sign :
    flights (.rem 3 1 2 0) (one 0 (regs 1 2 0xFFFFFFFFFFFFFFF9 2)) = [(14, .scalar 3 0xFFFFFFFFFFFFFFFF)] := by decide +kernel
theorem test_remu_by_zero : flights (.remu 3 1 2 0) (one 0 (regs 1 2 9 0)) = [(14, .scalar 3 9)] := by decide +kernel
/-- R126: the count is sb[5:0], so 64 shifts by 0. -/
theorem test_shl_by_64 : flights (.shl 3 1 2 0) (one 0 (regs 1 2 5 64)) = [(1, .scalar 3 5)] := by decide +kernel
theorem test_sra_negative :
    flights (.sra 3 1 2 0) (one 0 (regs 1 2 0x8000000000000000 63)) = [(1, .scalar 3 0xFFFFFFFFFFFFFFFF)] := by decide +kernel
theorem test_shri_top : flights (.shri 3 1 63) (one 0 (regs 1 2 0x8000000000000000 0)) = [(1, .scalar 3 1)] := by decide +kernel
/-- R125: MIN is signed and MINU is not. -/
theorem test_min_signed :
    flights (.min 3 1 2 0) (one 0 (regs 1 2 0xFFFFFFFFFFFFFFFF 1)) = [(1, .scalar 3 0xFFFFFFFFFFFFFFFF)] := by decide +kernel
theorem test_minu_unsigned : flights (.minu 3 1 2 0) (one 0 (regs 1 2 0xFFFFFFFFFFFFFFFF 1)) = [(1, .scalar 3 1)] := by decide +kernel
theorem test_clz_zero : flights (.clz 3 1 0) (one 0 (regs 1 2 0 0)) = [(1, .scalar 3 64)] := by decide +kernel
theorem test_popc_ones : flights (.popc 3 1 0) (one 0 (regs 1 2 0xFFFFFFFFFFFFFFFF 0)) = [(1, .scalar 3 64)] := by decide +kernel
/-- R125: the carry-less product of 0b11 and 0b11 is 0b101. -/
theorem test_clmul : flights (.clmul 3 1 2 0) (one 0 (regs 1 2 3 3)) = [(3, .scalar 3 5)] := by decide +kernel
/-- R128: SEL reads its predicate as an operand, and LI sign-extends imm19. -/
theorem test_sel_false : flights (.sel 3 1 2 5) (one 0 (regs 1 2 10 20)) = [(1, .scalar 3 20)] := by decide +kernel
theorem test_li_negative : flights (.li 3 0x7FFFF) (one 0 id) = [(1, .scalar 3 0xFFFFFFFFFFFFFFFF)] := by decide +kernel
/-- R129: LT is signed, LTU is not. -/
theorem test_cmp_lt : flights (.cmp 2 1 2 0 2) (one 0 (regs 1 2 0xFFFFFFFFFFFFFFFF 1)) = [(1, .pred 2 true)] := by decide +kernel
theorem test_cmp_ltu : flights (.cmp 2 1 2 0 4) (one 0 (regs 1 2 0xFFFFFFFFFFFFFFFF 1)) = [(1, .pred 2 false)] := by decide +kernel
/-- R130: PLOG.ANDN of p0 (true) and p3 (false). -/
theorem test_plog_andn : flights (.plog 2 0 3 0 3) (one 0 id) = [(1, .pred 2 true)] := by decide +kernel
/-- R26: a false predicate suppresses the effect. -/
theorem test_predicate_false : flights (.add 3 1 2 5) (one 0 (regs 1 2 1 1)) = [] := by decide +kernel
/-- R131: a task-privilege MTSR to a window register traps with PRIV, and supervisor privilege writes it. -/
theorem test_mtsr_priv : leaves (.mtsr 1 0x100) (bare 0 id) (fun t => (t.ctx 0).tcause) = some 5 := by decide +kernel
theorem test_mtsr_supervisor :
    flights (.mtsr 1 0x100) (one 0 fun x => { regs 1 2 0x10000 0 x with priv := 1 }) = [(2, .sreg 0x100 0x10000)] := by decide +kernel
/-- R132: 1.5 + 1.5 = 3 in bits [31:0], bits [63:32] cleared. -/
theorem test_fadds : flights (.fadds 3 1 2 0) (one 0 (regs 1 2 0x123400003FC00000 0x3FC00000)) = [(4, .scalar 3 0x40400000)] := by
  decide +kernel
/-- R57: 2^24 + 1 rounds to the even neighbour, 2^24. -/
theorem test_fadds_ties_to_even : flights (.fadds 3 1 2 0) (one 0 (regs 1 2 0x4B800000 0x3F800000)) = [(4, .scalar 3 0x4B800000)] := by
  decide +kernel
/-- R60: FMINS takes −0 before +0. -/
theorem test_fmins_zeros : flights (.fmins 3 1 2 0) (one 0 (regs 1 2 0 0x80000000)) = [(4, .scalar 3 0x80000000)] := by decide +kernel
/-- R133: 2.5 to I64 rounds to even, and truncates. -/
theorem test_fcvts_even : flights (.fcvts 3 1 0 2) (one 0 (regs 1 2 0x40200000 0)) = [(3, .scalar 3 2)] := by decide +kernel
theorem test_fcvts_large : flights (.fcvts 3 1 0 2) (one 0 (regs 1 2 0x7F800000 0)) = [(3, .scalar 3 0x7FFFFFFFFFFFFFFF)] := by decide +kernel
/-- R134: a branch by −1 bundle from bundle address 0x40, two cycles late. -/
theorem test_br_back :
    leaves (.br 0 0xFFFFF) { one 1 id with iss := { slot := 1, pc := 0x40 } } (fun t => ((t.ctx 0).pc, (t.ctx 0).ready)) =
      some (0x20, 2) := by decide +kernel
theorem test_call_links :
    flights (.call 0 4) { one 1 id with iss := { slot := 1, pc := 0x40 } } = [(1, .scalar 31 0x60)] := by decide +kernel
/-- R134: JR to an address that 32 does not divide traps with ALIGN. -/
theorem test_jr_align : leaves (.jr 1 0) (bare 1 (regs 1 2 0x48 0)) (fun t => ((t.ctx 0).tcause, (t.ctx 0).taddr)) = some (0x0D, 0x48) := by
  decide +kernel
/-- R136: with LC = 0 and EC = 1 the loop ends, and EC becomes 0. -/
theorem test_loop_ends :
    leaves (.loop 0 0xFFFFF) { one 1 (fun x => { x with ec := 1, pc := 0x60 }) with iss := { slot := 1, pc := 0x40 } }
      (fun t => (t.ctx 0).pc) = some 0x60 := by decide +kernel

/-- Vector register `n` holds `v` in every lane. -/
def tiles (l : List (Nat × Lane)) (s : State) : State :=
  s.onCore 0 fun k => { k with vreg := l.map fun e => (e.1, List.replicate 1024 e.2) }

/-- Lane `j` of the tile that the word leaves in flight, with its due cycle and register. -/
def laneOf (i : Instr) (s : State) (j : Nat) : Option (Nat × Nat × Lane) :=
  match flights i s with
  | (due, .tile r t) :: _ => some (due, r, lane t j)
  | _ => none

/-- R149: lane sums wrap at 2^32; R46: latency 4. -/
theorem test_vadd_i_wraps :
    laneOf (.vaddI 0 2 0 1) (tiles [(0, 0x7FFFFFFF), (1, 1)] (one 2 id)) 1023 = some (4, 2, 0x80000000) := by decide +kernel
/-- R145: 1 + 2^-24 rounds to 1, latency 6. -/
theorem test_vadd_f : laneOf (.vaddF 0 2 0 1) (tiles [(0, 0x3F800000), (1, 0x33800000)] (one 2 id)) 5 = some (6, 2, 0x3F800000) := by
  decide +kernel
/-- R145: VFMA rounds once: (1 + 2^-23)(1 + 2^-22) − 1 = 2^-22 (1.5 + 2^-23) gives 0x34C00001. -/
theorem test_vfma_rounds_once :
    laneOf (.vfmaF 0 2 0 1) (tiles [(0, 0x3F800001), (1, 0x3F800002), (2, 0xBF800000)] (one 2 id)) 0 =
      some (6, 2, 0x34C00001) := by decide +kernel
/-- R154, worked: the signed dot product of 0x80807F7F and 0x7F7F7F7F onto 0x7FFFF000. -/
theorem test_vdot4 :
    laneOf (.vdot4 0 2 0 1) (tiles [(0, 0x80807F7F), (1, 0x7F7F7F7F), (2, 0x7FFFF000)] (one 2 id)) 0 =
      some (6, 2, 0x7FFFEF02) := by decide +kernel
theorem test_vdot4_saturates :
    laneOf (.vdot4 0 2 0 1) (tiles [(0, 0x7F7F7F7F), (1, 0x7F7F7F7F), (2, 0x7FFFF000)] (one 2 id)) 0 =
      some (6, 2, 0x7FFFFFFF) := by decide +kernel
/-- R151: a vector shift amount is taken modulo 32. -/
theorem test_vshl_amount : laneOf (.vshl 0 2 0 1) (tiles [(0, 3), (1, 33)] (one 2 id)) 7 = some (4, 2, 6) := by decide +kernel
/-- R155: VIDX.LIN numbers the lanes by row and column. -/
theorem test_vidx_linear : laneOf (.vidx 0 2 2) (one 3 id) 200 = some (2, 2, 200) := by decide +kernel
/-- R156: RROT by 1 moves lane 0 of a row to lane 1, lane 63 to lane 0. -/
theorem test_rrot :
    laneOf (.rrot 0 2 0 1) ((one 3 id).onCore 0 fun k => { k with vreg := [(0, (List.range 1024).map (BitVec.ofNat 32))] }) 64 =
      some (3, 2, 127) := by decide +kernel
theorem test_rbcst :
    laneOf (.rbcst 0 2 0 5) ((one 3 id).onCore 0 fun k => { k with vreg := [(0, (List.range 1024).map (BitVec.ofNat 32))] }) 130 =
      some (3, 2, 133) := by decide +kernel
/-- R24: a vector name outside the allotment traps with VREG. -/
theorem test_vreg_trap :
    leaves (.vmov 0 2 5) (bare 3 id) (fun t => ((t.ctx 0).tcause, (t.ctx 0).tslot, (t.ctx 0).run)) =
      some (4, 3, .halted) := by decide +kernel
/-- R163: XCVT.PK8 saturates to −128 to 127, so four lanes of 200 pack to 0x7F7F7F7F. -/
theorem test_xcvt_pack : laneOf (.xcvt 0 6 5 0) (tiles [(5, 200)] (one 6 id)) 0 = some (6, 6, 0x7F7F7F7F) := by decide +kernel

/-- R174: a VLAND of an EMPTY slot traps with ACCESS and the slot number. -/
theorem test_vland_empty :
    leaves (.vland 0 2 3) (bare 4 fun x => { x with vcount := 3 }) (fun t => ((t.ctx 0).tcause, (t.ctx 0).taddr)) = some (9, 3) := by decide +kernel
/-- R283: no window holds the address. -/
theorem test_sld_xlate :
    leaves (.sld 0 7 4 2 0 3) (bare 4 (regs 4 5 0x1000 0)) (fun t => ((t.ctx 0).tcause, (t.ctx 0).taddr)) = some (8, 0x100C) := by
  decide +kernel
/-- R195: a store of a halfword through a SCRATCH window writes its two bytes, little-endian. -/
theorem test_sst_scratch :
    leaves (.sst 0 7 4 1 1) (one 4 fun x => scratchWin (regs 4 7 0x10000000 0xABCD1234 x))
      (fun t => (memGet t.mem (scratchPlace 0 2), memGet t.mem (scratchPlace 0 3), memGet t.mem (scratchPlace 0 4))) =
      some (0x34, 0x12, 0) := by decide +kernel
/-- R331: SNOOZE without an armed monitor ends at once with 3. -/
theorem test_snooze_disarmed : flights (.snooze 0 7 5) (one 4 id) = [(1, .scalar 7 3)] := by decide +kernel
/-- R238: MZERO enters the free queue of the even core. -/
theorem test_mzero_queued :
    leaves (.mzero 0 1) (one 5 id) (fun t => ((t.pair 0).queue 0).map fun m => (m.op, m.acc)) = some [(4, 1)] := by decide +kernel
/-- R390: a counter that has no planes passes PWAIT 0 and holds PWAIT 1. -/
theorem test_pwait_holds :
    leaves (.pwait 0 4 1) (one 7 id) (fun t => t.iss.verdict) = some (.held true) := by decide +kernel
/-- R276: SYNC waits for its flags. -/
theorem test_sync_waits : leaves (.sync 0 8) (one 7 id) (fun t => t.iss.verdict) = some (.held true) := by decide +kernel
theorem test_sync_goes_on :
    leaves (.sync 3 8) ((one 7 id).onCore 0 fun k => { k with flags := 8 }) (fun t => (t.iss.verdict, (t.ctx 0).ready)) =
      some (.committed, 3) := by decide +kernel
/-- R410: TRAP 0x12 and TRAP.BRK 3. -/
theorem test_trap_word :
    leaves (.trap 0 0x12) (bare 7 id) (fun t => ((t.ctx 0).tcause, (t.ctx 0).taddr, (t.ctx 0).tslot, (t.ctx 0).run)) =
      some (0x18, 0x12, 7, .halted) := by decide +kernel
theorem test_trap_brk :
    leaves (.trapBrk 0 3) (bare 7 id) (fun t => ((t.ctx 0).tcause, (t.ctx 0).taddr)) = some (0x19, 3) := by decide +kernel
/-- R411: HALT halts the context and keeps its registers. -/
theorem test_halt :
    leaves (.halt 0) (one 7 (regs 1 2 9 8)) (fun t => ((t.ctx 0).run, (t.ctx 0).sreg 1, (t.ctx 0).vcount)) = some (.halted, 9, 0) := by
  decide +kernel
/-- R52: CTXSTOP at task privilege traps with PRIV. -/
theorem test_ctxstop_priv : leaves (.ctxstop 0 4) (bare 7 id) (fun t => (t.ctx 0).tcause) = some 5 := by decide +kernel
/-- R309: WHSTAT of a handle that nobody holds traps with HANDLE and its number. -/
theorem test_whstat_handle :
    leaves (.whstat 0 5 7) (bare 6 id) (fun t => ((t.ctx 0).tcause, (t.ctx 0).taddr)) = some (0x14, 7) := by decide +kernel
/-- R355: SPAWN to a queue that is not enabled answers NOQUEUE, here as a pending result 3. -/
theorem test_spawn_noqueue :
    leaves (.spawn 0 4 6 2) (one 7 fun x => { regs 4 5 0x1000 0 x with aw := [(1, 0xFFFF0000), (3, 0x83)] })
      (fun t => (t.ctx 0).pending.map fun z => (z.dest, z.value)) = some [(.scalar 6, 3)] := by decide +kernel
/-- R364, worked: LSEED 1 steps to 0x00042021 and then to 0x04080601. -/
theorem test_lottery : lotteryNext 1 = 0x00042021 ∧ lotteryNext 0x00042021 = 0x04080601 := by decide +kernel
/-- R442: after the thermal trip a step faults. -/
theorem test_thermtrip : (match step { one 0 id with plat := { (one 0 id).plat with boot := .tripped } } with
    | .fault .clocksStopped => true
    | _ => false) = true := by decide +kernel
/-- R15, R100: the first step from reset is the cold start, which leaves the package starting or in minimal mode; here the
word ADDI s4, s4, 64 placed at the next fetch is decoded and its result is due in the next cycle. -/
theorem test_step_runs_a_word :
    (match step (State.reset.withFetchWord 32 0x02210040) with
     | .next t => some ((t.ctx 0).inflight.map (fun r => (r.due, r.w)), (t.ctx 0).pc)
     | _ => none) = some ([(1, .scalar 4 64)], 0x10020) := by decide +kernel

/-! ## Witnesses: states and operands that meet the hypotheses of the statements, clause by clause -/

/-- `Free` as a test. -/
def freeB (i : Instr) (s : State) : Bool :=
  i.wf && !Instr.badImm i s && (Tbl.find s.cx.prefixes s.iss.slot).isNone && (vregsOf i).all (fun n => decide (n.toNat < s.cx.vcount)) &&
    s.cx.pending.isEmpty && !s.cx.chk

theorem free_of (i : Instr) (s : State) (h : freeB i s = true) : Free i s := by
  simp only [freeB, Bool.and_eq_true, Bool.not_eq_true', List.all_eq_true, decide_eq_true_eq, Option.isNone_iff_eq_none,
    List.isEmpty_iff] at h
  obtain ⟨⟨⟨⟨⟨a, b⟩, c⟩, d⟩, e⟩, f⟩ := h
  exact ⟨a, b, .inl c, d, by simp [e], .inl f⟩

/-- `Live` as a test. -/
def liveB (i : Instr) (s : State) : Bool :=
  match predOf i with
  | some p => s.cx.preg p
  | none => true

theorem live_of (i : Instr) (s : State) (h : liveB i s = true) : Live i s := by
  intro p e; simpa [liveB, e] using h

/-- The word may commit in slot `k` of the small state, its predicate is true, and it stands in that slot. -/
def doesB (k : Nat) (i : Instr) : Bool := freeB i (one k id) && liveB i (one k id) && standsIn k i

theorem does_of (k : Nat) (i : Instr) (h : doesB k i = true) :
    Free i (one k id) ∧ Live i (one k id) ∧ (one k id).iss.sure = false := by
  simp only [doesB, Bool.and_eq_true] at h
  exact ⟨free_of _ _ h.1.1, live_of _ _ h.1.2, rfl⟩

/-- Every scalar word of slot SA. -/
theorem test_witness_scalar_words :
    ([.nop, .pfx 1, .add 1 2 3 0, .addi 1 2 3, .sub 1 2 3 0, .mul 1 2 3 0, .mulh 1 2 3 0, .mulhu 1 2 3 0, .div 1 2 3 0,
      .divu 1 2 3 0, .rem 1 2 3 0, .remu 1 2 3 0, .and 1 2 3 0, .andi 1 2 3, .or 1 2 3 0, .ori 1 2 3, .xor 1 2 3 0, .xori 1 2 3,
      .shl 1 2 3 0, .shli 1 2 63, .shr 1 2 3 0, .shri 1 2 63, .sra 1 2 3 0, .srai 1 2 63, .min 1 2 3 0, .max 1 2 3 0,
      .minu 1 2 3 0, .maxu 1 2 3 0, .clz 1 2 0, .popc 1 2 0, .clmul 1 2 3 0, .clmulh 1 2 3 0, .sel 1 2 3 5, .cmp 1 2 3 0 5,
      .cmpi 1 5 2 3, .li 1 2, .plog 1 2 3 0 3, .pget 1 0, .pput 1 0, .mfsr 1 0x11F, .mtsr 1 0x003, .mtsr 1 0x000, .mtsr 1 0x050,
      .fadds 1 2 3 0, .fsubs 1 2 3 0, .fmuls 1 2 3 0, .fmas 1 2 3 0, .fmins 1 2 3 0, .fmaxs 1 2 3 0, .fcmps 1 2 3 0 3,
      .fcvts 1 2 0 0, .fcvts 1 2 0 1, .fcvts 1 2 0 2, .fcvts 1 2 0 3, .fcvts 1 2 0 4, .fcvts 1 2 0 5] : List Instr).all
      (doesB 0) = true := by decide +kernel

theorem test_witness_branch_words :
    ([.br 0 1, .call 0 1, .jr 1 0, .loop 0 1, .loopset 1 2 0, .loopseti 3 2] : List Instr).all (doesB 1) = true := by
  decide +kernel

theorem test_witness_va_words :
    ([.vaddF 0 1 2 3, .vsubF 0 1 2 3, .vmulF 0 1 2 3, .vfmaF 0 1 2 3, .vmaxF 0 1 2 3, .vminF 0 1 2 3, .vabsF 0 1 2 0,
      .vabsF 0 1 2 2, .vexp2 0 1 2 3, .vrcp 0 1 2, .vrsq 0 1 2, .vaddI 0 1 2 3, .vsubI 0 1 2 3, .vmulI 0 1 2 3, .vmaxI 0 1 2 3,
      .vminI 0 1 2 3, .vand 0 1 2 3, .vor 0 1 2 3, .vxor 0 1 2 3, .vshl 0 1 2 3, .vshr 0 1 2 3, .vsra 0 1 2 3, .vcmpf 0 1 2 3 3,
      .vcmpi 0 1 2 3 3, .vsel 0 1 2 3, .vdot4 0 1 2 3, .vdot4u 0 1 2 3, .vaddsF 0 1 2 3, .vmulsF 0 1 2 3, .vfmasF 0 1 2 3,
      .vcmpu 0 1 2 3 3, .vaddiI 0 1 2 3, .vshifti 0 63 63 2 31] : List Instr).all (doesB 2) = true ∧
    EngineFree (one 2 id).ico.vaFree 4 (one 2 id) := by
  refine ⟨by decide +kernel, by unfold EngineFree; decide +kernel⟩

theorem test_witness_vb_words :
    ([.vmov 0 1 2, .vsplat 0 1 2, .vidx 0 1 2, .rrot 0 1 2 63, .crot 0 1 2 15, .rbcst 0 1 2 63, .cbcst 0 1 2 15, .rred 0 1 2 5,
      .cred 0 1 2 5, .rscan 0 1 2 0, .rscan 0 1 2 3, .rscan 0 1 2 6, .vcvt 0 1 2 8, .vget 0 1 2 255, .vput 0 1 2 255,
      .rrotv 0 1 2 3] : List Instr).all (doesB 3) = true ∧
    EngineFree (one 3 id).ico.vbFree 4 (one 3 id) ∧ EngineFree (one 3 id).ico.vbFree 1 (one 3 id) := by
  refine ⟨by decide +kernel, by unfold EngineFree; decide +kernel, by unfold EngineFree; decide +kernel⟩

theorem test_witness_mem_words :
    ([.vld 0 1 2 14 3, .vst 0 1 2 14 3, .vldt 0 31 2 14 3, .vland 0 1 31, .sld 0 1 2 2 1 3, .sst 0 1 2 3 3, .slda 0 1 2 3 6,
      .sstr 0 1 2 3 6, .ctld 0 1 2 0 3, .ctst 0 1 2 1 3, .watch 0 1, .snooze 0 1 2, .mark 0 6, .cas 0 1 2 3 6,
      .amoadd 0 1 2 3 6, .amoand 0 1 2 3 6, .amoor 0 1 2 3 6, .amoxor 0 1 2 3 6, .amomin 0 1 2 3 6, .amomax 0 1 2 3 6,
      .amominu 0 1 2 3 6, .amomaxu 0 1 2 3 6, .amoswap 0 1 2 3 6, .amofadd 0 1 2 3 6, .amofmin 0 1 2 3 6,
      .amofmax 0 1 2 3 6] : List Instr).all (doesB 4) = true := by decide +kernel

theorem test_witness_mx_words :
    ([.mma 0 1 2 8 1 15, .mref 0 1 8 0 0, .mlut 0 1 16 1 3, .mzero 0 1, .mldacc 0 1 24 0 0, .mdrain 0 1 24 1 2, .mfmt 0 8,
      .mprog 0 1, .mresume 0, .wswap 0 8 1 4] : List Instr).all (doesB 5) = true := by decide +kernel

theorem test_witness_xc_words :
    ([.xtrn 0 1 2, .xcvt 0 1 2 9, .xpls 0 1 2 3, .xplm 0 1 2 3, .xfmt 0 8, .cpy 0 63 8 5, .cpysl 0 63 8 5, .cpymc 0 63 8,
      .cpycan 0 63, .coll 0 63 8 3, .pcnt 0 1 2, .pcancel 0 1, .pcancelTag 0 63, .whfetch 0 8 511, .whstat 0 1 511,
      .whdrop 0 511] : List Instr).all (doesB 6) = true ∧ EngineFree (one 6 id).ico.xcFree 4 (one 6 id) := by
  refine ⟨by decide +kernel, by unfold EngineFree; decide +kernel⟩

theorem test_witness_ct_words :
    ([.sync 0 1, .fset 0 6 15 1, .fsetSelf 0 6 15, .fclr 0 15 1, .fclrSelf 0 15, .waitany 0 1, .waitall 0 1, .ffr 0 1 2,
      .pwait 0 1 8, .whwait 0 4095 8, .barrive 0 1 6, .barwait 0 1 2 3, .slk 0 640, .book 0 1 2, .unbook 0, .calq 0 1 2,
      .spawn 0 1 2 15, .spawnW 0 1 2 15, .tdone 0, .tyield 0, .trap 0 0xFFFF, .trapBrk 0 0xFFFF, .rft 0 1, .halt 0, .ctxrun 0 1 2,
      .ctxstop 0 1] : List Instr).all (doesB 7) = true := by decide +kernel

/-- The other branch of a word that may commit: its bundle has been found free to issue. -/
theorem test_witness_sure : ({ one 0 id with iss := { sure := true } } : State).iss.sure = true ∧
    Live (.add 1 2 3 0) ({ one 0 id with iss := { sure := true } } : State) :=
  ⟨rfl, live_of _ _ (by decide +kernel)⟩


/-- Slot `k` of the small state has a pending prefix `q`. -/
def pfxed (k : Nat) (q : BitVec 24) : State := one k fun x => { x with prefixes := [(k, q)] }

/-- SlotWordRules: a PFX and an ADD that find a prefix, a false predicate, a vector name at and above the allotment. -/
theorem test_witness_slot_rules :
    (pfxed 0 5).iss.sure = false ∧ (Tbl.find (pfxed 0 5).cx.prefixes (pfxed 0 5).iss.slot).isSome ∧
    standsIn 0 (.add 1 2 3 0) ∧ Instr.wf (.add 1 2 3 0) ∧ Instr.takesPrefix (.add 1 2 3 0) = false ∧
    predOf (.add 1 2 3 5) = some 5 ∧ (one 0 id).cx.preg 5 = false ∧ freeB (.add 1 2 3 5) (one 0 id) ∧
    standsIn 2 (.vand 0 1 2 3) ∧ Instr.wf (.vand 0 1 2 3) ∧ Instr.badImm (.vand 0 1 2 3) (one 2 fun x => { x with vcount := 3 }) = false ∧
    (∃ n ∈ vregsOf (.vand 0 1 2 3), (one 2 fun x => { x with vcount := 3 }).cx.vcount ≤ n.toNat) := by decide +kernel

/-- ScalarIntegers: shift amounts 63 and 64. -/
theorem test_witness_shift_limit : decodeSlot 0 (encode (.shli 1 2 63)) = .ok (.shli 1 2 63) ∧ 63 < (64 : BitVec 14).toNat := by decide +kernel

/-- DivisionResults: both dividers free, and one that is busy until the next cycle. -/
theorem test_witness_divider :
    EngineFree (one 0 id).ico.saDiv 14 (one 0 id) ∧ EngineFree (one 1 id).ico.sbDiv 14 (one 1 id) ∧
    freeB (.div 1 2 3 0) ((one 0 id).onCore 0 fun k => { k with saDiv := 1 }) = true ∧
    ((one 0 id).onCore 0 fun k => { k with saDiv := 1 }).cycle < ((one 0 id).onCore 0 fun k => { k with saDiv := 1 }).ico.saDiv := by
  unfold EngineFree; decide +kernel

/-- The codes above the last one, and the last one. -/
theorem test_witness_code_limits :
    5 < (6 : BitVec 5).toNat ∧ ¬ 5 < (5 : BitVec 5).toNat ∧ 5 < (6 : BitVec 3).toNat ∧ 3 < (4 : BitVec 5).toNat ∧
    standsIn 0 (.cmp 1 2 3 0 5) ∧ standsIn 0 (.plog 1 2 3 0 3) ∧ standsIn 0 (.fcvts 1 2 0 5) := by decide +kernel

/-- SpecialRegisterMoves: a read-only register, 0x0FF and 0x100 at task privilege, 0x100 above it. -/
theorem test_witness_special_registers :
    srReadOnly 0x000 = true ∧ srReadOnly 0x003 = false ∧ srReadOnly 0x100 = false ∧ freeB (.mtsr 1 0x100) (one 0 id) = true ∧
    (one 0 id).cx.priv = 0 ∧ (one 0 fun x => { x with priv := 1 }).cx.priv ≠ 0 ∧
    freeB (.mtsr 1 0x100) (one 0 fun x => { x with priv := 1 }) = true := by decide +kernel

/-- ControlFlow: JR to 32 and to 33; LOOPSETI whose extended immediate is negative; the four cases of LOOP. -/
theorem test_witness_control_flow :
    ((one 1 (regs 2 3 32 33)).cx.sreg 2).toNat % 32 = 0 ∧ ((one 1 (regs 2 3 32 33)).cx.sreg 3).toNat % 32 ≠ 0 ∧
    freeB (.jr 3 0) (one 1 (regs 2 3 32 33)) = true ∧ (one 1 (regs 2 3 32 33)).cx.preg 0 = true ∧
    (immediate (one 1 id) (0x2000 : BitVec 14)).toInt < 0 ∧ (immediate (pfxed 1 0x800000) (0 : BitVec 14)).toInt < 0 ∧
    (([(1, 0), (0, 2), (0, 1), (0, 0)] : List (Word × Word)).all fun l =>
      (one 1 fun x => { x with lc := l.1, ec := l.2 }).cx.inflight == [] &&
      freeB (.loop 0 1) (one 1 fun x => { x with lc := l.1, ec := l.2 })) = true := by decide +kernel

/-- VectorMovesAndConversion: VGET of lane 1023, and of lane 1024 through a prefix. -/
theorem test_witness_lane_numbers :
    (one 3 id).immVx 255 = 255 ∧ (pfxed 3 3).immVx 255 = 1023 ∧ 1024 ≤ (pfxed 3 4).immVx 0 := by decide +kernel

/-- Transforms: the numbers of planes 0 and 9 that XPLM turns away and 1 and 8 that it takes; XFMT with 0, 9, 1 and 8. -/
theorem test_witness_planes :
    (([0, 9, 1, 8] : List Word).all fun q => freeB (.xplm 0 1 2 3) (one 6 fun x => { x with pq := q })) = true ∧
    (([0, 9, 1, 8] : List Word).all fun w => freeB (.xfmt 0 8) (one 6 (regs 8 3 w 0)) &&
      ((one 6 (regs 8 3 w 0)).cx.sreg 8).toNat % 16 == w.toNat) = true := by decide +kernel

def scratch (k : Nat) (f : Ctx → Ctx) : State := one k fun x => f (scratchWin x)
def scratchWindow : Window := windowOf 0x10000000 0xFFFFFFFFFFE00000 0x000A000000000000 0x93

/-- ScratchWords: a word at the window's base and the last one of the scratchpad, clean and poisoned. -/
theorem test_witness_scratch_words :
    (∀ va ∈ ([0x10000000, 0x101FFFF8] : List Nat),
      let s := scratch 4 (regs 2 3 (BitVec.ofNat 64 va) 0)
      s.iss.core < 512 ∧ va % 8 = 0 ∧ va < 2 ^ 64 ∧ findWindow s.cx.windows va = some scratchWindow ∧ scratchWindow.kind = 1 ∧
      va = (s.cx.sreg 2 + immediate s (0 : BitVec 7) * 8).toNat ∧
      s.portWait (s.wordAcc va 3).ports = false ∧ s.wordCausesAt (s.wordAcc va 3) .read scalarLoadKinds = [] ∧
      s.wordCausesAt (s.wordAcc va 3) .write scalarStoreKinds = [] ∧ freeB (.sld 0 1 2 3 0 0) s = true ∧
      coatPoison (coatGet s.coats (ownPlace s scratchWindow va)) = false) := by decide +kernel


/-- Window 0 maps VA 0 to 0xFFFF_FFFF to IA 0 up, NORMAL, for reads and writes, and the home slice holds the line at `ia`
with `data` and `coat`. -/
def normal (k ia data : Nat) (coat : Coat) (f : Ctx → Ctx) : State :=
  { one k fun x => f { x with aw := [(1, 0xFFFF0000), (3, 0x83)] } with
    lines := [(ia / 64, { data := data, coat := coat, owner := 0, way := 0 })] }
def normalWindow : Window := windowOf 0 0xFFFF0000 0 0x83

def lineHitB (s : State) (w : Window) (va : Nat) (ln : Line) : Bool :=
  findWindow s.cx.windows va == some w && w.kind == 0 && decide (iaRegion (w.toIa va) ≤ 7) &&
    (s.winReq (some w)).frameOf (w.toIa va) == none && Tbl.find s.lines (w.toIa va / 64) == some ln && ln.owner == s.ipart

theorem hit_of (s : State) (w : Window) (va : Nat) (ln : Line) (h : lineHitB s w va ln = true) : LineHit s w va ln := by
  simp only [lineHitB, Bool.and_eq_true, beq_iff_eq, decide_eq_true_eq] at h
  obtain ⟨⟨⟨⟨⟨a, b⟩, c⟩, d⟩, e⟩, f⟩ := h
  exact ⟨a, b, c, d, e, f⟩

/-- A slice holds the line at 0x1000 with `coat`, s2 holds `va` and s1 holds `v`. -/
def lineState (coat : Coat) (va v : Word) : State := normal 4 0x1000 0xABCD coat (regs 2 1 va v)
def lineHeld (coat : Coat) : Line := { data := 0xABCD, coat := coat, owner := 0, way := 0 }

/-- SharedWords and Atomics: the last doubleword of a line that a slice holds, and one whose coat is poison; the value that
CAS expects, and another. -/
theorem test_witness_line : LineHit (lineState 0 0x1038 0) normalWindow 0x1038 (lineHeld 0) ∧
    LineHit (lineState 0xFFFF 0x1038 0) normalWindow 0x1038 (lineHeld 0xFFFF) ∧
    LineHit (lineState 0 0x1000 0xABCD) normalWindow 0x1000 (lineHeld 0) ∧ LineHit (lineState 0 0x1000 1) normalWindow 0x1000 (lineHeld 0) :=
  ⟨hit_of _ _ _ _ (by decide +kernel), hit_of _ _ _ _ (by decide +kernel), hit_of _ _ _ _ (by decide +kernel),
    hit_of _ _ _ _ (by decide +kernel)⟩

theorem test_witness_line_free :
    (((lineState 0 0x1038 0).cx.sreg 2).toNat = 0x1038 ∧ (0x1038 : Nat) % 8 = 0 ∧ coatPoison 0xFFFF = true) ∧
    (lineState 0 0x1038 0).wordCausesAt ((lineState 0 0x1038 0).wordAcc 0x1038 3) .read scalarLoadKinds = [] ∧
    (lineState 0 0x1038 0).wordCausesAt ((lineState 0 0x1038 0).wordAcc 0x1038 3) .write scalarStoreKinds = [] ∧
    (lineState 0 0x1038 0).normalCauses 0x1038 8 .both = [] ∧ (lineState 0 0x1038 0).normalCauses 0x1038 4 .both = [] ∧
    freeB (.amoadd 0 1 2 3 0) (lineState 0 0x1038 0) = true ∧ freeB (.sld 0 1 2 3 0 0) (lineState 0 0x1038 0) = true := by
  decide +kernel

/-- AddressTraps: an address in no window, aligned and not; one in a window that permits neither reads nor writes, with its
last aligned address. -/
theorem test_witness_address_traps :
    (∀ va ∈ ([0x10000, 0x10001] : List Nat), findWindow (one 4 (regs 2 3 (BitVec.ofNat 64 va) 0)).cx.windows va = none ∧
      freeB (.sld 0 1 2 3 0 0) (one 4 (regs 2 3 (BitVec.ofNat 64 va) 0)) = true) ∧
    (∀ va ∈ ([0xFFFFFFF8, 0xFFFFFFF9] : List Nat),
      let s := one 4 fun x => { regs 2 3 (BitVec.ofNat 64 va) 0 x with aw := [(1, 0xFFFF0000), (3, 0x80)] }
      let w := windowOf 0 0xFFFF0000 0 0x80
      findWindow s.cx.windows va = some w ∧ w.kind = 0 ∧ w.r = false ∧ w.w = false ∧ w.toIa va < 9 * 2 ^ 48 ∧
      freeB (.sst 0 1 2 3 0) s = true) := by decide +kernel

/-- ScratchWords and TimedLoads: a poisoned block. -/
theorem test_witness_scratch_poison :
    let s := { scratch 4 (regs 2 3 0x10000000 0) with coats := [(scratchPlace 0 0 / 64, 0xFFFF)] }
    findWindow s.cx.windows 0x10000000 = some scratchWindow ∧
      coatPoison (coatGet s.coats (ownPlace s scratchWindow 0x10000000)) = true ∧
      s.wordCausesAt (s.wordAcc 0x10000000 3) .read scalarLoadKinds = [] ∧ s.portWait (s.wordAcc 0x10000000 3).ports = false := by
  decide +kernel

/-- Window 0 as a WBANK window. -/
def wbankWindow : Window := windowOf 0x10000000 0xFFFFFFFFFFE00000 0x000B000000000000 0xA3

/-- A tile's rows lie 256 bytes apart in the scratchpad, and in the weight bank past its refresh tick. -/
def scratchTile : State := scratch 4 (regs 2 3 0x10000000 256)
def wbankTile : State := { one 4 fun x => { regs 2 3 0x10000000 256 x with
  aw := [(0, 0x10000000), (1, 0xFFFFFFFFFFE00000), (2, 0x000B000000000000), (3, 0xA3)] } with cycle := 32 }

/-- OwnMemoryTiles and TimedLoads: F32 tiles in the scratchpad and in the weight bank. -/
theorem test_witness_own_tiles :
    findWindow scratchTile.cx.windows (scratchTile.cx.sreg 2).toNat = some scratchWindow ∧
    scratchTile.portWait (scratchTile.tileAcc 2 3 1 false).ports = false ∧
    scratchTile.tileCauses (scratchTile.tileAcc 2 3 1 false) .read loadKinds = [] ∧
    scratchTile.tileCauses (scratchTile.tileAcc 2 3 1 false) .write storeKinds = [] ∧
    scratchTile.tileCauses (scratchTile.tileAcc 2 3 1 true) .read loadKinds = [] ∧ freeB (.vld 0 1 2 1 3) scratchTile = true ∧
    freeB (.vst 0 1 2 1 3) scratchTile = true ∧ freeB (.vldt 0 31 2 1 3) scratchTile = true ∧
    (Tbl.look scratchTile.ico.landing 31 {}).st = .empty ∧
    findWindow wbankTile.cx.windows (wbankTile.cx.sreg 2).toNat = some wbankWindow ∧ wbankWindow.kind = 2 ∧
    wbankTile.portWait (wbankTile.tileAcc 2 3 1 false).ports = false ∧
    wbankTile.tileCauses (wbankTile.tileAcc 2 3 1 false) .read loadKinds = [] := by decide +kernel

/-- OwnMemoryTiles: a request for a whole tile of each format, and sixteen rows of four blocks, the last of them the last
bytes of the address space. -/
theorem test_witness_tile_requests :
    (∀ f ∈ ([1, 6, 14] : List Nat), ({ (one 4 id).tileAcc 2 3 1 false |>.q with fmt := f } : TileReq).coats = false) ∧
    (let l : List Span := (List.range 16).map fun i => { va := 2 ^ 64 - 256 * (i + 1), len := 256 }
     l.length = 16 ∧ ∀ sp ∈ l, sp.len = 256 ∧ sp.va % 64 = 0 ∧ sp.va + 256 ≤ 2 ^ 64) := by decide +kernel

/-- TimedLoadsAndResults: landing slot 31 LANDED, WAITING, and another context's. -/
theorem test_witness_landing :
    let at' (l : Landing) : State := (one 4 id).onCore 0 fun k => { k with landing := [(31, l)] }
    (∀ l ∈ ([{ st := .landed }, { st := .waiting, due := some 0 }, { st := .landed, owner := 1 }] : List Landing),
      Tbl.look (at' l).ico.landing (31 : BitVec 5).toNat {} = l ∧ freeB (.vland 0 2 31) (at' l) = true) ∧
    freeB (.vland 0 2 31) (one 4 id) = true ∧ (Tbl.look (one 4 id).ico.landing 31 {}).st = .empty := by decide +kernel

/-- ResultsReturn: a pending result of each kind, one whose context has stopped, and a fetch miss of context 1. -/
theorem test_witness_results :
    (∀ z ∈ ([{ id := 7, slot := 4, dest := .scalar 3, reissue := true }, { id := 7, slot := 4, dest := .tile 3, reissue := true },
        { id := 7, slot := 4, dest := .scalar 3, reissue := true, poison := some 64 },
        { id := 7, slot := 4, dest := .scalar 3, reissue := true, fault := some (9, 8) },
        { id := 7, slot := 4, dest := .scalar 3, reissue := true, saveIa := some 0x908 }] : List Pending),
      let s := one 4 fun x => { x with pending := [z] }
      ((s.ctx 0).pending.find? fun q => q.id == 7 && !q.flash) = some z ∧ (s.pair (pairOf (coreOf 0))).freeze = none ∧
      ((s.ctx 0).pending.find? fun q => q.id == 8 && !q.flash) = none) := by decide +kernel

/-- ResultsReturn: context 1 waits for the line at 0x1000, which a slice holds. -/
def fetchState : State :=
  { (one 0 id).setCtx 1 { run := .free, fetchMiss := some 0x40, pc := 0x1000, aw := [(1, 0xFFFF0000), (3, 0x84)] } with
    lines := [(0x40, { data := 5, coat := 0, owner := 0, way := 0 })] }
theorem test_witness_fetch : fetchState.missing 0 0x40 = [4 * 0 + 1] ∧
    (match (fetchState.iaRead (fetchState.coreReq (4 * 0 + 1) true) (0x40 * 64)).1 with | .ok b => b.data == 5 | _ => false) = true := by
  decide +kernel


/-- MonitorsAndSleep: the four states in which SNOOZE finds its monitor and limit, a sleeping context with a limit that has
come, and a WATCH of the last line of a window. -/
theorem test_witness_monitor :
    (one 4 id).cx.monitor = .disarmed ∧ (one 4 fun x => { x with monitor := .triggered 5 }).cx.monitor = .triggered 5 ∧
    (one 4 fun x => { x with monitor := .armed 5 }).cx.monitor = .armed 5 ∧ (0 : Word).toNat ≤ (one 4 id).gtc ∧
    (one 4 id).gtc < (1 : Word).toNat ∧
    ((one 4 fun x => { x with sleep := { snooze := some (7, 0) } }).ctx 0).sleep.snooze = some (7, 0) ∧
    ((one 4 fun x => { x with sleep := { snooze := some (7, 0) } }).ctx 0).run ≠ .halted ∧
    findWindow (lineState 0 0xFFFFFFFF 0).cx.windows 0xFFFFFFFF = some normalWindow ∧ iaRegion (normalWindow.toIa 0xFFFFFFFF) ≤ 7 ∧
    (lineState 0 0xFFFFFFFF 0).normalCauses 0xFFFFFFFF 1 .read = [] := by decide +kernel

/-- Partition 0 owns face 0. -/
def owned (s : State) : State := s.onPart 0 fun p => { p with pfaces := 1 }

/-- The core's flags and the context's completion bits. -/
def waiting (flags : BitVec 16) (tags v : Word) : State :=
  owned ((one 7 fun x => { regs 2 3 v 0 x with tags := tags }).onCore 0 fun k => { k with flags := flags })

/-- WaitsAndFlags: SYNC and the tag waits with the bit and without it, at the first and at the last bit; FFR that finds tag 63
and none. -/
theorem test_witness_waits :
    (([(0x8000, 0x8000, true), (0x7FFF, 0x8000, false), (1, 1, true), (0xFFFE, 1, false)] : List (BitVec 16 × BitVec 16 × Bool)).all
      fun (f, m, go) => freeB (.sync 0 m) (waiting f 0 0) && (((waiting f 0 0).ico.flags &&& m) == m) == go) = true ∧
    (([(0x8000000000000000, true), (0x7FFFFFFFFFFFFFFF, false), (1, false)] : List (Word × Bool)).all fun (t, go) =>
      freeB (.waitany 0 2) (waiting 0 t 0x8000000000000000) && freeB (.waitall 0 2) (waiting 0 t 0x8000000000000000) &&
      ((waiting 0 t 0x8000000000000000).cx.tags &&& (waiting 0 t 0x8000000000000000).cx.sreg 2 != 0) == go &&
      ((waiting 0 t 0x8000000000000000).cx.tags.getLsbD 63 == go)) = true ∧
    (waiting 0 5 0).cx.sreg 2 = 0 := by decide +kernel

/-- WaitsAndFlags: FSET and FCLR to the own core, and to core 1 and core 512, which scope 0 and the package do not reach;
operations on the same flag that arrive together. -/
theorem test_witness_flags :
    freeB (.fset 0 0 3 2) (waiting 0 0 0) = true ∧ ((waiting 0 0 0).cx.sreg 2).toNat = (waiting 0 0 0).iss.core ∧
    ((waiting 0 0 0).owns (waiting 0 0 0).ipart (faceOf 0)) = true ∧ freeB (.fset 0 0 3 2) (waiting 0 0 1) = true ∧
    ((waiting 0 0 1).cx.sreg 2).toNat ≠ (waiting 0 0 1).iss.core ∧ freeB (.fclr 0 3 2) (waiting 0 0 512) = true ∧
    ¬ ((waiting 0 0 512).cx.sreg 2).toNat ≤ 511 ∧
    (([(15, [{ due := 0, flag := 15, set := true }, { due := 0, flag := 15, set := false }]), (0, [{ due := 0, flag := 0, set := false }]),
       (3, [{ due := 9, flag := 3, set := true }])] : List (Nat × List FlagOp)).all fun (j, l) =>
      j < 16 && l.all (fun o => o.flag < 16) && (((one 7 id).onCore 0 fun k => { k with flagOps := l }).core 0).flagOps == l) = true := by
  decide +kernel

/-- A barrier with `n` arrivals of 2 parties in phase 2^32 − 1, in the line at 0x1000. -/
def barrierState (n : Nat) (f : Ctx → Ctx) : State :=
  normal 7 0x1000 (n + 2 * 2 ^ 32 + (2 ^ 32 - 1) * 2 ^ 64) 0 fun x => f (regs 2 3 0x1000 (BitVec.ofInt 64 (-2)) x)
def barrierLine (n : Nat) : Line :=
  { data := n + 2 * 2 ^ 32 + (2 ^ 32 - 1) * 2 ^ 64, coat := 0, owner := 0, way := 0 }

theorem test_witness_barrier_lines : LineHit (barrierState 0 id) normalWindow 0x1000 (barrierLine 0) ∧
    LineHit (barrierState 1 id) normalWindow 0x1000 (barrierLine 1) := ⟨hit_of _ _ _ _ (by decide +kernel), hit_of _ _ _ _ (by decide +kernel)⟩

def phaseIs (s : State) (n : Nat) : Bool := match s.barPhase 0 0x1000 with | .ok p => p == n | _ => false

/-- Barriers: an arrival that does not end the phase and one that does, an arrival still on its way; a wait that begins, one
whose phase has gone, one whose phase stands at its limit, and one past its limit. -/
theorem test_witness_barriers :
    (barrierState 0 id).barrierCauses 0x1000 .both = [] ∧ (barrierState 0 id).cx.arriving = false ∧
    freeB (.barrive 0 2 0) (barrierState 0 id) = true ∧ freeB (.barwait 0 2 3 4) (barrierState 0 id) = true ∧
    (barrierState 0 id).barrierCauses 0x1000 .read = [] ∧ (barrierState 0 id).cx.sleep.bar = none ∧
    phaseIs (barrierState 0 id) (2 ^ 32 - 1) = true ∧
    (([7, 2 ^ 32 - 1] : List Nat).all fun ph =>
      let s := barrierState 0 fun x => { x with sleep := { bar := some (.waiting 0 0x1000 ph 0) } }
      s.cx.sleep.bar == some (.waiting 0 0x1000 ph 0) && phaseIs s (2 ^ 32 - 1)) = true ∧
    (barrierState 0 fun x => { x with sleep := { bar := some .over } }).cx.sleep.bar = some .over ∧
    ((0 : Word).toNat ≤ (barrierState 0 id).gtc ∧ ((barrierState 0 id).ctx 0).run ≠ .halted) := by decide +kernel

/-- A BARRIVE whose result is still on its way holds the next one. -/
def arrivingState : State := barrierState 0 fun x =>
  { x with pending := [{ id := 3, slot := 7, dest := .arrival, reissue := false }] }
theorem test_witness_arriving : arrivingState.cx.arriving = true ∧
    Instr.wf (.barrive 0 2 0) = true ∧ Tbl.find arrivingState.cx.prefixes arrivingState.iss.slot = none := by decide +kernel

/-- A started plan of context 0. -/
def booking (rows : List RowUse) : Booking :=
  { core := 0, ctx := some 0, part := 0, start := 0, rows := rows, slip := false, slack := 7, code := 1, base := 0, ready := 0
    started := true }

/-- Context 0 is BOOKED under booking 5, which has rows 0 (HOLD) and 3, and has a slack of 7. -/
def bookedState : State :=
  (one 7 fun x => { x with run := .booked, bid := some 5 }).onFace 0 fun f =>
    { f with bookings := [(5, booking [{ row := 0, first := 0, len := 4, hold := true }, { row := 3, first := 0, len := 9 }])] }

theorem test_witness_booked :
    bookedState.cx.run = .booked ∧ 0 = faceOf (coreOf bookedState.cs) ∧ bookedState.cx.bid = some 5 ∧
    (Tbl.find (bookedState.face 0).bookings 5).isSome = true ∧ (bookedState.face 0).bookings.length = 1 ∧
    freeB (.slk 0 9) bookedState = true ∧ (one 7 id).cx.run ≠ .booked := by decide +kernel

/-- Context 0 runs instance 0 of the task in slot 1 of domain 0. -/
def taskState : State :=
  { one 7 fun x => { x with taskid := 1 } with
    disps := [(0, { tasks := [{ seq := 4, part := 0, queue := 0, slot := 1, tcb := List.replicate 16 0, va := 0, running := [0] }] })] }

theorem test_witness_task : ((taskState.taskOf taskState.cx).map fun z => (z.1, z.2.seq)) = some (0, 4) ∧
    ((taskState.disp 0).tasks.map fun u => u.seq) = [4] ∧ taskState.cx.taskid ≠ 0 ∧ (one 7 id).cx.taskid = 0 ∧
    freeB (.tyield 0) taskState = true := by decide +kernel

/-- Requests: CTXSTOP of the context 4, HALTED and not, and of contexts that may not be stopped, at both privileges. -/
def supState (v : Word) : State := owned ((one 7 fun x => { regs 2 3 v 0x1000 x with priv := 1 }).setCtx 4 { run := .free })
theorem test_witness_context_requests :
    freeB (.ctxstop 0 2) (supState 4) = true ∧ (supState 4).cx.priv ≠ 0 ∧ (one 7 id).cx.priv = 0 ∧
    ((supState 4).ctx 4).run ≠ .halted ∧ ((supState 5).ctx 5).run = .halted ∧ (4 : Nat) ≤ 2047 ∧
    (supState 4).owns (supState 4).ipart (faceOf (coreOf 4)) = true ∧ (4 : Nat) ≠ (supState 4).cs ∧
    ¬ ((supState 2048).cx.sreg 2).toNat ≤ 2047 ∧ ((supState 0).cx.sreg 2).toNat = (supState 0).cs := by decide +kernel

/-- Requests: a save area, a plan and a TCB at 0x1000, which the windows hold; the plan is read. -/
def askState (f : Ctx → Ctx) : State := normal 7 0x1000 0 0 fun x => f { regs 2 3 0x1000 0x1000 x with priv := 1 }
def readsPlan (s : State) (va : Nat) : Bool := match (s.readVaPlan va).1 with | .fault _ _ => false | _ => true
def spawnIs (s : State) (va q n : Nat) : Bool :=
  match (s.askSpawn va q).1 with | .noQueue => n == 3 | .bad => n == 2 | .full => n == 1 | _ => n == 0

theorem test_witness_requests :
    findWindow (askState id).cx.windows 0x1000 = some normalWindow ∧ (askState id).resumeCauses 0x1000 = [] ∧
    (askState id).readCauses 0x1000 16 16 = [] ∧ (askState id).readCauses 0x1000 128 128 = [] ∧
    readsPlan (askState id) 0x1000 = true ∧ (askState id).cx.run ≠ .booked ∧
    (askState fun x => { x with run := .booked }).cx.run = .booked ∧ freeB (.book 0 2 3) (askState id) = true ∧
    freeB (.spawn 0 2 3 0) (askState id) = true ∧ spawnIs (askState id) 0x1000 0 3 = true := by decide +kernel


/-- Registers 8 to 15 hold a group. -/
def group8 (l : List Word) (x : Ctx) : Ctx := { x with s := l.zipIdx.foldl (fun v e => v.set! (8 + e.2) e.1) x.s }

/-- A window on the own scratchpad, and a group in s8 to s15. -/
def mxState (l : List Word) : State := scratch 5 (group8 l)

def mxOkB (i : Instr) (op : Nat) (c : BitVec 1) (k : Nat) (l : List Word) : Bool :=
  let s := mxState l
  freeB i s && liveB i s && s.mxCauses (s.mxMake op i c k 8 0 0) == [] && decide (((s.pair s.ipair).queue 0).length < 8)

/-- MacroOpsQueue: each word with a group that is in order, on the bank of the own core, at one row and at 128 rows. -/
theorem test_witness_macro_ops :
    (mxOkB (.mma 0 0 0 8 0 0) 1 0 0 [0x10000000, 64, 0x10010000, 0x4000, 64, 0x08000008, 1, 0] &&
     mxOkB (.mma 0 0 1 8 0 0) 1 0 1 [0x10000000, 64, 0x10010000, 0x4000, 64, 0, 128, 0] &&
     mxOkB (.mma 0 0 2 8 0 0) 1 0 2 [0x10000000, 64, 0x10010000, 0x4000, 32, 0, 1, 0] &&
     mxOkB (.mref 0 0 8 0 0) 2 0 0 [0x10000000, 64, 0x10010000, 0x4000, 64, 0x08000804, 1, 0] &&
     mxOkB (.mlut 0 0 8 0 0) 3 0 0 [0x10000000, 64, 0x10010000, 0x4000, 64, 0x08000002, 1, 0] &&
     mxOkB (.mzero 0 0) 4 0 0 [] && mxOkB (.mzero 0 1) 4 1 0 [] &&
     mxOkB (.mldacc 0 0 8 0 0) 5 0 0 [0x10000000, 1024, 1, 0, 0, 0, 16, 0] &&
     mxOkB (.mdrain 0 0 8 0 0) 6 0 0 [0x10000000, 1024, 1, 0, 0, 0, 128, 0]) = true := by decide +kernel

/-- A queue with `n` operations. -/
def someOp : MxOp := { op := 4, acc := 0, group := [], nfr := 0, pc := 0, flagEn := true, flag := 3, core := 0, ctx := 0 }
def queueState (l : List MxOp) (f : Ctx → Ctx) : State := (one 5 f).onPair 0 fun p => { p with queues := [(0, l)] }

/-- MacroOpsQueue and ArrayFormatAndSwap: a full queue, and held macro-ops that find room for one. -/
theorem test_witness_queue :
    8 ≤ (((queueState (List.replicate 8 someOp) id).pair 0).queue 0).length ∧
    freeB (.mzero 0 0) (queueState (List.replicate 8 someOp) id) = true ∧
    (queueState (List.replicate 7 someOp) fun x => { x with held := [someOp] }).resumeMxCauses = [] ∧
    [someOp].length ≤ (queueState (List.replicate 7 someOp) fun x => { x with held := [someOp] }).mxRoom ∧
    (one 5 id).cx.held = [] ∧
    (([0, 9, 1, 8] : List Word).all fun w => freeB (.mfmt 0 8) (one 5 (regs 8 3 w 0)) &&
      ((one 5 (regs 8 3 w 0)).cx.sreg 8).toNat % 16 == w.toNat) = true := by decide +kernel

/-- ArrayArithmetic: a macro-op of one row of 64 elements over a bank that holds zeros. -/
theorem test_witness_compute :
    (0 < ({ someOp with op := 1, group := [0, 64, 0, 0, 64, 0, 1, 0] } : MxOp).m) ∧ (0 : Nat) < 256 ∧
    ((({} : AccBank).row 0 0 0).length = 256) := by decide +kernel

/-- Context 0 is FREE or BOOKED under booking 5, which owns both weight-bank rows of pair 0. -/
def swapState (run : RunState) (sleep : Sleep) (l : List Word) : State :=
  ({ one 5 fun x => { group8 l x with run := run, sleep := sleep, bid := some 5 } with cycle := 32 }).onFace 0 fun f =>
    { f with bookings := [(5, booking [{ row := 0x120, first := 0, len := 9 }, { row := 0x121, first := 0, len := 9 }])] }

/-- ArrayFormatAndSwap: a swap at the first tick that may be named, and ticks 1 and 8,192 ahead; the answers of the
controller; a swap that is due and one that is done. -/
theorem test_witness_swap :
    freeB (.wswap 0 8 1 4) (swapState .booked {} [3]) = true ∧ (swapState .booked {} [3]).tick + 2 = 3 ∧
    ((swapState .booked {} [3]).face 0).owner 0x120 3 = .bid 5 ∧ ((swapState .booked {} [3]).face 0).owner 0x121 3 = .bid 5 ∧
    ((swapState .booked {} [3]).pair 0).swap = none ∧ (swapState .booked {} [3]).cx.grp 8 7 = 0 ∧
    (swapState .free { swap := some (some true) } [3]).cx.sleep.swap = some (some true) ∧
    freeB (.wswap 0 8 1 4) (swapState .free {} [3]) = true ∧ (swapState .free {} [3]).cx.run = .free ∧
    ¬ (swapState .free {} [2]).tick + 2 ≤ ((swapState .free {} [2]).cx.grp 8 0).toNat ∧
    ¬ ((swapState .free {} [8193]).cx.grp 8 0).toNat ≤ (swapState .free {} [8193]).tick + 8191 ∧
    (((one 5 id).onPair 0 fun p => { p with swap := some { tick := 0, core := 0, flagEn := true, flag := 2 } }).pair 0).swap =
      some { tick := 0, core := 0, flagEn := true, flag := 2 } ∧
    (0 : Nat) < ({ one 5 id with cycle := 32 } : State).tick := by decide +kernel

/-- SequencerSteps: an MZERO that has waited four cycles starts its step; one whose step has ended. -/
def stepState (o : MxOp) : State := { queueState [o] id with cycle := 4 }
theorem test_witness_sequencer :
    ((stepState someOp).pair 0).freeze = none ∧ pairOf someOp.core = 0 ∧ (stepState someOp).chosen 0 0 = some (someOp, none) ∧
    (stepState someOp).stepNow someOp = true ∧
    (stepState { someOp with seg := 1, busy := some 4 }).mxHead 0 0 = some { someOp with seg := 1, busy := some 4 } ∧
    ({ someOp with seg := 1, busy := some 4 } : MxOp).steps ≤ ({ someOp with seg := 1, busy := some 4 } : MxOp).done ∧
    4 ≤ (stepState someOp).cycle := by decide +kernel

/-- ArrayConfiguration: AMODE written to an array that is idle, and to one that is in use. -/
theorem test_witness_array_mode :
    (one 5 id).arrayInUse 0 = false ∧ (queueState [someOp] id).arrayInUse 0 = true ∧
    (1 : Word).getLsbD 0 ≠ (((queueState [someOp] id).pair 0).modeNext.getD ((queueState [someOp] id).pair 0).lease) := by
  decide +kernel

/-- A group of a copy of one row of 128 bytes from the scratchpad to memory, in a state that has both windows. -/
def copyState (l : List Word) (f : State → State) : State :=
  f (owned (one 6 fun x => group8 l { x with aw := [(0, 0x10000000), (1, 0x101F0000), (2, 0x000A000000000000), (3, 0x93),
    (4, 0x20000000), (5, 0x20FF0000), (6, 0), (7, 0x83), (8, 0x30000000), (9, 0x301F0000), (10, 0x000A000000000000), (11, 0xC2)] }))

def copyGroup : List Word := [0x10000000, 0x20000000, 128, 128, 0x0000000100000080, 0, 0, 0]


def cpyOkB (i : Instr) (k : CopyKind) (x : Nat) (l : List Word) (causes : State → CopyCmd → List Cause) : Bool :=
  let s := copyState l id
  freeB i s && liveB i s && causes s (s.copyMake k 63 8 x) == [] && !(Tbl.look s.ico.tags 63 {}).busy && (s.engine 0).queue == []

/-- CopyWords: a copy, a copy into staging, a multicast at the first tick that may be named and a collective, each with tag 63; a
busy tag, a full queue, and groups that COLL turns away. -/
theorem test_witness_copy_words :
    cpyOkB (.cpy 0 63 8 0) .cpy 0 copyGroup State.cpyCauses = true ∧
    cpyOkB (.cpysl 0 63 8 0) .cpysl 0 [0x20000000, 0, 128, 128, 0x0000000100000080, 0, 0, 0] State.cpyCauses = true ∧
    cpyOkB (.cpymc 0 63 8) .cpymc 0 [0x10000000, 0x30000000, 0, 0, 0x0000000100000080, 0, 0x20001, 0] State.cpymcCauses = true ∧
    (copyState [0x20000000, 31, 0, 3] id).collCauses 8 = [] ∧ freeB (.coll 0 63 8 3) (copyState [0x20000000, 31, 0, 3] id) = true ∧
    32 ≤ ((copyState [0, 32] id).cx.grp 8 1).toNat ∧ 4 ≤ ((copyState [0, 0, 0, 4] id).cx.grp 8 3).toNat ∧
    (copyState [0, 0, 0, 0, 1] id).cx.grp 8 4 ≠ 0 ∧ freeB (.coll 0 63 8 3) (copyState [0, 32] id) = true ∧
    (Tbl.look (copyState copyGroup fun s => s.onCore 0 fun k => { k with tags := [(63, { busy := true })] }).ico.tags 63 {}).busy = true ∧
    freeB (.cpycan 0 63) (copyState [] id) = true := by decide +kernel

/-- Counter 255 of the pair shows three planes. -/
def counterState (c : Counter) (n : Nat) (v : Word) : State :=
  (one 6 (regs 2 3 v 0)).onPair 0 fun p => { p with counters := [(255, c)], cancelQ := List.replicate n (.tile 0) }

/-- CounterWords: a counter that has its planes, one that has one too few, one that has ended; a full cancel queue; the counter
numbers 255 and 256. -/
theorem test_witness_counters :
    (((counterState { planes := 3 } 0 255).pair 0).counter 255).planes = 3 ∧ (3 : BitVec 4).toNat ≤ 3 ∧ ¬ (4 : BitVec 4).toNat ≤ 3 ∧
    (((counterState { planes := 3 } 0 255).pair 0).counter 255).done = false ∧
    (((counterState { error := true } 0 255).pair 0).counter 255).error = true ∧
    freeB (.pwait 0 2 3) (counterState { planes := 3 } 0 255) = true ∧ ((counterState {} 0 255).cx.sreg 2).toNat ≤ 255 ∧
    8 ≤ ((counterState {} 8 255).pair 0).cancelQ.length ∧ freeB (.pcancelTag 0 63) (counterState {} 8 255) = true ∧
    ((counterState {} 7 255).pair 0).cancelQ.length < 8 ∧ 255 < ((counterState {} 0 256).cx.sreg 2).toNat ∧
    freeB (.pcnt 0 1 2) (counterState {} 0 256) = true := by decide +kernel

/-- Handle 511 of domain 0 with this record, and a descriptor's address in a window. -/
def handleState (h : Handle) (n : Nat) (cmds : List HandleCmd) : State :=
  ((({ normal 7 0x1000 0 0 (group8 [0x1000, 8]) with handles := [(511, h)] } : State).onCore 0 fun k => { k with whq := n }).onStack 0
    fun f => { f with cmds := cmds })

/-- HandleInstructions: a handle that the partition holds and one that it does not, in each of its states, a full queue, and an
earlier command of the context. -/
theorem test_witness_handles :
    ((handleState { en := true } 0 []).handle 511).en = true ∧ ((handleState { en := true } 0 []).handle 511).owner = (handleState { en := true } 0 []).ipart ∧
    (handleState {} 0 []).handle 511 = {} ∧ freeB (.whstat 0 1 511) (handleState {} 0 []) = true ∧
    findWindow (handleState { en := true } 7 []).cx.windows ((handleState { en := true } 7 []).cx.grp 8 0).toNat = some normalWindow ∧
    (handleState { en := true } 7 []).fetchCauses 8 511 = [] ∧ freeB (.whfetch 0 8 511) (handleState { en := true } 7 []) = true ∧
    (handleState { en := true } 7 []).ico.whq < 8 ∧ 8 ≤ (handleState { en := true } 8 []).ico.whq ∧
    (([0, 1, 2, 3, 4] : List Nat).all fun n => ((handleState { en := true, st := n, landed := 8 } 0 []).handle 511).st == n &&
      freeB (.whwait 0 511 8) (handleState { en := true, st := n, landed := 8 } 0 [])) = true ∧
    ((handleState { en := true } 0 []).stack 0).cmds = [] := by decide +kernel

/-- StopsAndStarts: a stop request for a context that runs, a stop point that matches, and a bundle that has waited 9 × 5 cycles
under a watchdog limit of 5 microseconds. -/
theorem test_witness_stops :
    ((one 0 fun x => { x with stopReq := some 2 }).ctx 0).stopReq = some 2 ∧ ((one 0 fun x => { x with stopReq := some 2 }).ctx 0).run ≠ .halted ∧
    (one 0 id).partOf (coreOf 0) = 0 ∧
    (((one 0 id).onPart 0 fun q => { q with stopctl := 0xC000000000000000 }).part 0).stopctl.getLsbD 63 = true ∧
    (((one 0 id).onPart 0 fun q => { q with stopctl := 0xC000000000000000 }).part 0).stopctl.getLsbD 62 = true ∧
    (((one 0 id).onPart 0 fun q => { q with stopctl := 0xC000000000000000 }).part 0).stoppc = ((one 0 id).ctx 0).pc ∧
    ((one 0 fun x => { x with heldAt := some 0 }).ctx 0).heldAt = some 0 ∧
    (((one 0 id).onPart 0 fun q => { q with wdlimit := 5 }).part 0).wdlimit ≠ 0 ∧ 9 * 5 ≤ 5 * (9 - 0) := by decide +kernel

/-- A FULL save area of no plan for context 4 at 0x100000, which starts with `w0`, with `priv` in its status word and
`vcount` in its allotment. -/
def areaLines (w0 priv vcount : Nat) : Tbl Line :=
  (List.range 128).map fun i => (0x4000 + i,
    { data := if i = 0 then w0 + 4 * 2 ^ 64 + 2 * 2 ^ 128 else if i = 8 then priv * 2 ^ 66 + vcount * 2 ^ 128 else 0
      coat := 0, owner := 0, way := 0 })
def areaState (w0 priv vcount : Nat) (r : Resume) : State :=
  owned { one 0 id with lines := areaLines w0 priv vcount, resumes := [r] }
def areaReq : Resume := { id := 9, target := some 4, sa := 0x100000, part := 0, priv := 1 }
def areaIs (s : State) (f : List Word → Bool) : Bool := match (s.readSave areaReq).1 with | some ws => f ws | none => false

/-- StopsAndStarts: a request that was stopped; an area with a bad header; a target that is not idle; a privilege that the
requester may not give; a bad allotment; one that has no room; and an area that starts its context. -/
theorem test_witness_resumes :
    ((areaState 1 0 0 { areaReq with stopped := true }).resumes.find? fun r => r.id == 9) = some { areaReq with stopped := true } ∧
    (areaState 0 0 0 areaReq).resumeTarget areaReq = some 4 ∧ (areaState 0 0 0 areaReq).resumeWaits areaReq = false ∧
    areaIs (areaState 0 0 0 areaReq) (fun ws => !saveHeaderOk ws) = true ∧
    areaIs (areaState (1 + 2 ^ 32) 0 16 areaReq) (fun ws => saveHeaderOk ws && saveForm ws == 1 && saveValuesOk ws 4 && savePlan ws == 0 &&
      (saveWord ws 0x208).toNat / 4 % 4 == 0) = true ∧
    (areaState (1 + 2 ^ 32) 0 0 areaReq).isIdle 4 = true ∧ (areaState (1 + 2 ^ 32) 0 16 areaReq).freeBase 1 16 = some 0 ∧
    (areaState (1 + 2 ^ 32) 0 0 areaReq).isIdle 0 = false ∧
    areaIs (areaState (1 + 2 ^ 32) 1 0 areaReq) (fun ws => (saveWord ws 0x208).toNat / 4 % 4 == 1) = true ∧
    areaIs (areaState (1 + 2 ^ 32) 0 3 areaReq) (fun ws => !saveValuesOk ws 4) = true ∧
    areaIs (areaState (1 + 2 ^ 32) 0 64 areaReq) (fun ws => saveValuesOk ws 4 && saveVcount ws == 64) = true ∧
    ((areaState (1 + 2 ^ 32) 0 64 areaReq).setCtx 5 { run := .free, vcount := 8 }).freeBase 1 64 = none := by decide +kernel


/-- Context 0 is BOOKED under the plan `b` of its face, and its bundle has waited since cycle 0. -/
def lateState (b : Booking) : State :=
  { (one 0 fun x => { x with run := .booked, bid := some 5, heldAt := some 0, lateAt := some 320 }).onFace 0 fun f => { f with bookings := [(5, b)] } with
    cycle := 320 }

/-- Overruns: the last core-issue tick of context 0 is over, and no slack is left, under PAD and under SLIP. -/
theorem test_witness_overruns :
    ((lateState (booking [])).ctx 0).run = .booked ∧ ((lateState (booking [])).ctx 0).bid = some 5 ∧
    Tbl.find ((lateState (booking [{ row := rowCore 0, first := 0, len := 10 }])).face (faceOf (coreOf 0))).bookings 5 =
      some (booking [{ row := rowCore 0, first := 0, len := 10 }]) ∧
    (booking [{ row := rowCore 0, first := 0, len := 10 }]).rows.all (fun u => u.first + u.len ≤ (lateState (booking [])).tick) = true ∧
    ((lateState (booking [])).ctx 0).slack = 0 ∧ ((lateState (booking [])).ctx 0).lateAt = some (lateState (booking [])).cycle ∧
    ((lateState (booking [])).ctx 0).late = [] ∧
    ((lateState (booking [])).pair 0).freeze = none ∧ (booking []).slip = false ∧
    Tbl.find ((lateState { booking [] with slip := true }).face 0).bookings 5 = some { booking [] with slip := true } := by decide +kernel

/-- SlipTests: a pair frozen for no tick and for two, whose plan may move and whose plan may not. -/
def frozenState (k : Nat) (l : List (Nat × Nat)) : State :=
  ({ (lateState (booking [{ row := 3, first := 0, len := 20 }])).onFace 0 fun f => { f with ctl := l } with cycle := 320 + 32 * k }).onPair 0
    fun p => { p with freeze := some { start := 320, c := 0, k := k } }
theorem test_witness_slip :
    (([0, 2] : List Nat).all fun k => ((frozenState k []).pair 0).freeze == some { start := 320, c := 0, k := k } &&
      (frozenState k []).cycle == 320 + 32 * k && ((frozenState k []).ctx 0).run == .booked && ((frozenState k []).ctx 0).bid == some 5 &&
      Tbl.find ((frozenState k []).face 0).bookings 5 == some (booking [{ row := 3, first := 0, len := 20 }]) &&
      ((frozenState k []).face 0).owner 3 20 == .free &&
      (pairRows 0).all fun r => (List.range (k + 1)).all fun i => [.free, .bid 5].contains (((frozenState k []).face 0).owner r (10 + i))) = true ∧
    ((frozenState 0 [(3, 20)]).face 0).owner 3 20 = .ctl := by decide +kernel

/-- Admission: a plan of one tick of the core's issue row, one that is no plan, and a request of each kind. -/
def plan1 : Plan :=
  { slack := 5, code := 1, policy := 0, count := 1, ratio := 0, total := 1, rsvd := 0, entries := [BitVec.ofNat 64 (2 ^ 32)] }
def askingState (r : CalReq) (z : Sleep) : State :=
  (one 7 fun x => { x with sleep := z }).onFace 0 fun f => { f with requests := [r] }
def firstStart (s : State) (q : Plan) (t : Nat) : Bool :=
  q.good && s.halfFree 0 && (Tbl.find (s.face 0).bookings 0).isNone && (s.face 0).admits (q.uses 0 t (s.lease 0)) q.ratio &&
    (List.range t).all fun u => u < s.tick + q.lead || !(s.face 0).admits (q.uses 0 u (s.lease 0)) q.ratio
theorem test_witness_admission :
    ((askingState (.book 0 (some plan1) 64) { book := some (7, 0) }).face 0).requests = [.book 0 (some plan1) 64] ∧
    (askingState (.book 0 (some plan1) 64) { book := some (7, 0) }).cx.sleep.book = some (7, 0) ∧ faceOf (coreOf 0) = 0 ∧
    firstStart (askingState (.book 0 (some plan1) 64) { book := some (7, 0) }) plan1 ((askingState (.book 0 none 64) { book := some (7, 0) }).tick + plan1.lead) = true ∧
    plan1.lead + plan1.total ≤ 8192 ∧ { plan1 with policy := 9 }.good = false ∧
    ((askingState (.calq 0 3 none) {}).face 0).requests = [.calq 0 3 none] ∧
    ((askingState (.wswap 0 9 false 0) { swap := some none }).face 0).requests = [.wswap 0 9 false 0] ∧
    (askingState (.wswap 0 9 false 0) { swap := some none }).cx.sleep.swap = some none ∧
    ((askingState (.wswap 0 9 false 0) { swap := some none }).face 0).owner 0x120 9 = .free ∧
    ((askingState (.wswap 0 64 false 0) { swap := some none }).face 0).owner 0x120 64 = .ctl ∧
    ((askingState (.release 0 5 3 true) {}).face 0).requests = [.release 0 5 3 true] ∧
    ((askingState (.slip 0 0) {}).face 0).requests = [.slip 0 0] := by decide +kernel

/-- TickEvents, RatioAndAllowance: a tick's first cycle with a plan that goes on, a plan that is due, a task's instance, a change of ratio that
waits and one that is due. -/
def tickState (b : Booking) : State :=
  { (one 0 id).onFace 0 fun f => { f with bookings := [(5, b)], dblref := 1, ratioReq := 1, ratioTick := [(0, 9)] } with cycle := 320 }
theorem test_witness_ticks :
    (tickState (booking [])).cycle % 32 = 0 ∧ ((tickState (booking [])).face 0).bookings.length = 1 ∧
    ((tickState (booking [{ row := 3, first := 0, len := 11 }])).tick < 0 + 11) ∧
    Tbl.find ((tickState { booking [] with started := false }).face 0).bookings 5 = some { booking [] with started := false } ∧
    32 * (booking []).start ≤ (tickState (booking [])).cycle ∧ (booking []).task = none ∧ (booking []).resume = none ∧
    ((taskState.findTask 0 4).map fun u => u.seq) = some 4 ∧
    ((tickState (booking [])).face 0).dblref.getLsbD 0 = true ∧
    ((tickState (booking [])).face 0).ratioReq.getLsbD 0 ≠ ((tickState (booking [])).face 0).ratio.getLsbD 0 ∧
    ((tickState (booking [])).face 0).ratioPend.getLsbD 0 = false ∧
    ((tickState (booking [])).tick + 2 ≤ 12 ∧ ((tickState (booking [])).face 0).owner 0x120 12 = .free ∧
      ((tickState (booking [])).face 0).owner 0x121 13 = .free) ∧
    Tbl.find ((tickState (booking [])).face 0).ratioTick 0 = some 9 ∧ 32 * (9 + 1) ≤ (tickState (booking [])).cycle := by decide +kernel

/-- ChunksStart: a copy of two blocks from one bank of the scratchpad to another, and one whose row is not FREE. -/
def scratchWords : List Word := [0x10000000, 0xFFFFFFFFFFE00000, 0x000A000000000000, 0x93]
def copyCmd : CopyCmd :=
  { id := 4, kind := .cpy, core := 0, ctx := 0, tag := 63, pc := 0, bid := none, part := 0, srcWin := scratchWords, dstWin := scratchWords
    group := [0x10000000, 0x10010000, 128, 128, 0x0000000100000080, 0, 0, 0] }
def engineState (c : CopyCmd) (l : List (Nat × Nat)) : State :=
  owned ({ one 0 id with engines := [(0, { queue := [c] })] }.onFace 0 fun f => { f with ctl := l })
def chunkIs (s : State) (f : CopyCmd → Chunk → Bool) : Bool := match s.chunkReady 0 with | some z => f z.1 z.2 | none => false
theorem test_witness_chunk :
    chunkIs (engineState copyCmd []) (fun c k => c == copyCmd && k.units == [0, 1] &&
      (engineState copyCmd []).chunkMay 0 c k && (engineState copyCmd []).chunkPortsFree 0 c k &&
      k.rows.all (fun x => (engineState copyCmd []).rowStop 0 c x.1 x.2 == none) &&
      match (engineState copyCmd []).readCopy c k.reads with
      | (.ok bs, u) => u.writeStop c (c.afterUnits k bs).2 == none
      | _ => false) = true ∧
    chunkIs (engineState copyCmd [(0x20, 0)]) (fun c k => c == copyCmd && !c.parked &&
      (engineState copyCmd [(0x20, 0)]).copyBid c == none && !(engineState copyCmd [(0x20, 0)]).chunkMay 0 c k) = true ∧
    ((engineState copyCmd []).engine 0).queue.all (fun z => z.out.isEmpty) = true ∧
    copyCmd.xop = 0 ∧ copyCmd.buf = [] ∧ iaRegion (copyCmd.ia true 0x10000000) = 0xA := by decide +kernel

/-- ChunksStart: a staging row of a size that the slice does not have stops the copy. -/
def stagedCmd : CopyCmd := { copyCmd with kind := .cpysl, dstWin := [0x10000000, 0xFFFFFFFFFFE00000, 0x0009000000000000, 0xB3] }
theorem test_witness_chunk_stop :
    chunkIs (engineState stagedCmd []) (fun c k => (engineState stagedCmd []).chunkMay 0 c k &&
      (engineState stagedCmd []).chunkPortsFree 0 c k &&
      k.rows.any fun x => ((engineState stagedCmd []).rowStop 0 c x.1 x.2).isSome) = true := by decide +kernel

/-- CopyWritesLand: a block waits for the scratchpad, and for each half of a weight bank. -/
def outWrite : OutWrite := { chunk := 0, due := 0, near := true, va := 0x10010000, len := 64, mask := 2 ^ 512 - 1, data := 5, coat := some 0 }
def outCmd (ia : Word) : CopyCmd := { copyCmd with out := [outWrite], dstWin := [0x10000000, 0xFFFFFFFFFFE00000, ia, 0x83] }
def outState (ia : Word) : State :=
  owned { one 0 id with engines := [(0, { queue := [outCmd ia], free := 1 })] }
theorem test_witness_out :
    (outState 0x000A000000000000).outMay 0 (outCmd 0x000A000000000000) outWrite = true ∧
    ((outState 0x000A000000000000).iaWrite ((outState 0x000A000000000000).copyReq (outCmd 0x000A000000000000) false)
      ((outCmd 0x000A000000000000).ia false outWrite.va) { mask := outWrite.mask, data := 5, coat := some 0 }).1 = none ∧
    ((outState 0x000B000000000000).iaWrite ((outState 0x000B000000000000).copyReq (outCmd 0x000B000000000000) false)
      ((outCmd 0x000B000000000000).ia false outWrite.va) { mask := outWrite.mask, data := 5, coat := some 0 }).1.isSome = true ∧
    ((outState 0).pair 0).active = false ∧ (outState 0x000B000000000000).cycle < ((outState 0x000B000000000000).engine 0).free ∧
    iaRegion ((outCmd 0x000B000001000000).ia false outWrite.va) = 0xB := by decide +kernel

/-- ExpandStreams: a stream of two blocks, of which one is stored. -/
theorem test_witness_stream :
    let h : BlockVal := { data := 2 + 8 * 2 ^ 64, coat := mkCoat 0 0x40 }
    let m : BlockVal := { data := 1, coat := mkCoat 0 0x41 }
    let y : BlockVal := { data := 77, coat := mkCoat 3 0x42 }
    coatCode h.coat = 0x40 ∧ [m].length = (h.data % 2 ^ 64 + 511) / 512 ∧ coatCode m.coat = 0x41 ∧ coatCode y.coat = 0x42 ∧
    [y].length = (List.range 2).countP (fun d => m.data.testBit d) := by decide +kernel

/-- CopyCompletes, Multicast: copies that are over with each status, and a multicast of 256 bytes in its tick, with its source and without. -/
def mcCmd (l : List (Nat × Coat)) : CopyCmd :=
  { copyCmd with kind := .cpymc, source := l, group := [0x10000000, 0x10010000, 0, 0, 0x0000000100000100, 0, 0x20001, 0] }
theorem test_witness_copies_end :
    (([{ copyCmd with finished := true }, { copyCmd with cancelled := true }, { copyCmd with finished := true, mismatch := true },
       { copyCmd with finished := true, poisoned := true }, { copyCmd with finished := true, stop := some 2 }] : List CopyCmd).all fun c =>
      ((engineState c []).engine 0).queue.find? (fun z => z.id == 4 && (engineState c []).copyOver z) == some c) = true ∧
    (([[], List.replicate 4 (1, 0)] : List (List (Nat × Coat))).all fun l =>
      ((engineState (mcCmd l) []).engine 0).queue.find? (fun z => z.id == 4 && z.kind == .cpymc) == some (mcCmd l)) = true ∧
    (mcCmd []).win false = some (windowOf 0x10000000 0xFFFFFFFFFFE00000 0x000A000000000000 0x93) ∧
    (mcCmd []).rowb = 256 ∧ 64 * (mcCmd (List.replicate 4 (1, 0))).source.length = 256 ∧
    { engineState (mcCmd (List.replicate 4 (1, 0))) [] with cycle := 64 }.landAllowed 0 (mcCmd []) 0x10000 = true ∧
    ((mcCmd []).g 6).toNat / 65536 = 2 ∧ 128 * (0 + 1) ≤ (mcCmd []).rowb ∧ 0x10000 + (mcCmd []).rowb ≤ 2 ^ 21 := by decide +kernel


/-- Handle 5 of domain 0 has the record `h`; the port holds `cmds`, its cards are `cards`, and a descriptor of one extent in the
weight bank of pair 0 lies at 0x1000. -/
def portState (h : Handle) (cmds : List HandleCmd) (cards : List Card) : State :=
  (owned { one 0 id with
    handles := [(5, h)]
    lines := (List.range 3).map fun i =>
      (0x40 + i, { data := if i = 0 then 2 ^ 32 + 2 ^ 96 + 64 * 2 ^ 256 else 0, coat := 0, owner := 0, way := 0 })
    flash := [(0, { cmds := cmds, cards := cards, map := [(7, 9)] })] })
def portCmd (k : Nat) : HandleCmd := { kind := k, c := 0, h := 5, part := 0, descIa := 0x1000, q := 1 }
def descRead (s : State) (f : State → List Word → Bool) : Bool :=
  match s.readBytes (engineReq 0 0) 0x1000 192 with | (.ok bs, u) => f u (wordsOf 24 bs) | _ => false

/-- HandleCommands: a fetch of a handle in each state, with a good descriptor, with one that asks for two planes, and over a range
that another handle holds; a drop with a card in progress and without; a WHSTAT. -/
theorem test_witness_handle_commands :
    (([0, 1, 2] : List Nat).all fun k => ((portState {} [portCmd k] []).stack 0).cmds == [portCmd k]) = true ∧
    (portCmd 0).h / 512 = 0 ∧ (portCmd 0).descIa / 2 ^ 48 % 8 = 0 ∧
    descRead (portState {} [portCmd 0] []) (fun u ws => u.descOk 0 1 (wordAt ws 1) ws && !u.rangeHeld 5 (wordAt ws 1) (descFoot ws) &&
      !u.descOk 0 2 (wordAt ws 1) ws) = true ∧
    { portState {} [] [] with handles := [(5, {}), (6, { st := 1, dest := 2 ^ 32, foot := 64 })] }.rangeHeld 5 (BitVec.ofNat 64 (2 ^ 32)) 64 = true ∧
    (([0, 1, 2, 3, 4] : List Nat).all fun n => ((portState { st := n } [portCmd 0] []).handle 5).st == n) = true := by decide +kernel

/-- The record of a handle whose next plane is one extent of 100 blocks at LBA 7, and a card of it. -/
def fetching (stages : Nat) : Handle :=
  { en := true, st := 1, req := 1, dest := BitVec.ofNat 64 (2 ^ 32), foot := 64
    words := [BitVec.ofNat 64 (2 ^ 32 + stages), 0, 0, 0, 64, 0, 0, 0, 7, 100] }
def cardOf (blocks : List (Nat × Coat)) (lba : Nat) (lands : Option Nat) : Card :=
  { (fetching 0).card 5 0 with lba := lba, blocks := blocks, lands := lands, halves := [(0, true)] }

/-- CardReading, PlanesLand: a card that may start and one that is not good; a codeword to read whose LBA is written, and one whose LBA is not;
a forwarded read; a card that lands in a shadow half, and one whose half has become active. -/
theorem test_witness_cards :
    (portState (fetching 0) [] []).cardReady 0 = some 5 ∧ ((fetching 0).card 5 0).good 0 = true ∧
    (portState (fetching 7) [] []).cardReady 0 = some 5 ∧ ((fetching 7).card 5 0).good 7 = false ∧
    (portState (fetching 0) [] [cardOf [] 7 none]).channelSource 0 = 3 ∧
    ((portState (fetching 0) [] [cardOf [] 7 none]).stack 0).reading = some (cardOf [] 7 none) ∧
    (portState { fetching 0 with prio := true } [] [cardOf [] 8 none]).channelSource 0 = 1 ∧
    Tbl.find ((portState (fetching 0) [] []).stack 0).map 7 = some 9 ∧ Tbl.find ((portState (fetching 0) [] []).stack 0).map 8 = none ∧
    ((portState {} [] []).onDom 0 fun x => { x with fwdQ := [.load 0 3] }).channelSource 0 = 2 ∧
    { portState (fetching 0) [] [cardOf [(1, 0)] 7 (some 0)] with cycle := 32 }.cardLands 0 = some (cardOf [(1, 0)] 7 (some 0)) ∧
    ((portState (fetching 0) [] []).pair 0).active ≠ true := by decide +kernel

/-- A flash stack with one data block, of which one LBA is mapped. -/
def layerState (j : Option FlashJob) (pe : Nat) : State :=
  { one 0 id with
    cycle := 168 * 3600 * 1800000000
    flash := [(0, { job := j, relocQ := [3], map := [(7, 3 * 4096)], blocks := [(3, { free := false, pe := pe })] })] }

/-- TranslationLayer: a block of the pool, each activity that may begin, and each that has nothing left. -/
theorem test_witness_layer :
    3 < ((layerState none 0).stack 0).pool ∧ (((layerState none 0).stack 0).block 3).bad = false ∧
    ((layerState none 0).stack 0).job = none ∧ ((layerState none 0).stack 0).relocQ = [3] ∧
    ((layerState none 0).stack 0).patrol ≠ 0 ∧ ((layerState none 0).stack 0).map ≠ [] ∧
    ((layerState none 0).stack 0).patrolled + ((layerState none 0).stack 0).patrol * 3600 * 1800000000 ≤ (layerState none 0).cycle ∧
    (([0, 1, 2, 3] : List Nat).all fun k =>
      ((layerState (some { kind := k, block := 3, left := [] }) 0).stack 0).job == some { kind := k, block := 3, left := [] }) = true := by
  decide +kernel

/-- TranslationLayer: with every block of the pool written, a collection may begin. -/
def fullStack : Flash := { blocks := (List.range 32768).map fun b => (b, { free := false }) }
theorem mem_fullStack (x : Nat × Block) (h : x ∈ fullStack.blocks) : x.1 < 32768 ∧ x.2 = { free := false } := by
  simp only [fullStack, List.mem_map, List.mem_range] at h
  obtain ⟨b, hb, rfl⟩ := h
  exact ⟨hb, rfl⟩
theorem fullStack_data : fullStack.dataBlocks ≠ [] := by
  have e : (0, ({ free := false } : Block)) ∈ fullStack.blocks := by
    unfold fullStack; simp only [List.mem_map, List.mem_range]; exact ⟨0, by omega, rfl⟩
  have h : (0 : Nat) ∈ fullStack.dataBlocks :=
    List.mem_map.2 ⟨(0, { free := false }), List.mem_filter.2 ⟨e, rfl⟩, rfl⟩
  exact List.ne_nil_of_mem h
theorem foldl_isSome {α β : Type} (g : Option α → β → Option α) (h : ∀ m b, (g m b).isSome = true) (l : List β) (m : Option α)
    (hl : l ≠ []) : (l.foldl g m).isSome = true := by
  induction l generalizing m with
  | nil => exact absurd rfl hl
  | cons x l ih =>
    cases l with
    | nil => exact h m x
    | cons y l => exact ih (g m x) (by simp)
theorem collects (f : Flash) (hj : f.job = none) (hf : f.freeCount < 64) (hd : f.dataBlocks ≠ []) : ∃ b, f.collectHead = some b := by
  refine Option.isSome_iff_exists.1 ?_
  unfold Flash.collectHead
  rw [if_neg (by simp [hj]; omega)]
  refine foldl_isSome _ (fun m b => ?_) _ _ hd
  cases m with
  | none => rfl
  | some c => dsimp only; split <;> rfl
theorem test_witness_collection : fullStack.job = none ∧ fullStack.freeCount < 64 ∧ ∃ b, fullStack.collectHead = some b := by
  have p : fullStack.pool = 32768 := rfl
  have e : fullStack.blocks.filter (fun e => decide (e.1 < fullStack.pool) && (!e.2.free || e.2.bad)) = fullStack.blocks := by
    refine List.filter_eq_self.2 fun x hx => ?_
    simp [mem_fullStack x hx, p]
  have l : fullStack.blocks.length = 32768 := by unfold fullStack; rw [List.length_map, List.length_range]
  have hf : fullStack.freeCount = 0 := by unfold Flash.freeCount; rw [e, l, p]
  exact ⟨rfl, by omega, collects _ rfl (by omega) fullStack_data⟩

/-- Page 0 of domain 0 has this entry, the ready queue is `r`, partition 0 has a quota of 1, and `f` changes the domain. -/
def pageState (st : Nat) (flags : Nat) (r : List Nat) (f : Domain → Domain) : State :=
  { one 0 id with
    mem := if 32 * st + flags = 0 then [] else [(hbmPlace 0 7, BitVec.ofNat 8 (32 * st + flags))]
    doms := [(0, f { ftlen := 1, ready := r })]
    parts := [(0, { fquota := 1, pfaces := 1, spill := true })] }
def pteOf (st flags : Nat) : Pte := { w0 := (32 * st + flags) * 2 ^ 56, w1 := 0 }
def moveOf (dem : Bool) : Move := { page := 0, frame := 0, demote := dem }

/-- PageMoves: a promotion with a frame and one that finds none, the ends of a promotion and a demotion, dead and alive, the
sweeper at a page in each state, and at a frame that no page has. -/
theorem test_witness_page_moves :
    (pageState 2 0 [5] fun x => { x with promoQ := [(0, true)] }).nextPromotion 0 = some (0, true) ∧
    (pageState 2 0 [] fun x => { x with promoQ := [(0, false)] }).nextPromotion 0 = some (0, false) ∧
    (pageState 2 0 [5] fun x => { x with promoQ := [(0, true)] }).inHbf 0 0 = some (pteOf 2 0) ∧
    ((pageState 2 0 [5] id).dom 0).ready = [5] ∧ (pteOf 2 0).w0 < 2 ^ 64 ∧
    ((pageState 4 0 [] fun x => { x with moves := [moveOf false] }).dom 0).moves.find? (fun m => !m.demote) = some (moveOf false) ∧
    (pageState 4 0 [] id).peekPte 0 0 0 = some (pteOf 4 0) ∧
    ((pageState 4 0 [] fun x => { x with moves := [moveOf true] }).dom 0).moves.find? (fun m => m.demote && m.page == 0) = some (moveOf true) ∧
    ((pageState 4 0 [] fun x => { x with moves := [{ moveOf true with dead := true }] }).dom 0).moves.find? (fun m => m.demote && m.page == 0) =
      some { moveOf true with dead := true } ∧
    ((pageState 1 0 [] id).dom 0).sweeps = true ∧
    (([(1, 0), (1, 4), (1, 16), (1, 2), (1, 8), (4, 0)] : List (Nat × Nat)).all fun (st, fl) =>
      (pageState st fl [] id).pageOf 0 0 == some 0 && (pageState st fl [] id).pteMem 0 0 == pteOf st fl) = true ∧
    (pageState 1 0 [] fun x => { x with hand := 1 }).pageOf 0 1 = none ∧
    { pageState 1 0 [] id with cycle := 0 }.gtc % 1000000 = 0 := by decide +kernel

/-- PageManagement: a command of domain 0 on page 0 in each state, and of partition 1 on a page of partition 0. -/
def commandState (st flags : Nat) (r : Nat) : State :=
  pageState st flags [] fun x => { x with pgBusy := true, pgarg0 := r * 2 ^ 48 }
theorem test_witness_page_commands :
    (([(0, 0), (1, 0), (1, 4), (2, 0), (4, 0)] : List (Nat × Nat)).all fun (st, fl) =>
      (commandState st fl 0).peekPte 0 0 0 == some (pteOf st fl) && (pteOf st fl).st 0 == st && (pteOf st fl).w0 < 2 ^ 64 &&
      ((commandState st fl 0).dom 0).pgBusy && 0 < (commandState st fl 0).ftLen 0 &&
      ((commandState st fl 0).dom 0).pgarg0 / 2 ^ 48 == 0) = true ∧
    (pteOf 1 0).owner = 0 ∧ (pteOf 1 0).owner ≠ 1 ∧ (commandState 0 0 0).quotaLeft 0 0 = true ∧ (commandState 0 0 0).quotaLeft 1 0 = false ∧
    (0 : Word).toNat / 2 ^ 20 % 2 ^ 40 % 16 = 0 ∧ (commandState 1 0 0).frameUsed 0 0 = true ∧ (commandState 0 0 0).frameUsed 0 0 = false ∧
    { commandState 0 0 8 with ft8len := 1, ft8base := 2 ^ 20 }.peekPte 0 8 0 = some { w0 := 0, w1 := 0 } ∧
    ((commandState 0 0 8).dom 0).pgarg0 / 2 ^ 48 = 8 := by decide +kernel


/-! ### Memory behind a window -/

/-- Reads and writes one after the other, as tests. -/
def readsB (q : Req) : State → List Nat → Bool
  | _, [] => true
  | s, ia :: l => match s.iaRead q ia with | (.ok _, u) => readsB q u l | _ => false
def writesB (q : Req) : State → List (Nat × BWrite) → Bool
  | _, [] => true
  | s, x :: l => match s.iaWrite q x.1 x.2 with | (none, u) => writesB q u l | _ => false

theorem reads_of (q : Req) (l : List Nat) (s : State) (h : readsB q s l = true) : ∃ bs u, ReadsTo q s l bs u := by
  induction l generalizing s with
  | nil => exact ⟨[], s, rfl, rfl⟩
  | cons ia l ih =>
    rcases e : s.iaRead q ia with ⟨_ | _, u⟩ <;> simp only [readsB, e] at h
    · obtain ⟨bs, v, k⟩ := ih u h
      exact ⟨_, v, _, u, bs, e, rfl, k⟩
    · simp at h

theorem writes_of (q : Req) (l : List (Nat × BWrite)) (s : State) (h : writesB q s l = true) : ∃ u, WritesTo q s l u := by
  induction l generalizing s with
  | nil => exact ⟨s, rfl⟩
  | cons x l ih =>
    rcases e : s.iaWrite q x.1 x.2 with ⟨_ | _, u⟩ <;> simp only [writesB, e] at h
    · obtain ⟨v, k⟩ := ih u h
      exact ⟨v, u, e, k⟩
    · simp at h

/-- Window 0 maps VA 0 up to IA 0 up with this kind, for reads and writes, and no line is held. -/
def bareWindow (k : Nat) (ia : Word) (kind : Word) (f : Ctx → Ctx) : State :=
  one k fun x => f { x with aw := [(1, 0xFFFF0000), (2, ia), (3, 0x83 ||| kind <<< 4)] }
def windowFor (ia kind : Word) : Window := windowOf 0 0xFFFF0000 ia (0x83 ||| kind <<< 4)

/-- Page 0 of region 0 is in memory, and no slice holds a line of it. -/
def paged (st : Nat) (s : State) : State :=
  { s with mem := [(hbmPlace 0 7, BitVec.ofNat 8 (32 * st))], doms := [(0, { ftlen := 1 })] }

/-- SharedWordsAnyLine, AtomicsAnyLine, BarriersAnyLine: a word of a page in memory, of one in flash, of one that the table does
not have, and one in staging. -/
theorem test_witness_any_line :
    (([(1, true), (2, true), (0, false)] : List (Nat × Bool)).all fun (st, ok) =>
      let s := paged st (bareWindow 4 0 0 (regs 2 3 0x1000 5))
      findWindow s.cx.windows 0x1000 == some (windowFor 0 0) && (windowFor 0 0).kind == 0 && freeB (.sld 0 1 2 3 0 0) s &&
      s.wordCausesAt (s.wordAcc 0x1000 3) .read scalarLoadKinds == [] && s.wordCausesAt (s.wordAcc 0x1000 3) .write scalarStoreKinds == [] &&
      s.normalCauses 0x1000 8 .both == [] && s.barrierCauses 0x1000 .both == [] &&
      (match (s.iaRead (s.winReq (some (windowFor 0 0))) 0x1000).1 with | .ok _ => true | _ => false) == ok) = true ∧
    (let s := bareWindow 4 0x0009000000000000 3 (regs 2 3 0x1000 5)
     findWindow s.cx.windows 0x1000 = some (windowFor 0x0009000000000000 3) ∧ (windowFor 0x0009000000000000 3).kind = 3 ∧
     (match (s.iaRead (s.winReq (some (windowFor 0x0009000000000000 3))) ((windowFor 0x0009000000000000 3).toIa 0x1000)).1 with
      | .ok _ => true | _ => false) = true) := by decide +kernel

/-- ConfigurationWords: a register that the context may read and its supervisor write, one that it may not read, and a place that
holds none; both halves of a register. -/
def configState (ia : Word) (priv : Nat) : State :=
  owned (bareWindow 4 (0x000F000000000000 + ia) 5 fun x => { regs 2 3 0x1004 5 x with priv := priv })
def configReg (ia : Word) : Option Reg := regOf ((windowFor (0x000F000000000000 + ia) 5).toIa 0x1000)
theorem test_witness_configuration :
    findWindow (configState 0x1000000 1).cx.windows 0x1004 = some (windowFor 0x000F000001000000 5) ∧
    (windowFor 0x000F000001000000 5).kind = 5 ∧ iaRegion ((windowFor 0x000F000001000000 5).toIa 0x1004) = 0xF ∧
    ((windowFor 0x000F000001000000 5).toIa 0x1004) % 8 = 4 ∧ configReg 0x1000000 = some (.slice 64 0) ∧
    configReg 0x1010000 = some (.slice 1088 0) ∧
    (configState 0x4000000 1).regReadable 1 0 (.pair 0 0) = true ∧
    (configState 0x4000000 1).regWriteCheck 1 0 (.pair 0 0x20) = .ok ∧ (Reg.pair 0 0x20).lowOnly = false ∧
    (configState 0x5000000 0).regReadable 0 0 (.engine 0 0) = false ∧
    (configState 0x5000000 0).regWriteCheck 0 0 (.engine 0 0) = .refuse ∧ configReg 0x20000000 = none ∧
    freeB (.sld 0 1 2 2 1 0) (configState 0x4000000 1) = true ∧ freeB (.sstr 0 1 2 3 0) (configState 0x4000000 1) = true ∧
    (configState 0x4000000 1).wordCausesAt ((configState 0x4000000 1).wordAcc 0x1004 2) .read scalarLoadKinds = [] ∧
    (configState 0x4000000 1).wordCausesAt ((configState 0x4000000 1).wordAcc 0x1004 2) .write scalarStoreKinds = [] := by decide +kernel

/-- SharedTiles: rows of a tile in a page in memory, read and written, and in one that the table does not have. -/
def tileState (st : Nat) : State := paged st (bareWindow 4 0 0 (regs 2 3 0x1000 256))
theorem test_witness_shared_tile :
    (∃ bs u, ReadsTo ((tileState 1).winReq (some (windowFor 0 0))) (tileState 1)
      (((tileState 1).tileAcc 2 3 1 false).vas.map fun va => (windowFor 0 0).toIa va / 64 * 64) bs u) ∧
    (∃ u, WritesTo ((tileState 1).winReq (some (windowFor 0 0))) (tileState 1) ((((tileState 1).tileAcc 2 3 1 false).q.storeWrites
      ((tileState 1).tileAcc 2 3 1 false).spans ((tileState 1).vreg 1)).map fun x => ((windowFor 0 0).toIa x.va / 64 * 64, x.w)) u) ∧
    (tileState 1).tileCauses ((tileState 1).tileAcc 2 3 1 false) .read loadKinds = [] ∧
    (tileState 1).tileCauses ((tileState 1).tileAcc 2 3 1 false) .write storeKinds = [] ∧
    freeB (.vld 0 1 2 1 3) (tileState 1) = true ∧ freeB (.vst 0 1 2 1 3) (tileState 1) = true ∧
    (match ((tileState 0).iaRead ((tileState 0).winReq (some (windowFor 0 0))) 0x1000).1 with | .fail c => c == 0x0A | _ => false) = true ∧
    ((tileState 0).tileAcc 2 3 1 false).vas.head? = some 0x1000 :=
  ⟨reads_of _ _ _ (by decide +kernel), writes_of _ _ _ (by decide +kernel), by decide +kernel, by decide +kernel, by decide +kernel,
    by decide +kernel, by decide +kernel, by decide +kernel⟩

/-- KindTraps: windows of the kinds that do not permit the access; nothing else is wrong with it. -/
theorem test_witness_kind_traps :
    (([2, 4, 5] : List Nat).all fun n =>
      let s := { bareWindow 4 0x000B000000000000 (BitVec.ofNat 64 n) (regs 2 3 0x1000 256) with cycle := 32 }
      (findWindow s.cx.windows 0x1000 == some (windowFor 0x000B000000000000 (BitVec.ofNat 64 n))) &&
      (windowFor 0x000B000000000000 (BitVec.ofNat 64 n)).kind == n && !s.portWait (s.tileAcc 2 3 1 false).ports &&
      (s.tileCauses (s.tileAcc 2 3 1 false) .write storeKinds).all (fun c => c.code == 0x09) &&
      (n == 2 || (s.tileCauses (s.tileAcc 2 3 1 false) .read loadKinds).all fun c => c.code == 0x09) &&
      (n == 5 || (s.wordCausesAt (s.wordAcc 0x1000 3) .write scalarStoreKinds).all fun c => c.code == 0x09) &&
      (n != 4 || (s.wordCausesAt (s.wordAcc 0x1000 3) .read scalarLoadKinds).all fun c => c.code == 0x09) &&
      freeB (.vst 0 1 2 1 3) s && freeB (.vld 0 1 2 1 3) s && freeB (.sst 0 1 2 3 0) s && freeB (.slda 0 1 2 3 0) s) = true := by
  decide +kernel

/-- ResultsReturn: a result that the save area of a stopped context awaits, while its stop lasts and after it, and one that a
freeze holds. -/
theorem test_witness_saved_results :
    (([.halted, .stopping] : List RunState).all fun r =>
      let s := one 4 fun x => { x with run := r, pending := [{ id := 7, slot := 4, dest := .scalar 3, reissue := false, saveIa := some 0x908 }] }
      ((s.ctx 0).pending.find? fun q => q.id == 7 && !q.flash).isSome && (s.ctx 0).run == r) = true ∧
    ((one 4 id).onPair 0 fun p => { p with freeze := some { start := 0, c := 0, k := 0 } }).frozen 0 = true := by decide +kernel

/-- MonitorsAndSleep: a limit that has passed and one that has not; a MARK that nothing holds, and one that a load holds. -/
theorem test_witness_mark :
    (let s := { one 4 fun x => { x with monitor := .armed 5 } with cycle := 9 }
     s.cx.monitor = .armed 5 ∧ (0 : Word).toNat ≤ s.gtc ∧ cycleOfNs 0 < s.cycle ∧ ¬ (1000 : Word).toNat ≤ s.gtc) ∧
    (one 4 id).cx.pending = [] ∧ (one 4 id).doms = [] ∧ (one 4 id).ico.landing = [] ∧
    (let s := { one 4 fun x => { x with pending := [{ id := 7, slot := 4, dest := .scalar 3, reissue := false }] } with cycle := 9 }
     s.cx.pending.any (fun z => z.saveIa == none && z.slot == 4 && decide (z.issued < s.cycle)) = true ∧
     Instr.wf (.mark 0 6) = true ∧ liveB (.mark 0 6) s = true) := by decide +kernel


/-- ContextRequests: a context whose stop goes on. -/
theorem test_witness_stopping : (((supState 4).setCtx 4 { run := .stopping }).ctx 4).run = .stopping ∧
    findWindow (askState id).cx.windows 0x1000 = some normalWindow ∧ (askState id).resumeCauses 0x1000 = [] := by decide +kernel

/-- RequestWords: a plan and a TCB that memory refuses. -/
def unpaged (n : Nat) : State := bareWindow n 0 0 fun x => { regs 2 3 0x1000 5 x with priv := 1 }
theorem test_witness_plan_fault :
    (match ((unpaged 7).readVaPlan 0x1000).1 with | .fault _ _ => true | _ => false) = true ∧
    (unpaged 7).readCauses 0x1000 16 16 = [] ∧ freeB (.calq 0 2 3) (unpaged 7) = true ∧ freeB (.book 0 2 3) (unpaged 7) = true := by
  decide +kernel

/-- ProgressRecord: a macro-op that goes on, whose step in progress does not count, one that is held, and none. -/
def rowOp : MxOp := { someOp with op := 1, seg := 2, group := [0, 64, 0, 0, 64, 0, 1, 0] }
theorem test_witness_progress :
    (one 5 id).iss.ctx < 4 ∧
    (([none, some 9] : List (Option Nat)).all fun b =>
      ((queueState [{ rowOp with busy := b }] id).pair 0).queue 0 == [{ rowOp with busy := b }] && rowOp.op != 4 && decide (1 ≤ rowOp.seg)) = true ∧
    (queueState [{ rowOp with busy := some 9 }] id).cycle < 9 ∧
    (queueState [] fun x => { x with held := [rowOp] }).cx.held.head? = some rowOp ∧
    ((queueState [] id).pair 0).queue 0 = [] ∧ ((queueState [] id).pair 0).queue 1 = [] ∧ (queueState [] id).cx.held = [] := by
  decide +kernel

/-- Macro-ops of each kind, whose groups are in order. -/
def mmaOp (kind : Nat) : MxOp := { someOp with
  op := 1, kind := kind, group := [0x10000000, 64, 0x10010000, 0x4000, if kind = 2 then 32 else 64, if kind = 0 then 0x08000008 else 0, 1, 0] }

/-- StepLengths, OperandsAreRead and ComputeAddsPartials: macro-ops of each kind. -/
theorem test_witness_operands :
    (([0, 1, 2] : List Nat).all fun k => (mmaOp k).groupOk && (mmaOp k).op == 1 && (mmaOp k).kind == k) = true ∧
    ({ someOp with op := 2, group := [0x10000000, 64, 0x10010000, 0x4000, 64, 0x08000804, 1, 0] } : MxOp).groupOk = true ∧
    ({ someOp with op := 3, group := [0x10000000, 64, 0x10010000, 0x4000, 64, 0x08000002, 1, 0] } : MxOp).groupOk = true ∧
    ({ someOp with op := 5, group := [0x10000000, 1024, 1, 0, 0, 0, 16, 0] } : MxOp).groupOk = true ∧
    ({ someOp with op := 6, group := [0x10000000, 1024, 1, 0, 0, 0, 128, 0] } : MxOp).groupOk = true ∧ someOp.groupOk = true ∧
    -- a poisoned block, a zero block, and a block of each code
    coatPoison 0x00FF = true ∧ coatZero (mkCoat (-128) 8) = true ∧ coatPoison (mkCoat (-128) 8) = false ∧
    (([2, 4, 5, 8, 9] : List Nat).all fun c => !coatPoison (mkCoat 3 c) && !coatZero (mkCoat 3 c) && coatCode (mkCoat 3 c) == c) = true ∧
    -- planes of which the first has the code of a first plane, and planes that are zero blocks
    coatCode (mkCoat 0 0x18) = 0x18 ∧ coatZero (((one 5 id).blockAt 0).coat) = true := by decide +kernel

/-- StepOfTheSequencer: a drain that starts with a bias of its own, and one without. -/
def drainOp (b : Word) : MxOp := { someOp with op := 6, group := [0x10000000, 1024, 1, b, 0, 0, 128, 0] }
theorem test_witness_drain : (drainOp 0).biasIa = 0 ∧ (drainOp 0).bias = [] ∧ (drainOp 0).op = 6 ∧ (drainOp 0).done = 0 ∧
    (stepState (drainOp 0)).drainPoison (drainOp 0) = none ∧ (stepState (drainOp 0)).chosen 0 0 = some (drainOp 0, none) := by
  decide +kernel

/-- WeightSwapHappens: a swap in its tick, and one in the next. -/
theorem test_witness_swap_done :
    (([(false, 0), (true, 32)] : List (Bool × Nat)).all fun (d, c) =>
      let z : Swap := { tick := 0, core := 0, flagEn := true, flag := 2, done := d }
      let s := { (one 5 id).onPair 0 (fun p => { p with swap := some z }) with cycle := c }
      (s.pair 0).swap == some z && (if d then decide (z.tick < s.tick) else decide (z.tick ≤ s.tick))) = true := by decide +kernel


/-- StopsOfContexts: a stop whose area is still to be written; a watchdog in a cycle in which GTC advances. -/
def stopState : State := one 0 fun x => { x with run := .stopping, stopping := some { due := 0, area := [(0x100000, [1])], msgs := [] } }
theorem test_witness_stop_ends :
    (stopState.ctx 0).stopping = some { due := 0, area := [(0x100000, [1])], msgs := [] } ∧ (stopState.pair 0).queues = [] ∧
    (one 0 id).plat.preempts = [] ∧ ((one 0 id).ctx 0).stopReq = none ∧
    (let s := { one 0 (fun x => { x with heldAt := some 0 }) with cycle := 18 }
     s.cycle ≠ 0 ∧ s.gtc ≠ (s.cycle - 1) * 5 / 9 ∧ 9 * 10 ≤ 5 * (s.cycle - 0)) := by decide +kernel

/-- StopWrites: a FREE context and a BOOKED one, with a result in flight. -/
def stoppable (r : RunState) : State :=
  (one 0 fun x => { x with run := r, bid := if r = .booked then some 5 else none, stopReq := some 2,
                           inflight := [{ due := 3, w := .scalar 1 7, issued := 0, slot := 0 }] }).onFace 0 fun f =>
    { f with bookings := [(5, booking [{ row := 0, first := 0, len := 9 }])] }
theorem test_witness_stop_writes :
    (([.free, .booked] : List RunState).all fun r =>
      ((stoppable r).ctx 0).run == r && ((stoppable r).ctx 0).stopReq == some 2 && ((stoppable r).ctx 0).stopping.isNone &&
      ((stoppable r).ctx 0).sleep == .awake && ((stoppable r).ctx 0).undo.isEmpty && ((stoppable r).pair 0).queues.isEmpty &&
      decide (((stoppable r).ctx 0).inflight.length + 2 * ((stoppable r).ctx 0).pending.length ≤ 128) &&
      decide (((stoppable r).ctx 0).held.length ≤ 9)) = true ∧ max 2 2 ≠ 1 ∧ faceOf (coreOf 0) < 32 ∧
    (stoppable .booked).bookingOf 0 = some (booking [{ row := 0, first := 0, len := 9 }]) := by
  decide +kernel

/-- A save area that names the plan at 0x200000, of one tick whose class is `cls`. -/
def planArea (cls total : Nat) : State :=
  owned { one 0 id with
    lines := ((areaLines (1 + 2 ^ 32) 0 16).map fun l => if l.1 = 0x4020 then (l.1, { l.2 with data := 0x200000 }) else l) ++
      [(0x8000, { data := 1 + 2 ^ 16 + total * 2 ^ 64 + (2 ^ 32 + cls * 2 ^ 13) * 2 ^ 128 + (if total = 1 then 0 else 2 ^ 32 * 2 ^ 192)
                  coat := 0, owner := 0, way := 0 })]
    resumes := [areaReq] }
def planIs (s : State) (f : State → Plan → Bool) : Bool :=
  match s.readSave areaReq with
  | (some ws, u) => match u.readPlan (saveReq areaReq) (savePlan ws) with | (some p, y) => f y p | _ => false
  | _ => false
def areaFits (s : State) (f : List Word → Bool) : Bool := match (s.readSave areaReq).1 with | some ws => f ws | none => false

/-- ResumeStarts: an area whose plan is readmitted, one whose plan is read and is not good, and a START area. -/
theorem test_witness_plans :
    planIs (planArea 0 1) (fun y p => p.good && (y.face 0).freeBid == some 0 && y.halfFree 1 &&
      y.findStart (p.remainder 0 0) 0 [1] == some (3, 1) && (p.remainder 0 0).entries.any fun e => entClass e == 0) = true ∧
    areaFits (planArea 0 1) (fun ws => saveHeaderOk ws && saveForm ws == 1 && saveValuesOk ws 4 && savePlan ws == 0x200000 &&
      saveOffset ws == 0 && (saveWord ws 0x810).toNat % 2 ^ 32 == 0) = true ∧
    (planArea 0 1).resumeWaits areaReq = false ∧ (planArea 0 1).isIdle 4 = true ∧ (planArea 0 1).freeBase 1 16 = some 0 ∧
    planIs (planArea 1 1) (fun _ p => !p.good) = true ∧
    (let s := areaState (2 + 2 ^ 32) 0 16 areaReq
     areaFits s (fun ws => saveHeaderOk ws && saveForm ws == 2 && saveValuesOk ws 4) = true ∧ s.isIdle 4 = true ∧
     s.freeBase 1 16 = some 0) := by decide +kernel

/-- ResumeStarts: a request that was stopped while its booking waits. -/
theorem test_witness_resume_booked :
    (let s := (areaState (1 + 2 ^ 32) 0 16 { areaReq with stopped := true }).onFace 0 fun f =>
      { f with bookings := [(5, { booking [] with started := false, resume := some 9 })] }
     s.resumeTarget { areaReq with stopped := true } = some 4 ∧
     (s.face 0).bookings.find? (fun b => b.2.resume == some 9) = some (5, { booking [] with started := false, resume := some 9 }) ∧
     s.resumes.find? (fun r => r.id == 9) = some { areaReq with stopped := true }) := by decide +kernel

/-- TickEvents: a readmitted remainder whose start tick has come. -/
theorem test_witness_readmitted :
    (let s := (planArea 0 1).onFace 0 fun f =>
      { f with bookings := [(5, { booking [] with started := false, resume := some 9 })] }
     (Tbl.find (s.face 0).bookings 5).any (fun b => !b.started && b.resume == some 9 && b.task.isNone && b.ctx == some 0) = true ∧
     s.resumes.find? (fun r => r.id == 9) = some areaReq ∧ areaFits s (fun _ => true) = true) := by decide +kernel


/-! ### Blocks, slices and pages -/

/-- `EntryIs` of an entry in the table, as a test. -/
def entryB (s : State) (d r idx : Nat) (e : Pte) : Bool :=
  decide (idx < s.ftLen r) && (Tbl.find (s.dom d).tcache (2 ^ 32 * r + idx)).isNone &&
    e == { w0 := bytesAt s (s.ptePlace r idx) 8, w1 := bytesAt s (s.ptePlace r idx + 8) 8 }

theorem entry_of (s : State) (d r idx : Nat) (e : Pte) (h : entryB s d r idx e = true) : EntryIs s d r idx e := by
  simp only [entryB, Bool.and_eq_true, decide_eq_true_eq, Option.isNone_iff_eq_none, beq_iff_eq] at h
  exact ⟨h.1.1, .inr ⟨h.1.2, h.2⟩⟩

/-- Partition 0 asks; page 0 of region 0 has this state, LBA 0 is in codeword 9. -/
def blockReq (alloc : Bool) : Req := { dom := 0, part := 0, alloc := alloc }
def blockState (st : Nat) (m : List Move) (l : Tbl Line) : State :=
  { paged st (one 0 id) with lines := l, doms := [(0, { ftlen := 1, moves := m })], flash := [(0, { map := [(0, 9)] })] }
def heldBy (p : Nat) : Tbl Line := [(0x40, { data := 5, coat := 0, owner := p, way := 0 })]

/-- BlocksAreRead, BlocksAreWritten: an entry in each state, moves both ways, a line of the own and of another partition, a page that
no entry has, and a block of each region above. -/
theorem test_witness_blocks :
    (([0, 1, 2, 4] : List Nat).all fun st => entryB (blockState st [] []) 0 0 0 (pteOf st 0) && (pteOf st 0).st 0 == st &&
      (pteOf st 0).owner == (blockReq true).part && decide ((pteOf st 0).w0 < 2 ^ 64) &&
      (Tbl.find (blockState st [] []).lines 0x40).isNone && (blockReq true).frameOf 0x1000 == none &&
      (blockState st [] []).homeDom (blockReq true) 0x1000 == 0 && !((blockState st [] []).fillWays 0 (homeOf 0 0x1000) 0x1000).1.isEmpty) = true ∧
    (([true, false] : List Bool).all fun d =>
      ((blockState 4 [moveOf d] []).dom 0).moves.find? (fun m => m.page == 0 && !m.dead) == some (moveOf d)) = true ∧
    Tbl.find ((blockState 2 [] []).stack 0).map ((pteOf 2 0).lba + 0x1000 / 4096 - 1) = some 9 ∧
    Tbl.find ((blockState 2 [] []).stack 0).map ((pteOf 2 0).lba + 0x1000 / 4096) = none ∧
    (([0, 1] : List Nat).all fun p => (Tbl.find (blockState 1 [] (heldBy p)).lines 0x40).any fun l => l.owner == p) = true ∧
    (blockState 1 [] []).ftLen 0 ≤ 0x10000 / 65536 ∧ ({ blockReq true with part := 1 } : Req).part ≠ (pteOf 1 0).owner ∧
    (([9, 0xA, 0xB, 0xC, 0xF] : List Nat).all fun r => iaRegion (r * 2 ^ 48 + 0x40) == r) = true ∧
    ((one 0 id).pair 0).active = false ∧ 0x0B * 2 ^ 48 / 2 ^ 24 % 2 = 0 ∧ (0x0B * 2 ^ 48 + 2 ^ 24) / 2 ^ 24 % 2 = 1 := by decide +kernel

theorem test_witness_entries : EntryIs (blockState 1 [] []) 0 0 0 (pteOf 1 0) ∧ EntryIs (blockState 2 [] []) 0 0 0 (pteOf 2 0) :=
  ⟨entry_of _ _ _ _ _ (by decide +kernel), entry_of _ _ _ _ _ (by decide +kernel)⟩

/-- BlocksAreRead, BlocksAreWritten: a replicated page, held by no slice. -/
def replicaPte : Pte := { w0 := 3 * 2 ^ 61 + 5, w1 := 2 ^ 40 * 3 }
def replicaState : State :=
  { one 0 id with
    ft8len := 1, ft8base := 2 ^ 20
    mem := (leBytes 8 replicaPte.w0 ++ leBytes 8 replicaPte.w1).zipIdx.filterMap fun b =>
      if b.1 = 0 then none else some ((one 0 id).ptePlace 8 0 + 2 ^ 20 + b.2, b.1) }
theorem test_witness_replica_place : (one 0 id).ptePlace 8 0 + 2 ^ 20 = replicaState.ptePlace 8 0 := by decide +kernel
theorem test_witness_replicated : EntryIs replicaState 0 8 0 replicaPte ∧ replicaPte.st 8 = 3 ∧ replicaPte.owner = 0 ∧ replicaPte.w0 < 2 ^ 64 :=
  ⟨entry_of _ _ _ _ _ (by decide +kernel), by decide +kernel⟩

/-- PageCommands: an entry in flash that may be promoted, one in memory that may be demoted, and a page that its partition pinned. -/
theorem test_witness_page_flags :
    ((commandState 2 0 0).dom 0).promoQ.length < 64 ∧ (pteOf 1 0).pin = false ∧ (pteOf 1 0).anon = false ∧ (pteOf 1 4).pin = true ∧
    (commandState 1 0 0).pteMem 0 0 = pteOf 1 0 ∧ (pteOf 4 0).st 0 = 4 ∧ (commandState 1 0 0).frameUsed 0 0 = true := by decide +kernel

/-- ReplicatePages: a page of region 0x8 whose primary is not among its replicas, and one whose frame is in use. -/
def replicating (a : Word) : State :=
  { commandState 1 0 8 with ft8len := 1, ft8base := 2 ^ 20 }.onDom 0 fun x => { x with pgarg1 := a }
theorem test_witness_replicate :
    (replicating 0).peekPte 0 8 0 = some { w0 := 0, w1 := 0 } ∧ ({ w0 := 0, w1 := 0 } : Pte).st 8 = 0 ∧ 0 < (replicating 0).ft8len ∧
    ((replicating 0).dom 0).pgBusy = true ∧ ((replicating 0).dom 0).pgarg0 / 2 ^ 48 = 8 ∧
    ((replicating 0).dom 0).pgarg0 / 65536 % 2 ^ 32 = 0 ∧ (0 : Nat).testBit 0 = false ∧
    (1 : Nat).testBit 0 = true ∧ (replicating (BitVec.ofNat 64 (2 ^ 20))).frameUsed 0 0 = true := by decide +kernel

/-- A frame in use is not free; one that no page has is free where the chip does not keep it for itself (`Config.mapFrame`). -/
theorem taken (s : State) (d f : Nat) (h : s.frameUsed d f = true) : s.frameFree d f = false := by simp [State.frameFree, h]
theorem test_witness_free_frame (h : Config.mapFrame 0 5 = false) : (commandState 0 0 0).frameFree 0 5 = true := by
  have a : ((List.range 9).any fun r => (commandState 0 0 0).tableFrame 0 r 5) = false := by decide +kernel
  have b : (commandState 0 0 0).frameUsed 0 5 = false := by decide +kernel
  simp [State.frameFree, State.frameReserved, h, a, b]

/-- SlicesChange: L2CMD over one dirty line, whose page is in memory, in flash, and has no entry. -/
def l2State (op st : Nat) : State :=
  (blockState st [] [(0x40, { data := 5, coat := 0, owner := 0, way := 0, dirty := true })]).onDom 0 fun x =>
    { x with l2Op := op, l2hi := 0xFFFF }
theorem test_witness_l2 :
    (([1, 2, 3] : List Nat).all fun op => ([0, 1, 2] : List Nat).all fun st =>
      ((l2State op st).dom 0).l2Op == op && (Tbl.find (l2State op st).lines 0x40).any (fun ln => ln.dirty && (l2State op st).l2Covers 0 0 0x40 ln) &&
      entryB (l2State op st) 0 0 (0x40 / 1024) (pteOf st 0) && ((l2State op st).dom 0).heldW.isEmpty && (l2State op st).lines.length == 1) = true := by
  decide +kernel

/-- SlicesChange: a size that is refused, one that is the same, and changes both ways that wait; a size on its way. -/
def sizing (w : Option Nat) (sent : Bool) : State :=
  (one 0 id).onSlice 0 fun x => { x with wNew := w, sent := sent }
theorem test_witness_sizes :
    ((sizing (some 3) false).slice 0).wNew ≠ none ∧ 16 < (17 : Word).toNat % 32 ∧ ((sizing none false).slice 0).wNew = none ∧
    ((one 0 id).slice 0).w = 16 ∧ ((sizing (some 15) false).slice 0).wNew = some 15 ∧ ((sizing (some 15) true).slice 0).sent = true ∧
    (([0, 511, 512, 639] : List Nat).all fun u =>
      { one 0 id with sizes := [{ due := 0, unit := u, slice := 0, size := 65536 }] }.sizes ==
        [{ due := 0, unit := u, slice := 0, size := 65536 }]) = true ∧
    (Tbl.find (l2State 1 1).lines 0x40).isSome = true ∧
    (((one 0 id).onCore 511 fun k => { k with landing := [(31, { st := .landed })] }).landing 511 31).st = .landed := by decide +kernel

/-- CardReading: forwarded reads of a fetch and of a timed load. -/
theorem test_witness_forwarded :
    (([.read 2, .landing 0 31, .load 0 3] : List Forward).all fun q =>
      ((portState {} [] []).onDom 0 fun x => { x with fwdQ := [q] }).channelSource 0 == 2) = true := by decide +kernel


/-! ### Tasks, partitions and registers -/

/-- Queue 0 of partition 0 in domain 0 with these tasks, in a cycle with a dispatch step; every core of face 0 may run them. -/
def tcbOf (act : Nat) : List Word := [0x1000, 0, 0, 0xFFFF, 0x0001000100010001, 0, 0, 0, 0, 0, 0, 0, 0, 0, BitVec.ofNat 64 act, 0]
def task (seq : Nat) (plan : Option Plan) : Task := { seq := seq, part := 0, queue := 0, slot := seq, tcb := tcbOf 0, plan := plan, va := 7 }
def queued (tickets : Nat) (us : List Task) : State :=
  owned { one 0 id with cycle := 15, disps := [(0, { tasks := us })], queues := [(0, { en := true, tickets := tickets })] }

/-- The clauses of a draw: the step is due, queue 0 has `u` as its earliest task, and core 1 is its first candidate. -/
def drawnB (tickets : Nat) (u : Task) (us : List Task) : Bool :=
  let s := queued tickets us
  decide (s.cycle * 5 / 9 / 8 ≠ (s.cycle - 1) * 5 / 9 / 8) && s.eligible 0 == [0] && s.queueTasks 0 == us && us.contains u &&
    s.dispatchable u && !u.blocked && (s.candidates 0 u).head? == some 1 && (s.freeCtx 1).isSome && (s.freeBase 1 16) == some 0 &&
    s.owns 0 (faceOf 0) && (s.queue 0).dom == 0

/-- DispatchSteps: a draw among two tasks of equal deadlines, in queues with tickets and without; a cycle that has no step; no
eligible queue. -/
theorem test_witness_dispatch :
    drawnB 3 (task 4 none) [task 4 none, task 5 none] = true ∧ drawnB 0 (task 4 none) [task 4 none] = true ∧
    drawnB 3 (task 4 (some plan1)) [task 4 (some plan1)] = true ∧
    (one 0 id).cycle = 0 ∧ (queued 3 []).eligible 0 = [] ∧
    ¬ 2 ^ 47 ≤ ((wordAt (task 4 none).tcb 2).toNat % 2 ^ 48 + 2 ^ 48 - (wordAt (task 5 none).tcb 2).toNat % 2 ^ 48) % 2 ^ 48 := by
  decide +kernel

/-- DispatchSteps: a planned task has its earliest start, and its request is at the head of the controller's queue. -/
theorem test_witness_planned :
    (let s := queued 3 [task 4 (some plan1)]
     ((s.face 0).freeBid == some 0 && (s.face 0).admits (plan1.uses 1 (s.tick + plan1.lead) (s.lease 1)) plan1.ratio &&
       s.halfFree 1) = true) ∧
    (let s := (queued 3 [task 4 (some plan1)]).onFace 0 fun f => { f with requests := [.task 0 4 0 4 0 16 3] }
     (s.face 0).requests = [.task 0 4 0 4 0 16 3] ∧ faceOf (coreOf 4) = 0 ∧ (s.findTask 0 4) = some (task 4 (some plan1)) ∧
     s.tick + plan1.lead ≤ 3) := by decide +kernel

/-- TaskEnds: a task that is over with each DONEACT, and one that is not. -/
def ending (act ended : Nat) (r : List (Nat × Nat)) : State :=
  queued 3 [{ task 4 none with tcb := tcbOf act, ended := ended, renamed := r }]
theorem test_witness_task_ends :
    (([0, 1, 2, 3, 4] : List Nat).all fun a => ((ending a 1 []).findTask 0 4).any fun u => u.seq == 4 && !u.complete &&
      decide (u.total ≤ u.ended) && !(ending a 1 []).taskBusy 0 4 && (wordAt u.tcb 14).toNat % 8 == a) = true ∧
    (((ending 0 0 []).findTask 0 4).any fun u => decide (u.ended < u.total)) = true ∧
    (((ending 0 1 [(0, 5)]).findTask 0 4).any fun u => u.renamed == [(0, 5)]) = true ∧
    ((ending 3 1 []).onQueue 0 (fun q => { q with en := false })).findTask 0 4 = (ending 3 1 []).findTask 0 4 := by decide +kernel

/-- VersionsCommit: a version of page 0 that may commit, and one whose task goes on. -/
def committing (complete : Bool) : State :=
  { blockState 1 [] [] with
    disps := [(0, { tasks := [{ task 4 none with renamed := [(0, 5)], complete := complete }] })]
    doms := [(0, { ftlen := 1, versions := [(0, 5, 4)] })] }
theorem test_witness_versions :
    (([true, false] : List Bool).all fun c => ((committing c).findTask 0 4).any fun u => u.renamed == [(0, 5)] && u.complete == c) = true ∧
    ((committing true).dom 0).versions.find? (fun v => v.1 == 0) = some (0, 5, 4) ∧ (committing true).peekPte 0 0 0 = some (pteOf 1 0) ∧
    (pteOf 1 0).st 0 = 1 ∧ ((committing true).disp 0).tasks.takeWhile (fun v => v.seq != 4) = [] := by decide +kernel

/-- QueueRegisters: a queue with a slot in use and without; heads that a ring of 16 takes and does not. -/
theorem test_witness_queue_registers :
    (queued 3 [task 4 none]).queueTasks 0 ≠ [] ∧ (queued 3 []).queueTasks 0 = [] ∧
    ((0 : BitVec 32).toNat + 2 ^ 32 - (0 : Word).toNat % 2 ^ 32) % 2 ^ 32 ≤ 2 ^ 4 ∧
    ¬ ((0 : BitVec 32).toNat + 2 ^ 32 - (1 : Word).toNat % 2 ^ 32) % 2 ^ 32 ≤ 2 ^ 4 := by decide +kernel

/-- RingsFill: a cycle that ends a nanosecond, with a record or a message in the outbox, for a ring that has room, one that is off and
one that is full; two posts in either order. -/
def record8 : List Word := [1, 2, 3, 4, 5, 6, 7, 8]
def posting (en : Bool) (tail : BitVec 32) (l : List (Nat × Post)) : State :=
  { one 0 id with cycle := 1, todo := [], outbox := l }.onPart 0 fun p =>
    { p with sqEn := en, sqLsize := 4, sqtail := tail, msgEn := en, msgLsize := 4, msgtail := tail, hasSup := true, msgFlagEn := true }
theorem test_witness_rings :
    (([(true, 0), (true, 16), (false, 0)] : List (Bool × BitVec 32)).all fun (en, t) =>
      let s := posting en t [(0, .record 0 record8)]
      s.plat.boot != .tripped && s.todo.isEmpty && s.gtc != (s.cycle + 1) * 5 / 9 && (s.part 0).sqEn == en &&
        decide (((s.part 0).sqtail - (s.part 0).sqhead).toNat < 2 ^ (s.part 0).sqLsize) == (t == 0)) = true ∧
    record8.length = 8 ∧ (one 0 id).plat.preempts = [] ∧ (∀ y ∈ (one 0 id).ctxs, y.2.stopping = none) ∧
    ((posting true 0 [(5, .record 0 record8), (4, .message 0 true record8)]).part 0).hasSup = true := by
  decide +kernel

/-- RingsFill: a message that waits for the message of a context that began to stop before it, and two whose GTC differ. -/
def behind : State := (posting true 0 [(0, .record 0 record8), (4, .message 0 true record8)]).setCtx 8
  { run := .stopping, stopping := some { due := 9, area := [], msgs := [(true, [0, 0, 0, 0, 0, 5])] } }
theorem test_witness_rings_order :
    (behind.outbox = [(0, .record 0 record8), (4, .message 0 true record8)] ∧ behind.partOf (coreOf 8) = 0 ∧
      ((behind.ctx 8).stopping.any fun z => z.msgs.any fun m => (wordAt m.2 5).toNat < (wordAt record8 5).toNat) = true) ∧
    (wordAt [1, 2, 3, 4, 5, 5] 5).toNat < (wordAt record8 5).toNat := by decide +kernel

/-- StartWrites: partition 0 owns face 0, its table lies at 0x1000, and the first entry of it holds `w`. -/
def starting (w : Nat) : State :=
  { owned { one 0 id with lines := (List.range 16).map fun i =>
      (0x40 + i, { data := if i = 0 then w else 0, coat := 0, owner := 0, way := 0 }) } with plat := { boot := .running } }
def tableOk (s : State) (f : List Byte → Bool) : Bool :=
  match (s.onPart 0 fun q => { q with table := 0x1000 }).readBytes (engineReq 0 0) 0x1000 512 with | (.ok bs, _) => f bs | _ => false

/-- StartWrites: a partition that runs; a write without GO; a table with a good supervisor, with a bad entry and with none. -/
theorem test_witness_start :
    (((starting 0).onPart 0 fun q => { q with run := true }).part 0).run = true ∧ ((starting 0).part 0).run = false ∧
    (starting 0).plat.boot = .running ∧ (0x1001 : Word).getLsbD 0 = true ∧ (0x1000 : Word).getLsbD 0 = false ∧
    (0x1001 : Word).toNat % 2 ^ 52 / 64 * 64 = 0x1000 ∧ (starting 0).facesOf 0 = [0] ∧ (starting 0).coresOf 0 = List.range 16 ∧
    (([(0, 3), (1 + 2 ^ 15 + 2 ^ 8, 0), (5 + 2 ^ 15 + 2 ^ 8, 2)] : List (Nat × Nat)).all fun (w, k) =>
      tableOk (starting (w * 2 ^ 64)) fun bs =>
        let x := leNat ((bs.drop 8).take 8)
        (k != 3 || !x.testBit 15) && (k != 0 || (x.testBit 15 && x.testBit 8 && x % 16 == 1 && x / 16 % 16 == 0)) &&
          (k != 2 || (x.testBit 15 && x % 16 == 5))) = true := by decide +kernel

/-- PartitionReset: a reset that goes on, and one that may begin. -/
theorem test_witness_preset :
    (((one 0 id).onPart 0 fun q => { q with rbusy := true }).part 0).rbusy = true ∧ ((owned (one 0 id)).part 0).rbusy = false ∧
    (owned (one 0 id)).owns 0 0 = true ∧ (owned (one 0 id)).owns 0 1 = false := by decide +kernel

/-- WarmReset: a die without a repair record, and one whose line is dirty; the machine runs and does not. -/
theorem test_witness_warm :
    (starting 0).plat.boot = .running ∧ (one 0 id).plat.boot ≠ .running ∧ Tbl.find (starting 0).plat.records 0 = none ∧
    (Tbl.find (l2State 1 1).lines 0x40).any (fun ln => ln.dirty) = true ∧ (17 : Nat) ≠ 16 := by decide +kernel

/-- RegisterWrites: values of each kind. -/
theorem test_witness_register_writes :
    ((0 : Nat) < 16 ∧ (1 : Nat) < 16 ∧ (1 : Nat) ≠ 0) ∧ ((0 : Word).toNat % 2 ^ 32 = 0) ∧ ((1 : Word).toNat % 2 ^ 32 ≠ 0) ∧
    ((starting 0).part 0).run = false ∧ (1 : Word).getLsbD 0 = true ∧
    ((List.range 32).all fun k => (List.range 16).all fun r => r == 0 || !(owned (one 0 id)).owns r k) = true := by decide +kernel


/-! ### Collectives -/

/-- A COLL of member 0 whose descriptor at 0x1000, in a page of HBM, has the header word `w0`, with two members, in pairs 0 and 1. -/
def collCmd (me : Word) : CopyCmd :=
  { copyCmd with kind := .coll, xop := 0, srcWin := [0, 0xFFFF0000, 0, 0x83], group := [0x1000, me, 9, 0, 0, 0, 0, 0] }
def words (l : List Nat) : Nat := l.zipIdx.foldl (fun v e => v + e.1 * 2 ^ (64 * e.2)) 0
def header : Nat := 2 + 2 ^ 10 + 2 ^ 16
def joinState (w0 : Nat) (me : Word) (cs : Tbl Coll) : State :=
  let s := engineState (collCmd me) []
  { s with
    colls := cs
    mem := [(hbmPlace 0 7, 32)], doms := [(0, { ftlen := 1 })]
    lines := [(0x40, { data := words [w0, 5], coat := 0, owner := 0, way := 0 }), (0x41, { data := 0, coat := 0, owner := 0, way := 0 }),
      (0x42, { data := words [0, 0xA * 2 ^ 48, 0xA * 2 ^ 48 + 0x10000, 0, 1, 0xA * 2 ^ 48 + 2 ^ 21, 0xA * 2 ^ 48 + 2 ^ 21 + 0x10000, 0]
               coat := 0, owner := 0, way := 0 })] }
def descIs (s : State) (me : Word) (f : State → Desc → Bool) : Bool :=
  match s.readDesc (collCmd me) with | (.ok d, z) => f z d | _ => false

/-- Member 0 or 1, joined by this COLL or by another. -/
def member (m : Nat) : Member := { memberOf [BitVec.ofNat 64 m, BitVec.ofNat 64 (0xA * 2 ^ 48 + m * 2 ^ 21), BitVec.ofNat 64 (0xA * 2 ^ 48 + m * 2 ^ 21 + 0x10000), 0] with
  joined := true, core := 2 * m, tag := 63, cmd := 4 + m, limit := 9 }
def coll (ms : List Member) (rs : List RTile) : Coll :=
  { part := 0, op := 0, q := 1, uns := false, nt := 1, root := 0, hdr := BitVec.ofNat 64 header, members := ms, tiles := rs }

/-- CollectiveJoins: the first member and a later one; a header that R383 refuses; a collective that the member has joined. -/
theorem test_witness_join :
    (([[], [(5, coll [member 1, { member 1 with joined := false }] [])]] : List (Tbl Coll)).all fun cs =>
      let s := joinState header 0 cs
      s.joinReady 0 == some (collCmd 0) && descIs s 0 fun z d => z.groupDescOk (collCmd 0) d && d.op == 0 && d.nmem == 2 && d.cid == 5) = true ∧
    (([0x10000 + 2 + 2 ^ 10 + 2 ^ 8, 0x10000 + 1 + 2 ^ 10, 0x10000 + 2, 2 + 2 ^ 10] : List Nat).all fun w =>
      descIs (joinState w 0 []) 0 fun z d => !z.groupDescOk (collCmd 0) d) = true ∧
    (((joinState header 0 [(5, coll [member 0, member 1] [])]).coll? 5).any fun y => (y.member 0).joined) = true ∧
    (descIs (joinState header 2 []) 2 fun _ d => decide (d.nmem ≤ 2)) = true := by decide +kernel

/-- Both members have joined; the send buffers hold zero blocks. -/
def sendState (c : Coll) : State := owned { one 0 id with colls := [(5, c)] }
def pair2 : Coll := coll [member 0, member 1] [{ m := 0, t := 0 }, { m := 1, t := 0 }]

/-- PlanesAreSent: a free sender in a FREE row, and a booked one in and out of its ticks. -/
def bookedMember : Coll := coll [{ member 0 with bid := some 5, pticks := 1 }, member 1] []
def bookedSend (rows : List RowUse) : State :=
  owned (({ one 0 (fun x => { x with run := .booked, bid := some 5 }) with colls := [(5, bookedMember)] } : State).onFace 0 fun f =>
    { f with bookings := [(5, booking rows)] })
theorem test_witness_send :
    (sendState pair2).coll? 5 = some pair2 ∧ pair2.members.all (fun y => y.joined) = true ∧ pair2.absent = false ∧
    pair2.peerlost = false ∧ (pair2.member 0).peer = 0 ∧ 0 < pair2.q ∧ (pair2.member 0).stopped = false ∧ (pair2.member 0).flits = 0 ∧
    (List.range (pair2.sends 0)).filter (fun t => !(pair2.member 0).heard.contains t) = [0] ∧
    (sendState pair2).memberBid (pair2.member 0) = none ∧ ((sendState pair2).face 0).freeCycles 0x164 0 0 = true ∧
    2 * 1 ≤ (sendState pair2).flitsLeft 0 0x164 ∧ (pair2.member 0).scales = [] ∧ (pair2.member 0).silent = [] ∧
    pair2.sinks 0 0 = [(0, 0), (1, 0)] ∧
    (bookedSend [{ row := 0x164, first := 0, len := 1 }]).memberBid (bookedMember.member 0) = some 5 ∧
    ((bookedSend [{ row := 0x164, first := 0, len := 1 }]).face 0).owner 0x164 0 = .bid 5 ∧
    ((bookedSend []).face 0).owner 0x164 0 ≠ .bid 5 ∧ ((bookedSend []).ctx 0).run = .booked ∧ ((bookedSend []).ctx 0).late = [] := by
  decide +kernel

/-- PlanesLandInTiles: planes 0 of both members have come to the tile of member 0, which waits, begins, and is written. -/
def plane0 : List Byte := List.replicate 128 0x55
def landing (r : RTile) : Coll :=
  { coll [{ member 0 with planes := 1, scales := [(0, 0, [])] }, { member 1 with planes := 1, scales := [(0, 0, [])] }] [r] with
    sent := [(0, 0, 0, plane0), (1, 0, 0, plane0)] }
theorem test_witness_landing_plane :
    (([{ m := 0, t := 0 }, { m := 0, t := 0, busy := some 0 }, { m := 0, t := 0, busy := some 0, wrote := 8 }] : List RTile).all fun r =>
      let s := sendState (landing r)
      s.coll? 5 == some (landing r) && (landing r).tile? 0 0 == some r && (landing r).gathered 0 0 0 && !(landing r).lost &&
      (s.face 0).owner (rowBank 0 1) 0 == .free && (s.pair 0).bankOpen 1 0 32 && r.planes == 0 && r.owns) = true ∧
    (landing { m := 0, t := 0 }).sources 0 0 = [(0, 0), (1, 0)] ∧ ((landing { m := 0, t := 0 }).member 0).rbuf % 2 ^ 21 = 0x10000 ∧
    (((sendState pair2).onFace 0 fun f => { f with ctl := [(rowBank 0 1, 0)] }).face 0).owner (rowBank 0 1) 0 = .ctl ∧
    ((((sendState pair2).onPair 0 fun p => { p with coreBank := [(1, 9)] }).pair 0).bankOpen 1 0 32) = false := by decide +kernel

/-- Cancels: an empty queue, a tile that a counter names and one that none names, a tag of a COLL that has joined, one that has not,
and one that no COLL has; a sender that nothing more is wanted of, and one of whom a tile is. -/
def cancelling (q : List CancelEntry) (c : Coll) : State :=
  let s := engineState { collCmd 0 with id := 4 } []
  { s with colls := if c.members.isEmpty then [] else [(5, c)] }.onPair 0 fun p => { p with cancelQ := q }
theorem test_witness_cancels :
    ((one 0 id).pair 0).cancelQ = [] ∧ ((cancelling [.tile 0] pair2).tileOfCounter 0 0).isSome = true ∧
    (cancelling [.tile 7] pair2).tileOfCounter 0 7 = none ∧ ((cancelling [.tile 0] pair2).pair 0).cancelQ = [.tile 0] ∧
    pair2.tiles.filter (fun q => q.m == 0 && q.t == 0) = [{ m := 0, t := 0 }] ∧
    (cancelling [.tag 0 5] pair2).collTag 0 5 = none ∧ ((cancelling [.tag 0 63] pair2).collTag 0 63).isSome = true ∧
    ((cancelling [.tag 0 63] pair2).collTag 0 63).bind (fun z => (cancelling [.tag 0 63] pair2).joinedBy z.2) = some 5 ∧
    ((cancelling [.tag 0 63] (coll [] [])).collTag 0 63).bind (fun z => (cancelling [.tag 0 63] (coll [] [])).joinedBy z.2) = none ∧
    pair2.wanted 0 0 = true ∧ { pair2 with cancel := true }.wanted 0 0 = false ∧ (pair2.member 0).planes < pair2.q := by decide +kernel

/-- CollectiveEnds: one that is over and one that is not; one that a member has not joined, past the limit of another; one with a
member of a peer package. -/
def ended : Coll :=
  coll [{ member 0 with planes := 1 }, { member 1 with planes := 1 }] [{ m := 0, t := 0, planes := 1 }, { m := 1, t := 0, planes := 1 }]
def withPeer (j : Bool) : Coll := coll [member 0, { member 1 with peer := 3, joined := j }] [{ m := 0, t := 0 }]
def endedState : State :=
  { sendState ended with engines := [(0, { queue := [{ collCmd 0 with id := 4 }, { collCmd 1 with id := 5, core := 2 }] })] }
theorem test_witness_coll_commands :
    (([0, 1] : List Nat).all fun m => (endedState.engine (ended.member m).eng).queue.find? (fun y => y.id == (ended.member m).cmd) ==
      some (if m = 0 then { collCmd 0 with id := 4 } else { collCmd 1 with id := 5, core := 2 })) = true ∧
    (collCmd 0).tag < 64 ∧ endedState.coll? 5 = some ended := by decide +kernel
theorem test_witness_coll_ends :
    ended.members.all (fun x => x.joined) = true ∧ (List.range 2).all (fun m => ended.q ≤ (ended.member m).planes) = true ∧
    ended.tiles.all (fun r => r.busy.isNone && decide (ended.q ≤ r.planes)) = true ∧
    pair2.tiles.all (fun r => decide (r.planes < pair2.q)) = true ∧ (ended.member 0).cmd ≠ (ended.member 1).cmd ∧
    ((withPeer false).member 1).joined = false ∧ ((withPeer false).member 0).limit ≠ 0 ∧
    ((withPeer false).member 0).limit.toNat ≤ { sendState (withPeer false) with cycle := 99 }.gtc ∧ (withPeer false).absent = false ∧
    (withPeer false).peerlost = false ∧ ((withPeer true).member 1).peer ≠ 0 ∧ ((withPeer true).member 1).joined = true ∧
    (Tbl.look ((sendState (withPeer true)).part 0).peers 3 0).toNat / 2 ^ 32 % 2 ^ 16 = 0 ∧
    (withPeer true).sends 1 = 1 ∧ (withPeer true).plane? 1 0 0 = none ∧
    leNat (leBytes 8 header) = header ∧ header < 2 ^ 64 := by decide +kernel


/-! ### The platform -/

/-- HostLink: a line of the own partition and one of another; the own control block; a refused write; staging beyond its slice. -/
def hostState (p : Nat) : State :=
  { owned { blockState 1 [] (heldBy p) with plat := { boot := .running } } with parts := [(0, { pfaces := 1 })] }
theorem test_witness_host :
    (([0, 1] : List Nat).all fun p => (hostState p).plat.boot == .running &&
      (Tbl.find (hostState p).lines (0x1000 / 64)).any fun ln => ln.owner == p) = true ∧
    (0x1000 : Nat) / 2 ^ 48 ≤ 7 ∧ (0x1000 : Nat) % 64 + 64 ≤ 64 ∧ [0x20, 0x28, 0x40, 0x60, 0x68, 0x70, 0x78].all (fun o => o % 8 == 0) = true ∧
    ((hostState 1).writeBytes (engineReq (0x1000 / 2 ^ 48 % 8) 0) 0x1000 [1]).1 = some 0x09 ∧
    (9 * 2 ^ 48 : Nat) / 2 ^ 48 = 9 ∧ 65536 * (16 - ((hostState 0).slice 0).w) < 9 * 2 ^ 48 % 2 ^ 20 + 1 ∧
    (one 0 id).plat.boot ≠ .running ∧ (16 : Nat) < 17 ∧ (2 : Nat) ^ 52 < 2 ^ 52 + 1 ∧ (1 : Nat) % 2 = 1 := by decide +kernel

/-- Mailbox: contexts that run and that do not, a PREEMPT under way, an image that has come and the states of the package. -/
theorem test_witness_mailbox :
    ((hostState 0).ctx 0).run = .free ∧ (hostState 0).ownerOf 0 = some 0 ∧ (hostState 0).ownerOf 1 ≠ some 0 ∧
    ((hostState 0).ctx 4).run = .halted ∧ ((hostState 0).ctx 4).stopping = none ∧
    ({ hostState 0 with plat := { boot := .running, preempts := [4] } }).plat.preempts.contains 4 = true ∧
    (hostState 0).plat.newImage = none ∧ (wordAt [3, 0, 0, 0, 0, 0, 0, 0] 0).toNat % 256 = 3 ∧
    (([.minimal, .tripped] : List Boot).all fun b => ({ hostState 0 with plat := { boot := b } }).plat.boot == b) = true ∧
    (List.replicate 32 (0 : Byte)).length = 32 ∧ ([] : List Byte).length ≤ 1024 := by decide +kernel

/-- ColdStart: a fourth start in a row, a package that starts, and one whose time has run out. What the image, the repair and the
flash of a start do is the chip's own (`Config`). -/
theorem test_witness_cold_start :
    3 < min 4 (3 + 1) ∧ min 4 (0 + 1) ≤ 3 ∧ ({ one 0 id with plat := { boot := .starting } }).plat.boot = .starting ∧
    (one 0 id).plat.boot ≠ .starting ∧ 30000000000 ≤ ({ one 0 id with cycle := 54000000000 }).cycle * 5 / 9 := by decide +kernel

theorem test_witness_image (n : Nat) : Config.imageUnreadable n = true ∨ Config.imageUnreadable n = false := by
  cases Config.imageUnreadable n <;> simp

/-- ThermalAndPower: a pair under double refresh and one that is not, a throttled face and one that is not, and a millisecond's
first cycle. A reading is what the chip's sensors give (`Config`), above a limit or not. -/
theorem test_witness_thermal :
    ((one 0 id).face 0).dblref.getLsbD 0 = false ∧ ((tickState (booking [])).face 0).dblref.getLsbD 0 = true ∧
    ((one 0 id).face 0).throttled = false ∧ (((one 0 id).onFace 0 fun f => { f with throttled := true }).face 0).throttled = true ∧
    ((one 0 id).face 0).allow 0 ≤ 64 ∧ ((one 0 id).face 0).dvalid = false ∧ (0 : Nat) = 8 * 0 + 0 ∧
    (let s := { hostState 0 with cycle := 1800000 }
     s.cycle ≠ 0 ∧ s.cycle * 5 / 9 / 1000000 ≠ (s.cycle - 1) * 5 / 9 / 1000000 ∧ s.plat.boot = .running) := by decide +kernel

theorem test_witness_reading (s : State) (n lim : Nat) : s.temp n < lim ∨ lim ≤ s.temp n := by omega

/-! ### The step -/

/-- StepRunsTheEvent, StepAfterATrip: an event next, a write of each kind next, and nothing left; a trip with a cold start on the
agenda and with nothing. -/
def next (l : List Item) : State := { hostState 0 with todo := l }
def tripped (l : List Timed) : State := { one 0 id with todo := [], agenda := l, plat := { boot := .tripped } }
theorem test_witness_step :
    (next [.event .logAppend]).plat.boot ≠ .tripped ∧ (next [.event .logAppend]).todo = [.event .logAppend] ∧
    (next [.write 1 0 (0xF00000B000060) 5]).todo = [.write 1 0 (0xF00000B000060) 5] ∧ (next []).todo = [] ∧ (next []).outbox = [] ∧
    (tripped []).plat.boot = .tripped ∧ (tripped []).agenda.all (fun t => t.ev != .coldStart) = true ∧
    (tripped [{ due := 9, src := 0, ev := .coldStart }]).agenda = [] ++ { due := 9, src := 0, ev := .coldStart } :: [] := by
  decide +kernel

/-- StepRunsTheEvent: a stop request for a context that is not about to trap. -/
theorem test_witness_stop_event :
    (next [.event (.contextStop 0 2)]).todo = [.event (.contextStop 0 2)] ∧ ((next []).stopTrap exec 4).isNone = true := by decide +kernel

/-- StepIssuesTheBundle: a bundle of eight NOPs for the current FREE context, and for a BOOKED one in its tick. -/
def issuing (booked : Bool) : State :=
  let s : State := hostState 0
  let x : Ctx := { run := if booked then .booked else .free, bid := if booked then some 5 else none, pc := 0x1000, vcount := 16,
                   aw := [(1, 0xFFFF0000), (3, 0x87)] }
  { ((s.setCtx 0 x).onCore 0 fun k => { k with idle := false, icache := [(0x40, List.replicate 64 0)], ibuf := if booked then [{ bid := 5, base := 0x1000, size := 1, code := [List.replicate 8 0] }] else [] }).onFace 0 fun f =>
      { f with bookings := if booked then [(5, booking [{ row := 0, first := 0, len := 9 }])] else [] } with
    todo := [.issue 0], iss := {} }
def issueB (booked : Bool) : Bool :=
  let s := { issuing booked with todo := [] }
  let v := if booked then (s.passGone exec 0).noteHolds exec 0 (some 0) else s.noteHolds exec 0 none
  let a := v.atIssue 0
  (v.ctx 0).run == (if booked then RunState.booked else .free) && decide ((v.ctx 0).ready ≤ v.cycle) && (v.ctx 0).fetchMiss.isNone &&
    (v.ctx 0).sleep == .awake && (v.ctx 0).late.isEmpty && !v.stopHit 0 &&
    match a.fetch 0 with
    | .words ws =>
      let ops := ws.zipIdx.filterMap fun w => (decodeSlot w.2 w.1).toOption.map fun i => (w.2, i)
      ws.length == 8 && ops.length == 8 && ops.all fun o => (probe exec a o.1 o.2).1 == .committed
    | _ => false
theorem test_witness_issue :
    issueB false = true ∧ issueB true = true ∧ (issuing false).frozen 0 = false ∧
    ({ issuing false with todo := [] }.freezes exec 1).isNone = true ∧ (issuing true).rowCtx 0 5 = some 0 ∧
    ((issuing true).face 0).owner (rowCore 0) 0 = .bid 5 ∧ ((issuing false).face 0).owner (rowCore 0) 0 = .free ∧
    ((issuing false).core 0).idle = false ∧ ((issuing false).core 0).turn ≤ 0 ∧ ((issuing false).core 0).cur = 0 := by decide +kernel

/-- ResultsLand: the last cycle of a tick's results, with nothing else due, and results of each kind in flight. -/
def landingState : State :=
  { one 0 (fun x => { x with inflight := [{ due := 1, w := .scalar 3 7, issued := 0, slot := 0 }, { due := 1, w := .pred 2 true, issued := 0, slot := 0 },
      { due := 1, w := .sreg 0x003 5, issued := 0, slot := 0 }, { due := 1, w := .lane 3 4 9, issued := 0, slot := 0 }, { due := 9, w := .tile 5 [], issued := 0, slot := 0 }] }) with
    todo := [], outbox := [] }
theorem test_witness_results_land :
    landingState.plat.boot ≠ .tripped ∧ landingState.todo = [] ∧ landingState.launches = [] ∧ (landingState.ctx 0).sleep = .awake ∧
    (landingState.ctx 0).unbook = false ∧ landingState.pairs = [] ∧ landingState.ctxs.map Prod.fst = [0] ∧
    ((landingState.ctx 0).inflight.filter fun i => i.due ≤ landingState.cycle + 1).length = 4 := by decide +kernel

/-- StepKeepsTheInvariant: memory with a byte, in a state that steps. -/
theorem test_witness_wf : Memory.wf [(5, 7)] = true ∧ Memory.wf (blockState 1 [] []).mem = true := by decide +kernel
theorem test_witness_steps : (match step (next []) with | .next _ => true | _ => false) = true := by decide +kernel


/-! ### Further witnesses -/

/-- OwnWordsOfVariableLatency: SLD through the weight bank, and SLDA through it and through the scratchpad. -/
theorem test_witness_own_words :
    (let s := wbankTile
     s.iss.core < 512 ∧ findWindow s.cx.windows 0x10000000 = some wbankWindow ∧ wbankWindow.kind = 2 ∧
     (0x10000000 : Nat) = (s.cx.sreg 2 + immediate s (0 : BitVec 7) * 4).toNat ∧ (0x10000000 : Nat) = (s.cx.sreg 2).toNat ∧
     s.portWait (s.wordAcc 0x10000000 2).ports = false ∧ s.wordCausesAt (s.wordAcc 0x10000000 2) .read scalarLoadKinds = [] ∧
     freeB (.sld 0 1 2 2 1 0) s = true ∧ freeB (.slda 0 1 2 2 0) s = true) ∧
    (let s := scratchTile
     findWindow s.cx.windows 0x10000000 = some scratchWindow ∧ scratchWindow.kind = 1 ∧ (0x10000000 : Nat) = (s.cx.sreg 2).toNat ∧
     s.portWait (s.wordAcc 0x10000000 0).ports = false ∧ s.wordCausesAt (s.wordAcc 0x10000000 0) .read scalarLoadKinds = [] ∧
     freeB (.slda 0 1 2 0 6) s = true) := by decide +kernel

/-- A request under a format, and rows of blocks that are all alike. -/
def fmtReq (f : Nat) (nfr pq : Word) : TileReq := { base := 0x1000, stride := 512, fmt := f, nfr := nfr, pq := pq, pc := 0 }
def alike (n blocks : Nat) (coat : Coat) : List (Span × List BlockVal) :=
  List.replicate n ({ va := 0x1000, len := 64 * blocks }, List.replicate blocks { data := 5, coat := coat })

/-- ExplicitLanes: rows of 4 blocks of F32, and NARROW rows of one block at both ends of its widths; a poisoned block, a zero one and
one that is neither. -/
theorem test_witness_explicit_lanes :
    (FmtWidth 3 1 32 ∧ FmtWidth 1 13 1 ∧ FmtWidth 8 13 8) ∧ (RowsOf 32 (alike 16 4 0x0001) ∧ RowsOf 1 (alike 16 1 0x000C) ∧
    RowsOf 8 (alike 16 1 0x000C)) ∧ (alike 16 4 0x00FF)[15]? = some ({ va := 0x1000, len := 256 },
      List.replicate 4 { data := 5, coat := 0x00FF }) ∧ coatPoison 0x00FF = true ∧ coatE (mkCoat (-128) 1) = -128 ∧
    coatPoison (mkCoat (-128) 1) = false ∧ coatPoison 0x0001 = false ∧ coatE 0x0001 ≠ -128 := by
  refine ⟨by simp [FmtWidth], ⟨⟨rfl, fun x hx => ?_⟩, ⟨rfl, fun x hx => ?_⟩, rfl, fun x hx => ?_⟩, by decide +kernel⟩ <;>
    cases List.eq_of_mem_replicate hx <;> simp [RowOf]

/-- CoatedLanes: rows of F32 and rows of no format; a poisoned block, a zero block, and blocks of their row's CODE and of another. -/
theorem test_witness_coated_lanes :
    (∀ x ∈ alike 16 4 0x0001, ∃ b l, x.2 = b :: l ∧
      (1 ≤ coatCode b.coat ∧ coatCode b.coat ≤ 12 → ∃ w, FmtWidth 3 (codeFmt (coatCode b.coat)) w ∧ RowOf w x) ∧
      (coatCode b.coat = 0 ∨ 12 < coatCode b.coat → x.1.va % 64 = 0 ∧ l = [])) ∧
    (∀ x ∈ alike 16 1 0x00FF, ∃ b l, x.2 = b :: l ∧
      (1 ≤ coatCode b.coat ∧ coatCode b.coat ≤ 12 → ∃ w, FmtWidth 3 (codeFmt (coatCode b.coat)) w ∧ RowOf w x) ∧
      (coatCode b.coat = 0 ∨ 12 < coatCode b.coat → x.1.va % 64 = 0 ∧ l = [])) ∧
    coatCode 0x0001 = 1 ∧ coatCode (mkCoat (-128) 3) = 3 ∧ coatPoison (mkCoat (-128) 3) = false ∧ coatCode 0x00FF = 255 := by
  refine ⟨fun x hx => ?_, fun x hx => ?_, by decide⟩
  · cases List.eq_of_mem_replicate hx
    exact ⟨_, _, rfl, fun _ => ⟨32, by simp only [FmtWidth]; decide, by simp only [RowOf]; decide⟩, by decide⟩
  · cases List.eq_of_mem_replicate hx
    exact ⟨_, _, rfl, by intro h; exact absurd h (by decide), by decide⟩

/-- PlaneLanes, StoredPlanes: one plane and eight, with the CODE of each and with another, zero blocks and others. -/
def planeRows (planes : Nat) (e : Int) : List (Span × List BlockVal) :=
  (List.range (2 * planes)).map fun i => ({ va := 0x1000, len := 64 }, [{ data := 5, coat := mkCoat e (0x10 + i % planes) }])
theorem test_witness_plane_lanes :
    PqKept 1 ∧ PqKept 0x400008 ∧ (1 : Word).toNat % 16 = 1 ∧ (0x400008 : Word).toNat % 16 = 8 ∧
    (planeRows 8 0).length = 2 * 8 ∧ (∀ x ∈ planeRows 8 0, x.2.length = 1) ∧
    (∀ i, i < 8 → (planeRows 8 0)[15 / 8 * 8 + i]? = some ({ va := 0x1000, len := 64 }, [{ data := 5, coat := mkCoat 0 (0x10 + i) }])) ∧
    (planeRows 1 (-128))[0]? = some ({ va := 0x1000, len := 64 }, [{ data := 5, coat := mkCoat (-128) 0x10 }]) ∧
    coatE (mkCoat 0 0x10) ≠ -128 ∧ coatE (mkCoat (-128) 0x10) = -128 ∧ coatCode (mkCoat 0 0x11) ≠ 0x10 := by
  simp only [PqKept]; decide +kernel

/-- StoredBlocks: rows of F32 and of NARROW. -/
theorem test_witness_stored_blocks :
    (FmtWidth 3 1 32 ∧ FmtWidth 3 13 3 ∧ IntRange 0x33 13 3 (-3) 3) ∧ (∀ sp ∈ List.replicate 16 ({ va := 0x1000, len := 256 } : Span),
      sp.len = 8 * 32 ∧ sp.va + 8 * 32 ≤ 2 ^ 64 ∧ (if 8 ≤ 32 then sp.va % 64 = 0 else sp.va % 64 + 8 * 32 ≤ 64)) ∧
    (∀ sp ∈ List.replicate 16 ({ va := 0x1028, len := 24 } : Span),
      sp.len = 8 * 3 ∧ sp.va + 8 * 3 ≤ 2 ^ 64 ∧ (if 8 ≤ 3 then sp.va % 64 = 0 else sp.va % 64 + 8 * 3 ≤ 64)) := by
  refine ⟨by simp [FmtWidth, IntRange], fun x hx => ?_, fun x hx => ?_⟩ <;> cases List.eq_of_mem_replicate hx <;> decide

/-- PlaneLimitTraps: PQ with 0 and 9 planes, and two planes of stride 0; names in the allotment and outside it. -/
def planeAccess (pq : Word) (vcount : Nat) : State := scratch 4 fun x => { regs 2 3 0x10000000 512 x with pq := pq, vcount := vcount }
theorem test_witness_plane_limits :
    (([0, 9, 2] : List Word).all fun pq => ([1, 64] : List Nat).all fun v =>
      let s := planeAccess pq v
      !s.portWait (s.tileAcc 2 3 12 false).ports && !s.portWait (s.tileAcc 2 3 12 true).ports &&
      freeB (.vldt 0 1 2 12 3) s && (freeB (.vld 0 1 2 12 3) s == decide (1 < v)) && (freeB (.ctst 0 1 2 12 3) s == decide (1 < v)) &&
      Instr.wf (.vst 0 1 2 12 3) && !Instr.badImm (.ctld 0 1 2 12 3) s && liveB (.vld 0 1 2 12 3) s && s.cx.pending.isEmpty &&
      (vregsOf (.vst 0 1 2 12 3)).any (fun n => decide (s.cx.vcount ≤ n.toNat)) == decide (v ≤ 1)) = true ∧
    ¬ PqKept 0 ∧ ¬ PqKept 9 ∧ ¬ PqKept 2 := by simp only [PqKept]; decide +kernel

/-- TimedLoads: VLDT through the weight bank into an EMPTY slot, and a LANDED slot that is poisoned. -/
theorem test_witness_timed_loads :
    (let s := wbankTile
     findWindow s.cx.windows (s.cx.sreg 2).toNat = some wbankWindow ∧ (Tbl.look s.ico.landing 0 {}).st = .empty ∧
     s.portWait (s.tileAcc 2 3 1 false).ports = false ∧ s.tileCauses (s.tileAcc 2 3 1 false) .read loadKinds = [] ∧
     freeB (.vldt 0 0 2 1 3) s = true) ∧
    (let s := wbankTile.onCore 0 fun k => { k with landing := [(0, { st := .landed, poison := some 64 })] }
     let y := Tbl.look s.ico.landing 0 {}
     y.st = .landed ∧ y.owner = s.iss.ctx ∧ y.poison = some 64 ∧ freeB (.vland 0 1 0) s = true) := by decide +kernel

/-- ResultsReturn: a line that memory refuses, for a bundle that lies in it and for one that no longer does. -/
theorem test_witness_refused_line :
    (([0x1000, 0x2000] : List Word).all fun pc =>
      let s := (one 0 id).setCtx 1 { run := .free, fetchMiss := some 0x40, pc := pc, aw := [(1, 0xFFFF0000), (3, 0x84)] }
      s.missing 0 0x40 == [1] && (s.fetchesLine 1 0x40 == (pc == 0x1000)) && (s.ctx 1).run == .free &&
      match (s.iaRead (s.coreReq 1 (s.fetchAlloc 1)) (0x40 * 64)).1 with | .fail _ => true | _ => false) = true := by decide +kernel

/-- FlagWords and FlagsArrive: nothing outstanding, and a load that is. -/
def loading : State := (one 7 fun x => { x with pending := [{ id := 7, slot := 4, dest := .scalar 3, reissue := false, issued := 2 }] }).onCore 0
  fun k => { k with flagOps := [{ due := 0, flag := 15, set := true, origin := some 0, issued := 3 },
    { due := 0, flag := 15, set := false, origin := some 0, issued := 2 }] }
theorem test_witness_flag_order :
    ¬ Unperformed (waiting 0 0 0) (waiting 0 0 0).cs (waiting 0 0 0).cycle ∧ (waiting 0 0 0).ico.flagOps = [] ∧
    Unperformed loading 0 3 ∧ ¬ Unperformed loading 0 2 ∧ (∀ o ∈ (loading.core 0).flagOps, o.flag < 16 ∧ o.due ≤ loading.cycle) := by
  simp only [Unperformed]; decide +kernel

/-- SlackAndUnbook: what is booked in the current tick and after it, with HOLD and without. -/
theorem test_witness_unbook :
    (let b := booking [{ row := 0, first := 0, len := 4, hold := true }, { row := 3, first := 0, len := 9 }]
     Tbl.find (bookedState.face 0).bookings 5 = some b ∧ bookedState.tick < 1 ∧
     (b.rows.any fun x => x.covers 3 1 && !x.hold) = true ∧ (b.rows.any fun x => x.covers 0 0) = true) ∧
    freeB (.unbook 0) bookedState = true := by decide +kernel

/-- WordTraps: words that ask nothing of PQ, and words that ask and find it kept. -/
theorem test_witness_pq_allows : PqAllows (.vand 0 1 2 3) 0 ∧ PqAllows (.xplm 0 1 2 3) 8 ∧ PqAllows (.vld 0 1 2 12 3) 0x400008 ∧
    PqAllows (.vld 0 1 2 11 3) 0 := by simp [PqAllows, PqKept]

/-- RequestWords: SPAWN and SPAWN.W of a BOOKED context and of a FREE one that find a queue with every slot in use. -/
def fullQueue (r : RunState) : State :=
  { askState (fun x => { x with run := r }) with
    mem := [(hbmPlace 0 7, 32)], doms := [(0, { ftlen := 1 })]
    parts := [(0, { pfaces := 1 })]
    lines := [(0x40, { data := 0x1000 + 0xFFFF * 2 ^ 192 + 0x0001000100010001 * 2 ^ 256, coat := 0, owner := 0, way := 0 }),
      (0x41, { data := 0, coat := 0, owner := 0, way := 0 })]
    disps := [(0, { tasks := (List.range 8).map fun k =>
      { seq := k, part := 0, queue := 0, slot := 0x8000 + 128 * k, tcb := List.replicate 16 0, va := 0 } })]
    queues := [(0, { en := true, lsize := 3, base := 0x8000 })] }
theorem test_witness_full_queue :
    (([.free, .booked] : List RunState).all fun r => let s := fullQueue r
      freeB (.spawnW 0 2 3 0) s && freeB (.spawn 0 2 3 0) s && s.readCauses 0x1000 128 128 == [] && s.cx.run == r &&
      spawnIs s 0x1000 0 1) = true := by decide +kernel


/-- MacroOpsQueue: an MRESUME whose held macro-ops have begun to enter, with room for the rest, and without. -/
def resuming (n : Nat) (l : List MxOp) : State := queueState (List.replicate n someOp) fun x => { x with run := .free, held := l, sleep := { resume := true } }
theorem test_witness_resume_goes_on :
    (resuming 7 [someOp]).cx.sleep.resume = true ∧ [someOp].length ≤ (resuming 7 [someOp]).mxRoom ∧ freeB (.mresume 0) (resuming 7 [someOp]) = true ∧
    (resuming 7 [someOp, someOp]).mxRoom < [someOp, someOp].length ∧ (resuming 7 [someOp, someOp]).cx.held = [someOp, someOp] ∧
    ((resuming 7 [someOp, someOp]).pair 0).freeze = none ∧ ((resuming 7 [someOp, someOp]).ctx 0).sleep.resume = true ∧
    ([1, 2, 3].all fun j => !((resuming 7 [someOp, someOp]).ctx j).sleep.resume) = true := by decide +kernel

/-- WeightSwapRequest: a BOOKED task that owns the first row of its pair's weight bank alone, and one that owns neither. -/
def swapRows (rows : List RowUse) : State := (swapState .booked {} [3]).onFace 0 fun f => { f with bookings := [(5, booking rows)] }
theorem test_witness_swap_rows :
    ((swapRows [{ row := 0x120, first := 0, len := 9 }]).face 0).owner 0x120 3 = .bid 5 ∧
    ((swapRows [{ row := 0x120, first := 0, len := 9 }]).face 0).owner 0x121 3 ≠ .bid 5 ∧ ((swapRows []).face 0).owner 0x120 3 ≠ .bid 5 ∧
    freeB (.wswap 0 8 1 4) (swapRows []) = true ∧ (swapRows []).cx.run = .booked ∧ (swapRows []).cx.bid = some 5 ∧
    (swapRows []).cx.sleep.swap = none := by decide +kernel

/-- AccumulatorsLoad: the first step of an MLDACC under F32, and a later one under COAT. -/
def loadOp (fmt rows : Nat) : MxOp :=
  { someOp with op := 5, aIa := 0xA * 2 ^ 48, rows := rows, group := [0x10000000, 1024, BitVec.ofNat 64 fmt, 0, 0, 0, 128, 0], steps := 8 }
theorem test_witness_load_accumulators :
    (([(1, 0), (0, 16)] : List (Nat × Nat)).all fun (f, r) =>
      (stepState (loadOp f r)).chosen 0 0 == some (loadOp f r, none) && (stepState (loadOp f r)).stepNow (loadOp f r) &&
      (loadOp f r).g 2 == BitVec.ofNat 64 f && (loadOp f r).aIa % 64 == 0 && ((loadOp f r).g 1).toNat % 64 == 0) = true ∧
    ((stepState (loadOp 1 0)).pair 0).freeze = none ∧ pairOf (loadOp 1 0).core = 0 ∧ (loadOp 1 0).op = 5 ∧
    coatCode ((stepState (loadOp 0 16)).blockAt (devicePlace (0xA * 2 ^ 48))).coat = 0 := by decide +kernel

/-- DrainStep: the first step of an MDRAIN to F32, and a later one to NARROW, of a bank whose cells nothing has written. -/
def drainTo (fmt rows : Nat) : MxOp := { drainOp 0 with
  aIa := 0xA * 2 ^ 48, rows := rows, steps := 8, nfr := 0x33, bias := List.replicate 256 0
  group := [0x10000000, 1024, BitVec.ofNat 64 fmt, 0, 0x3F800000, 0, 128, 0] }
theorem test_witness_drain_step :
    (([(1, 0), (13, 16)] : List (Nat × Nat)).all fun (f, r) =>
      let o := drainTo f r
      (stepState o).chosen 0 0 == some (o, none) && (stepState o).stepNow o && ((stepState o).drainPoison o).isNone &&
      (o.g 2).toNat == f && (o.g 1).toNat % 64 == 0 && ((stepState o).bias o).length == 256 &&
      (List.range 16).all fun i => ((({} : AccBank).row 0 0 (r + i)).length == 256)) = true ∧
    ((stepState (drainTo 1 0)).pair 0).freeze = none ∧ pairOf (drainTo 1 0).core = 0 ∧ Tbl.look ((stepState (drainTo 1 0)).pair 0).acc 0 {} = {} := by
  decide +kernel
theorem test_witness_drain_formats : FmtWidth 0x33 1 32 ∧ FmtWidth 0x33 13 3 ∧ IntRange 0x33 13 3 (-3) 3 := by simp [FmtWidth, IntRange]

/-- DrainedBlocksLand: one block that is due, one that is not, and a pair that is frozen. -/
def draining : State := { (one 0 id).onPair 0 fun p => { p with out := [{ due := 9, place := 0, mask := 255, data := 7, coat := some 1 },
  { due := 10, place := 64, mask := 255, data := 8, coat := some 1 }] } with cycle := 9 }
theorem test_witness_drained_blocks :
    (∀ w ∈ (draining.pair 0).out, w.place % 64 = 0) ∧ (draining.pair 0).freeze = none ∧
    (draining.pair 0).out.filter (fun w => decide (w.due ≤ draining.cycle)) =
      [] ++ { due := 9, place := 0, mask := 255, data := 7, coat := some 1 } :: [] ∧
    ((draining.onPair 0 fun p => { p with freeze := some { start := 0, c := 0, k := 0 } }).pair 0).freeze = some { start := 0, c := 0, k := 0 } := by
  decide +kernel

/-- PoisonedDrains: a bank whose poison bit is set, and a bias whose sixteenth block is poisoned, for a context that runs and for one
that is halted. -/
def biasDrain : MxOp := { drainOp 1 with biasIa := 0xA * 2 ^ 48, steps := 8 }
def badBias : State := { stepState biasDrain with coats := [(devicePlace (0xA * 2 ^ 48 + 960) / 64, 0x00FF)] }
def badBank (r : RunState) : State :=
  ((stepState biasDrain).onPair 0 fun p => { p with acc := [(0, { poison := true, apsn := 64 })] }).onCtx 0 fun x => { x with run := r }
theorem test_witness_poisoned_drains :
    (([.free, .halted] : List RunState).all fun r => (badBank r).chosen 0 0 == some (biasDrain, none) && (badBank r).stepNow biasDrain &&
      ((badBank r).ctx 0).run == r) = true ∧
    (Tbl.look ((badBank .free).pair 0).acc 0 {}).poison = true ∧ badBias.chosen 0 0 = some (biasDrain, none) ∧
    badBias.stepNow biasDrain = true ∧ (Tbl.look (badBias.pair 0).acc 0 {}).poison = false ∧ biasDrain.biasIa ≠ 0 ∧
    biasDrain.biasIa % 64 = 0 ∧ biasDrain.rows < 16 ∧ coatPoison (badBias.blockAt (devicePlace (biasDrain.biasIa + 64 * 15))).coat = true ∧
    (∀ i, i < 15 → coatPoison (badBias.blockAt (devicePlace (biasDrain.biasIa + 64 * i))).coat = false) := by decide +kernel

/-- PageCommands, BlocksAreWritten: a PROMOTE, and a write, that find 64 other promotions pending. -/
def crowded : State := commandState 2 0 0 |>.onDom 0 fun x => { x with promoQ := (List.range 64).map fun i => (i + 1, true) }
theorem test_witness_promotions : (crowded.dom 0).promoQ.length = 64 ∧ (∀ z ∈ (crowded.dom 0).promoQ, z.1 ≠ 0) ∧
    crowded.peekPte 0 0 0 = some (pteOf 2 0) ∧ (crowded.dom 0).pgBusy = true := by decide +kernel

/-- BlocksAreRead, BlocksAreWritten: a copy engine's access to a line that a slice holds, whose page is in memory; a page that no entry
has; a replica's line that is another partition's. -/
def copyReq : Req := { blockReq true with copy := true }
theorem test_witness_copy_hits :
    (Tbl.find (blockState 1 [] (heldBy 0)).lines 0x40).any (fun l => l.owner == copyReq.part) = true ∧
    entryB (blockState 1 [] (heldBy 0)) 0 0 0 (pteOf 1 0) = true ∧ (pteOf 1 0).st 0 ≠ 0 ∧ (pteOf 0 0).st 0 = 0 ∧
    entryB (blockState 0 [] (heldBy 0)) 0 0 0 (pteOf 0 0) = true ∧ copyReq.copy = true ∧
    ({ w0 := 3 * 2 ^ 61 + 2 ^ 45, w1 := 0 } : Pte).rmask.testBit 0 = true ∧ ({ w0 := 3 * 2 ^ 61 + 2 ^ 45, w1 := 0 } : Pte).st 8 = 3 ∧
    (Tbl.find { replicaState with lines := [((0 + 1) * 2 ^ 52 + 1, { data := 5, coat := 0, owner := 1, way := 0 })] }.lines
      ((0 + 1) * 2 ^ 52 + 64 / 64)).any (fun l => l.owner != copyReq.part) = true := by decide +kernel

/-- Mailbox: a PREEMPT of a context whose stop goes on. -/
theorem test_witness_preempt_stopping :
    (let s := (hostState 0).onCtx 0 fun x => { x with run := .stopping, stopping := some { due := 9, area := [], msgs := [] } }
     (s.ctx 0).run = .stopping ∧ s.ownerOf (0 / 64) = some 0) := by decide +kernel

/-- StepRunsTheEvent: the controllers' turn with a request of face 1, and with none; a sequencer's event in a pair that is frozen, and in
one that goes on. -/
theorem test_witness_step_requests :
    (let s := (next [.requests]).onFace 1 fun f => { f with requests := [.slip 64 8] }
     s.todo = .requests :: [] ∧ (s.face 1).requests ≠ [] ∧ (∀ g, g < 1 → (s.face g).requests = [])) ∧
    (∀ f, f < 32 → ((next [.requests]).face f).requests = []) ∧
    (let s := (next [.event (.arrayStep 0 0)]).onPair 0 fun p => { p with freeze := some { start := 0, c := 0, k := 0 } }
     (s.pair 0).freeze ≠ none ∧ s.todo = .event (.arrayStep 0 0) :: []) ∧
    (next []).pairStill exec 0 = false := by decide +kernel

/-- CollectiveJoins: a collective that has ended early before its last member joins; a descriptor with a member of a peer package, which
has joined before under the JOB of its entry. -/
def lostState (c : Coll) : State := joinState header 0 [(5, c)]
def peerState : State :=
  let s := joinState header 0 [(8 * 2 ^ 52 + 5, coll [{}, { peer := 3, joined := true, job := some 7 }] [])]
  { s with
    parts := [(0, { pfaces := 1, peers := [(3, 2 ^ 63 + 7 * 2 ^ 32)] })]
    lines := s.lines.map fun l => if l.1 = 0x42 then
      (l.1, { l.2 with data := words [0, 0xA * 2 ^ 48, 0xA * 2 ^ 48 + 0x10000, 0, 3 * 2 ^ 8, 0, 0, 0] }) else l }
theorem test_witness_join_early :
    (([{ coll [{ member 0 with joined := false }, member 1] [] with absent := true },
       { coll [{ member 0 with joined := false }, member 1] [] with peerlost := true }] : List Coll).all fun c =>
      let s := lostState c
      s.joinReady 0 == some (collCmd 0) && descIs s 0 (fun z d => z.groupDescOk (collCmd 0) d && c.members.length == d.nmem) &&
      s.coll? 5 == some c && !(c.member 0).joined && c.hdr == BitVec.ofNat 64 header && !c.cancel) = true ∧
    peerState.joinReady 0 = some (collCmd 0) ∧
    descIs peerState 0 (fun z d => z.groupDescOk (collCmd 0) d && ((d.members.filter fun y => y.peer != 0).map fun y =>
      (Tbl.look (peerState.part 0).peers y.peer 0).toNat / 2 ^ 32 % 2 ^ 16) == [7] && (d.members.getD 1 {}).peer == 3) = true ∧
    peerState.coll? 5 = none ∧ ((peerState.coll? ((7 + 1) * 2 ^ 52 + 5)).any fun p => !p.cancel && (p.member 1).joined && (p.member 1).job == some 7 &&
      p.hdr == BitVec.ofNat 64 header && !(p.member 0).joined) = true := by decide +kernel

/-- CollectiveEnds: a tile that is being written when the collective ends; a packet of another JOB than the entry's, and a place where
nothing of that JOB is kept. -/
theorem test_witness_coll_apart :
    (Tbl.look ((sendState (withPeer true)).part 0).peers 3 0).toNat / 2 ^ 32 % 2 ^ 16 ≠ 7 ∧
    leNat (([7, 0] : List Byte).take 2) = 7 ∧ (sendState (withPeer true)).coll? ((7 + 1) * 2 ^ 52 + 5) = none ∧
    1 < leNat (((leBytes 2 7 ++ leBytes 8 header).drop 2).take 8) % 256 ∧
    (landing { m := 0, t := 0, busy := some 0, wrote := 8 }).tiles.any (fun r => r.wrote != 0) = true := by decide +kernel

end Sys2Proof.Machine.Tests
end

section
/-! SUPPORT. A write that a unit of the package makes in memory leaves the posts that wait to leave as they are. The lemmas on
single updates are proved by `(rfl)`, so that `simp` rewrites with them: the kernel would otherwise compare whole states. -/

namespace Sys2Proof.Machine

@[simp] theorem State.onDom_outbox (s : State) (d : Nat) (f : Domain → Domain) : (s.onDom d f).outbox = s.outbox := (rfl)
@[simp] theorem State.putBlock_outbox (s : State) (p : Nat) (b : BlockVal) : (s.putBlock p b).outbox = s.outbox := (rfl)
@[simp] theorem State.writeAt_outbox (s : State) (p : Nat) (w : BWrite) : (s.writeAt p w).outbox = s.outbox := (rfl)
@[simp] theorem State.setPte_outbox (s : State) (r idx : Nat) (e : Pte) : (s.setPte r idx e).outbox = s.outbox := (rfl)
@[simp] theorem State.touchLine_outbox (s : State) (key way : Nat) (hit : Bool) :
    (s.touchLine key way hit).outbox = s.outbox := (rfl)
@[simp] theorem State.countMiss_outbox (s : State) (key : Nat) : (s.countMiss key).outbox = s.outbox := (rfl)
@[simp] theorem State.trigger_outbox (s : State) (key : Nat) : (s.trigger key).outbox = s.outbox := (rfl)
theorem State.setLines_outbox (s : State) (l : Tbl Line) : { s with lines := l }.outbox = s.outbox := (rfl)
@[simp] theorem State.forwardRead_outbox (s : State) (n cw : Nat) : (s.forwardRead n cw).2.outbox = s.outbox := (rfl)

@[simp] theorem State.readLba_outbox (s : State) (n lba blk : Nat) : (s.readLba n lba blk).2.outbox = s.outbox := by
  unfold State.readLba
  split
  · rfl
  · exact s.forwardRead_outbox _ _

theorem State.pte_outbox (s : State) (d r idx : Nat) : (s.pte d r idx).2.outbox = s.outbox := by
  unfold State.pte
  dsimp only
  split
  · rfl
  · split
    · rfl
    · exact State.onDom_outbox _ _ _

theorem State.memWrite_outbox (s : State) (q : Req) (d ia : Nat) (w : BWrite) :
    (s.memWrite q d ia w).2.outbox = s.outbox := by
  have hp := s.pte_outbox d (iaRegion ia) (iaPage ia)
  unfold State.memWrite
  dsimp only
  split
  · rename_i h; rwa [h] at hp
  · rename_i e u h
    rw [h] at hp
    refine Eq.trans ?_ hp
    repeat' split
    all_goals simp

theorem State.primaryLine_outbox (s : State) (q : Req) (e : Pte) (ia : Nat) (hq : q.alloc = false) :
    (s.primaryLine q e ia).outbox = s.outbox := by
  unfold State.primaryLine
  simp only [hq, Bool.false_and, Bool.false_eq_true, if_false]
  split
  · exact State.touchLine_outbox _ _ _ _
  · exact State.countMiss_outbox _ _

theorem State.replicaWrite_outbox (s : State) (q : Req) (ia : Nat) (w : BWrite) (hq : q.alloc = false) :
    (s.replicaWrite q ia w).2.outbox = s.outbox := by
  have hp := s.pte_outbox q.dom 8 (iaPage ia)
  unfold State.replicaWrite
  split
  · rename_i h; rwa [h] at hp
  · rename_i e u h
    rw [h] at hp
    refine Eq.trans ?_ hp
    split
    · rfl
    split
    · rfl
    split
    · rfl
    refine (List.foldlRecOn _ _ (motive := fun t : State => t.outbox = u.outbox) ?_ ?_)
    · exact (State.primaryLine_outbox _ _ _ _ hq).trans (State.setPte_outbox _ _ _ _)
    · intro t ht d _
      dsimp only
      split
      · refine (State.trigger_outbox _ _).trans ?_
        split
        · exact (State.setLines_outbox _ _).trans ((State.putBlock_outbox t _ _).trans ht)
        · exact (State.putBlock_outbox t _ _).trans ht
      · exact ht

theorem State.lineWrite_outbox (s : State) (q : Req) (ia : Nat) (w : BWrite) (hq : q.alloc = false) :
    (s.lineWrite q ia w).2.outbox = s.outbox := by
  unfold State.lineWrite
  split
  · rfl
  split
  · exact s.replicaWrite_outbox q ia w hq
  dsimp only
  split
  · split
    · rfl
    · have h : (if q.copy = true then s.memWrite q (iaRegion ia) ia w else (none, s)).2.outbox = s.outbox := by
        split
        · exact s.memWrite_outbox _ _ _ _
        · rfl
      split
      all_goals rename_i e; rw [e] at h; exact h
  · simp only [hq, Bool.false_eq_true, if_false]
    split
    all_goals exact State.memWrite_outbox _ _ _ _ _

theorem State.iaWrite_outbox (s : State) (q : Req) (ia : Nat) (w : BWrite) (hq : q.alloc = false) :
    (s.iaWrite q ia w).2.outbox = s.outbox := by
  unfold State.iaWrite
  split
  · exact s.lineWrite_outbox _ _ _ hq
  · repeat' split
    all_goals rfl

theorem State.iaWrites_outbox (q : Req) (hq : q.alloc = false) (l : List (Nat × BWrite)) (s : State) :
    (s.iaWrites q l).2.outbox = s.outbox := by
  induction l generalizing s with
  | nil => rfl
  | cons e l ih =>
    have h := s.iaWrite_outbox q e.1 e.2 hq
    unfold State.iaWrites
    split
    · rename_i g; rwa [g] at h
    · rename_i t g; rw [g] at h; exact (ih t).trans h

/-- What a unit of the package writes to memory leaves the posts that wait as they are. -/
theorem State.writeBytes_outbox (s : State) (d p ia : Nat) (bs : List Byte) :
    (s.writeBytes (engineReq d p) ia bs).2.outbox = s.outbox := State.iaWrites_outbox _ rfl _ s

end Sys2Proof.Machine
end

section
/-! SUPPORT. Writes of blocks and lines: the bits that a masked write leaves, and a unit's write of a line that a slice holds. -/

namespace Sys2Proof.Machine
open Sys2Proof.Claims

/-- A number less its bits under a mask has the bits outside the mask. -/
theorem testBit_sub_and (x m j : Nat) : (x - (x &&& m)).testBit j = (x.testBit j && !m.testBit j) := by
  have hle (x m : Nat) : x &&& m ≤ x := Nat.and_le_left
  have hmod (x m : Nat) : (x &&& m) % 2 = 1 ↔ x % 2 = 1 ∧ m % 2 = 1 := Nat.and_mod_two_eq_one
  induction j generalizing x m with
  | zero =>
    have hx := hle x m
    have h := hmod x m
    simp only [Nat.testBit_zero, ← Bool.decide_and, ← decide_not, decide_eq_decide]
    omega
  | succ j ih =>
    have hx := hle x m
    have h := hmod x m
    have hd : (x - (x &&& m)) / 2 = x / 2 - (x &&& m) / 2 := by omega
    rw [Nat.testBit_succ, hd, Nat.and_div_two, ih, Nat.testBit_succ, Nat.testBit_succ]

theorem BWrite.testBit_apply (w : BWrite) (b : BlockVal) (j : Nat) :
    (w.apply b).data.testBit j = if w.mask.testBit j then w.data.testBit j else b.data.testBit j := by
  simp only [BWrite.apply, Nat.testBit_or, Nat.testBit_and, testBit_sub_and]
  cases w.mask.testBit j <;> simp

theorem length_bytesOfWords (ws : List Word) : (bytesOfWords ws).length = 8 * ws.length := by
  induction ws with
  | nil => rfl
  | cons w ws ih =>
    rw [bytesOfWords] at ih ⊢
    rw [List.map_cons, List.flatten_cons, List.length_append, length_leBytes, ih, List.length_cons]
    omega

/-- The write of one whole block from its first byte on. -/
def lineBytes (bs : List Byte) : BWrite := { mask := byteMask 0 64, data := leNat bs }

theorem byteWrites_line {ia : Nat} {bs : List Byte} (ha : ia % 64 = 0) (hb : bs.length = 64) :
    byteWrites ia bs none = [(ia, lineBytes bs)] := by
  have hi : ia / 64 * 64 = ia := by omega
  simp [byteWrites, lineBytes, ha, hb, hi, List.take_of_length_le, List.range_succ]

theorem lineBytes_patched (bs : List Byte) (b : BlockVal) :
    Patched ((lineBytes bs).apply b).data b.data 0 64 (leNat bs) := by
  intro j hj
  have hm : (lineBytes bs).mask.testBit j = true := by
    simp only [lineBytes, byteMask, Nat.mul_zero, Nat.pow_zero, Nat.mul_one]
    rw [Nat.testBit_two_pow_sub_one]
    simpa using hj
  rw [BWrite.testBit_apply, hm, if_pos rfl, if_pos (by omega)]
  rfl

/-- A unit's write of a block that hits a line of its partition changes that line and marks it dirty (R179). -/
theorem State.iaWrite_hit (s : State) {d p ia : Nat} {w : BWrite} {ln : Line} (hr : iaRegion ia ≤ 7) (ha : ia % 64 = 0)
    (hl : Tbl.find s.lines (ia / 64) = some ln) (ho : ln.owner = p) :
    let b := w.apply { data := ln.data, coat := ln.coat }
    ∃ t, s.iaWrite (engineReq d p) ia w = (none, t) ∧
      Tbl.find t.lines (ia / 64) = some { ln with data := b.data, coat := b.coat, dirty := true } := by
  have hi : ia / 64 * 64 = ia := by omega
  have h8 : iaRegion ia ≠ 8 := by omega
  have hf : (engineReq d p).frameOf ia = none := rfl
  have ho' : ¬ ln.owner ≠ (engineReq d p).part := by simpa [engineReq] using ho
  simp only [State.iaWrite, if_pos (show iaRegion ia ≤ 8 by omega), hi, State.lineWrite, hf, if_neg h8, lineKey, hl,
    if_neg ho']
  refine ⟨_, rfl, ?_⟩
  simp [State.trigger, State.touchLine, State.onSlice, State.setSlice, engineReq]

/-- 64 bytes that a unit writes to a line of its partition become the line's (R374, R412). -/
theorem State.writeBytes_line (s : State) {d p ia : Nat} {bs : List Byte} {ln : Line} (hb : bs.length = 64)
    (hr : iaRegion ia ≤ 7) (ha : ia % 64 = 0) (hl : Tbl.find s.lines (ia / 64) = some ln) (ho : ln.owner = p) :
    ∃ x, Patched x ln.data 0 64 (leNat bs) ∧
      Tbl.find (s.writeBytes (engineReq d p) ia bs).2.lines (ia / 64) = some { ln with data := x, dirty := true } := by
  obtain ⟨t, hw, ht⟩ := s.iaWrite_hit (d := d) (w := lineBytes bs) hr ha hl ho
  refine ⟨_, lineBytes_patched bs { data := ln.data, coat := ln.coat }, ?_⟩
  rw [State.writeBytes, byteWrites_line ha hb]
  simp only [State.iaWrites, hw]
  exact ht

end Sys2Proof.Machine
end

section
/-! O50, first part: writes of a queue's registers and of the heads of the two rings (R354, R374, R412). -/

namespace Sys2Proof.Machine
open Sys2Proof.Claims

/-! ### Written values -/

theorem addrField_eq (v : Word) {lo : Nat} (h : lo ≤ 52) : addrField v lo = v.toNat % 2 ^ 52 / 2 ^ lo * 2 ^ lo := by
  have e : (2 : Nat) ^ 52 = 2 ^ lo * 2 ^ (52 - lo) := by rw [← Nat.pow_add, Nat.add_sub_of_le h]
  rw [addrField, bitsOf, e, Nat.mod_mul_right_div_self]

theorem headOk_iff (tail : BitVec 32) (v : Word) (ls : Nat) :
    headOk tail (v.truncate 32) ls = true ↔ (tail.toNat + 2 ^ 32 - v.toNat % 2 ^ 32) % 2 ^ 32 ≤ 2 ^ ls := by
  have hv : v.toNat % 2 ^ 32 < 2 ^ 32 := Nat.mod_lt _ (by decide)
  have e : (tail - v.truncate 32).toNat = (tail.toNat + 2 ^ 32 - v.toNat % 2 ^ 32) % 2 ^ 32 := by
    simp only [BitVec.truncate_eq_setWidth, BitVec.toNat_sub, BitVec.toNat_setWidth]
    congr 1
    omega
  rw [headOk, decide_eq_true_eq, e]

theorem truncate_eq_ofNat (v : Word) (n : Nat) : v.truncate n = BitVec.ofNat n v.toNat := (BitVec.ofNat_toNat n v).symm

/-- The mask of STOPPC leaves the address of a bundle, a multiple of 32 (R404). -/
theorem and_bundleMask (v : Word) : v &&& 0xFFFFFFFFFFFFFFE0 = BitVec.ofNat 64 (v.toNat / 32 * 32) := by
  have hm : (0xFFFFFFFFFFFFFFE0 : Word) = BitVec.allOnes 64 <<< 5 := by decide
  have hd : v.toNat / 32 * 32 = v.toNat / 2 ^ 5 * 2 ^ 5 := rfl
  apply BitVec.eq_of_getLsbD_eq
  intro i hi
  rw [hm, hd, BitVec.getLsbD_and, BitVec.getLsbD_ofNat, Nat.testBit_mul_two_pow, Nat.testBit_div_two_pow,
    BitVec.testBit_toNat, BitVec.getLsbD_shiftLeft, BitVec.getLsbD_allOnes]
  by_cases h5 : 5 ≤ i
  · simp [hi, h5, show i - 5 < 64 by omega, show ¬ i < 5 by omega]
  · simp [h5, show i < 5 by omega]

/-! ### A partition after an update -/

theorem State.onPart_congr (s : State) (p : Nat) {f g : Part → Part} (h : f (s.part p) = g (s.part p)) :
    s.onPart p f = s.onPart p g := by
  rw [State.onPart, h]; rfl

theorem State.part_onPart_fixed (s : State) (p : Nat) {f : Part → Part} (h : f (s.part p) = s.part p) (k : Nat) :
    (s.onPart p f).part k = s.part k := by
  by_cases hk : k = p
  · rw [hk, State.part_onPart_self, h]
  · exact Tbl.look_put_other _ _ _ hk

/-! ### A queue's registers (R354) -/

section
variable {s : State} {p q : Nat} (v : Word)

theorem queueWrite_base_held (h : s.queueTasks (16 * p + q) ≠ []) : s.queueWrite p q 0x00 v = s :=
  if_pos (by simpa using h)

theorem queueWrite_base_empty (h : s.queueTasks (16 * p + q) = []) :
    s.queueWrite p q 0x00 v = s.onQueue (16 * p + q) fun x => { x with base := addrField v 7 } :=
  if_neg (by simp [h])

theorem queueWrite_size_held (h : s.queueTasks (16 * p + q) ≠ []) :
    s.queueWrite p q 0x08 v = s.onQueue (16 * p + q) fun x =>
      { x with en := v.getLsbD 7, tickets := bitsOf v.toNat 16 16 } := by
  simp [State.queueWrite, h]

theorem queueWrite_size_empty (h : s.queueTasks (16 * p + q) = []) :
    s.queueWrite p q 0x08 v = s.onQueue (16 * p + q) fun x =>
      { x with
        en := v.getLsbD 7, tickets := bitsOf v.toNat 16 16, dom := bitsOf v.toNat 4 3
        lsize := clampLsize (v.toNat % 16) } := by
  simp [State.queueWrite, h]

/-! ### The heads of the rings (R374, R412) -/

theorem exec_sqheadWrite_ok (h : headOk (s.part p).sqtail (v.truncate 32) (s.part p).sqLsize = true) :
    exec (.sqheadWrite p v) s = .next (s.onPart p fun y => { y with sqhead := BitVec.ofNat 32 v.toNat }) :=
  congrArg Host.Outcome.next (s.onPart_congr p (by rw [if_pos h, truncate_eq_ofNat]))

theorem exec_sqheadWrite_refused (h : ¬ headOk (s.part p).sqtail (v.truncate 32) (s.part p).sqLsize = true) :
    ∃ t, exec (.sqheadWrite p v) s = .next t ∧ ∀ k, t.part k = s.part k :=
  ⟨_, rfl, s.part_onPart_fixed p (if_neg h)⟩

theorem exec_msgheadWrite_ok (h : headOk (s.part p).msgtail (v.truncate 32) (s.part p).msgLsize = true) :
    exec (.msgheadWrite p v) s = .next (s.onPart p fun y => { y with msghead := BitVec.ofNat 32 v.toNat }) :=
  congrArg Host.Outcome.next (s.onPart_congr p (by rw [if_pos h, truncate_eq_ofNat]))

theorem exec_msgheadWrite_refused (h : ¬ headOk (s.part p).msgtail (v.truncate 32) (s.part p).msgLsize = true) :
    ∃ t, exec (.msgheadWrite p v) s = .next t ∧ ∀ k, t.part k = s.part k :=
  ⟨_, rfl, s.part_onPart_fixed p (if_neg h)⟩

end

theorem queueRegisters : QueueRegisters := by
  intro s p q v n held x w sets r
  have next_eq {t u : State} (h : t = u) : Host.Outcome.next (φ := Fault) (ρ := Refusal) t = .next u := congrArg _ h
  refine ⟨fun h => ?_, fun h => ?_, fun h => ?_, fun h => ?_, ?_, fun h => ?_, fun h => ?_, fun h => ?_, fun h => ?_⟩
  · exact next_eq (queueWrite_base_held v h)
  · refine next_eq ((queueWrite_base_empty v (not_not.1 h)).trans ?_)
    rw [addrField_eq v (by decide)]
    rfl
  · exact next_eq (queueWrite_size_held v h)
  · exact next_eq (queueWrite_size_empty v (not_not.1 h))
  · refine next_eq (u := s.onQueue n fun _ => _) ?_
    rw [State.queueWrite, addrField_eq v (by decide)]
    rfl
  · exact exec_sqheadWrite_ok v ((headOk_iff _ _ _).2 h)
  · exact exec_sqheadWrite_refused v (mt (headOk_iff _ _ _).1 h)
  · exact exec_msgheadWrite_ok v ((headOk_iff _ _ _).2 h)
  · exact exec_msgheadWrite_refused v (mt (headOk_iff _ _ _).1 h)

end Sys2Proof.Machine
end

section
/-! O50, second part: the registers that addresses of region 0xF name, and what becomes of a write of one (R7, R403, R404,
R445, R449). -/

namespace Sys2Proof.Machine
open Sys2Proof.Claims
/-- An offset of region 0xF lies in a block. -/
def inBlock (o : Nat) (b : Nat × Nat × Nat) : Bool := b.1 ≤ o && o < b.1 + b.2.1 * b.2.2

theorem inBlock_iff (o : Nat) (b : Nat × Nat × Nat) : inBlock o b = true ↔ b.1 ≤ o ∧ o < b.1 + b.2.1 * b.2.2 := by
  simp [inBlock]

theorem regBlocks_pairwise : regBlocks.Pairwise fun a b => a.1 + a.2.1 * a.2.2 ≤ b.1 := by decide

/-- No offset lies in an earlier block too. -/
theorem inBlock_first {o k : Nat} (hk : k < regBlocks.length) (h : inBlock o regBlocks[k] = true) {j : Nat} (hj : j < k) :
    inBlock o regBlocks[j] = false := by
  have hp := List.pairwise_iff_getElem.1 regBlocks_pairwise j k (hj.trans hk) hk hj
  rw [inBlock_iff] at h
  rw [Bool.eq_false_iff, ne_eq, inBlock_iff]
  omega

/-- The register at offset `o` of unit `n` of block `k`. -/
theorem regOf_block {ia k n o : Nat} {b : Nat × Nat × Nat} (hia : ia / 2 ^ 48 = 0xF) (hk : regBlocks[k]? = some b)
    (hn : n < b.2.2) (ho : o < b.2.1) (h : ia % 2 ^ 48 / 8 * 8 = b.1 + (b.2.1 * n + o)) :
    regOf ia = some (regAt k n o) := by
  obtain ⟨hlt, rfl⟩ := List.getElem?_eq_some_iff.1 hk
  have hin : inBlock (ia % 2 ^ 48 / 8 * 8) regBlocks[k] = true := by
    have hle := Nat.mul_le_mul_left regBlocks[k].2.1 (show n + 1 ≤ _ from hn)
    rw [Nat.mul_succ] at hle
    rw [inBlock_iff]
    omega
  have hidx : regBlocks.findIdx? (inBlock (ia % 2 ^ 48 / 8 * 8)) = some k :=
    List.findIdx?_eq_some_iff_getElem.2 ⟨hlt, hin, fun j hj => by rw [inBlock_first hlt hin hj]; decide⟩
  have hfind : regBlocks.find? (inBlock (ia % 2 ^ 48 / 8 * 8)) = some regBlocks[k] :=
    List.find?_eq_some_iff_getElem.2 ⟨hin, k, hlt, rfl, fun j hj => by rw [inBlock_first hlt hin hj]; rfl⟩
  have hdef : regOf ia = match regBlocks.findIdx? (inBlock (ia % 2 ^ 48 / 8 * 8)),
      regBlocks.find? (inBlock (ia % 2 ^ 48 / 8 * 8)) with
    | some k, some b => some (regAt k ((ia % 2 ^ 48 / 8 * 8 - b.1) / b.2.1) ((ia % 2 ^ 48 / 8 * 8 - b.1) % b.2.1))
    | _, _ => none := if_neg (not_not_intro hia)
  rw [hdef, hidx, hfind]
  dsimp only
  rw [h, Nat.add_sub_cancel_left, Nat.mul_add_div (by omega), Nat.mul_add_mod, Nat.div_eq_of_lt ho, Nat.mod_eq_of_lt ho,
    Nat.add_zero]

theorem regOf_outside {ia : Nat} (h : ia / 2 ^ 48 ≠ 0xF) : regOf ia = none := if_pos h

theorem regOf_ctl {q off : Nat} (hq : q < 16) (ho : off < 0x1000) :
    regOf (0xF00000B000000 + 0x1000 * q + off) = some (.ctl q (off / 8 * 8)) :=
  regOf_block (k := 14) (by omega) rfl hq (show off / 8 * 8 < 0x1000 by omega) (by dsimp only; omega)

theorem regOf_disp {d : Nat} (hd : d < 8) : regOf (0xF000009000000 + 0x100 * d) = some (.disp d 0) :=
  regOf_block (k := 12) (by omega) rfl hd (Nat.zero_lt_succ _) (by dsimp only; omega)

theorem regOf_plat {off : Nat} (ho : off < 0x5000) : regOf (0xF00000C000000 + off) = some (.plat (off / 8 * 8)) :=
  regOf_block (k := 15) (n := 0) (by omega) rfl Nat.zero_lt_one (show off / 8 * 8 < 0x5000 by omega) (by dsimp only; omega)


/-! ### What a write of a register does (R7, R449) -/

section
variable {s : State} {priv p ia : Nat} {r : Reg} (v : Word)

theorem exec_registerWrite_outside (h : regOf ia = none) : exec (.registerWrite priv p ia v) s = .next s := by
  rw [show exec (.registerWrite priv p ia v) s = execRegisterWrite priv p ia v s from rfl, execRegisterWrite, h]

theorem exec_registerWrite_refused (h : regOf ia = some r) (hc : s.regWriteCheck priv p r ≠ .ok) :
    exec (.registerWrite priv p ia v) s = .next s := by
  rw [show exec (.registerWrite priv p ia v) s = execRegisterWrite priv p ia v s from rfl, execRegisterWrite, h]
  exact if_pos hc

theorem exec_registerWrite_event (h : regOf ia = some r) (hc : s.regWriteCheck priv p r = .ok) (ho : r.ownWrite = true) :
    exec (.registerWrite priv p ia v) s = .next { s with todo := .write priv p ia v :: s.todo } := by
  rw [show exec (.registerWrite priv p ia v) s = execRegisterWrite priv p ia v s from rfl, execRegisterWrite, h]
  exact (if_neg (not_not_intro hc)).trans (if_pos ho)

theorem exec_registerWrite_store (h : regOf ia = some r) (hc : s.regWriteCheck priv p r = .ok) (ho : r.ownWrite = false) :
    exec (.registerWrite priv p ia v) s = .next (s.regStore r p v) := by
  rw [show exec (.registerWrite priv p ia v) s = execRegisterWrite priv p ia v s from rfl, execRegisterWrite, h]
  exact (if_neg (not_not_intro hc)).trans (if_neg (by simp [ho]))

end

/-! ### Who may write a control block (R403, R449) -/

section
variable (s : State) {p q priv o : Nat}

theorem regWriteCheck_firmware (r : Reg) : s.regWriteCheck 2 p r = .ok := if_pos rfl

theorem regWriteCheck_ctl_other (hq : q ≠ p) (hp : priv < 2) : s.regWriteCheck priv p (.ctl q o) = .refuse := by
  have h2 : priv ≠ 2 := by omega
  simp [State.regWriteCheck, State.regReadable, h2, hq]

theorem regWriteCheck_ctl_rwf (hp : priv < 2) (ha : (Reg.ctl p o).access = .rwf) :
    s.regWriteCheck priv p (.ctl p o) = .priv := by
  have h2 : priv ≠ 2 := by omega
  simp [State.regWriteCheck, State.regReadable, Reg.supOnly, Reg.accessOf, h2, ha]

theorem regWriteCheck_ctl_task (ha : (Reg.ctl p o).access = .rws) : s.regWriteCheck 0 p (.ctl p o) = .priv := by
  simp [State.regWriteCheck, State.regReadable, Reg.supOnly, Reg.accessOf, ha]

theorem regWriteCheck_ctl_supervisor (ha : (Reg.ctl p o).access ≠ .rwf) : s.regWriteCheck 1 p (.ctl p o) = .ok := by
  cases h : (Reg.ctl p o).access with
  | rwf => exact absurd h ha
  | _ => simp [State.regWriteCheck, State.regReadable, State.regWriter, Reg.supOnly, Reg.accessOf, h]

end

/-! ### The stored fields -/

section
variable {s : State} {p : Nat} (v : Word)

/-- A register of a partition's control block whose write the code admits stores its fields. -/
theorem exec_ctl_store {priv off : Nat} (hp : p < 16) (ho : off < 0x1000) (h8 : off % 8 = 0)
    (hc : s.regWriteCheck priv p (.ctl p off) = .ok) (hw : (Reg.ctl p off).ownWrite = false) :
    exec (.registerWrite priv p (0xF00000B000000 + 0x1000 * p + off) v) s = .next (s.ctlWrite p off v) := by
  have hr := regOf_ctl hp ho
  rw [show off / 8 * 8 = off by omega] at hr
  exact exec_registerWrite_store v hr hc hw

theorem pfacesWrite_running (h : (s.part p).run = true) : s.pfacesWrite p v = s := by
  simp [State.pfacesWrite, h]

theorem pfacesWrite_free (h : (s.part p).run = false)
    (hf : ∀ k r, k < 32 → r < 16 → r ≠ p → v.getLsbD k = true → s.owns r k = false) :
    s.pfacesWrite p v = s.onPart p fun x => { x with pfaces := v.truncate 32 } := by
  have ht : ((List.range 32).any fun f => v.getLsbD f && (List.range 16).any fun q => q != p && s.owns q f) = false := by
    simp only [List.any_eq_false, List.mem_range, Bool.and_eq_true, List.any_eq_true, bne_iff_ne]
    rintro k hk ⟨hv, r, hr, hne, ho⟩
    rw [hf k r hk hr hne hv] at ho
    cases ho
  simp [State.pfacesWrite, h, ht]

theorem platWrite_dstat {f : Nat} (hf : f < 32) (hv : v.getLsbD 0 = true) :
    s.platWrite (0x1000 + 0x100 * f) v = s.onFace f fun x => { x with dvalid := false } := by
  have hn : ¬ (0x1000 + 0x100 * f = 0x18) := by omega
  have hi : 0x1000 ≤ 0x1000 + 0x100 * f ∧ 0x1000 + 0x100 * f < 0x3000 ∧ (0x1000 + 0x100 * f) % 0x100 = 0 := by omega
  have he : (0x1000 + 0x100 * f - 0x1000) / 0x100 = f := by omega
  rw [State.platWrite, if_neg hn, if_pos hi, if_pos hv, he]

end

theorem registerWrites : RegisterWrites := by
  intro s p q d f v hp hq hqp hd hf w ctl noEffect part
  have hctl {q off : Nat} (hq : q < 16) (ho : off < 0x1000) : regOf (ctl q off) = some (.ctl q (off / 8 * 8)) :=
    regOf_ctl hq ho
  have sup {off : Nat} {g : Part → Part} (h : s.ctlWrite p off v = s.onPart p g)
      (hc : off < 0x1000 ∧ off % 8 = 0 ∧ (Reg.ctl p off).access ≠ .rwf ∧ (Reg.ctl p off).ownWrite = false) : part 1 off g := by
    obtain ⟨ho, h8, ha, hw⟩ := hc
    exact (exec_ctl_store v hp ho h8 (regWriteCheck_ctl_supervisor s ha) hw).trans (congrArg _ h)
  have firm {off : Nat} {t : State} (h : s.ctlWrite p off v = t)
      (hc : off < 0x1000 ∧ off % 8 = 0 ∧ (Reg.ctl p off).ownWrite = false) :
      exec (.registerWrite 2 p (ctl p off) v) s = .next t := by
    obtain ⟨ho, h8, hw⟩ := hc
    exact (exec_ctl_store v hp ho h8 (regWriteCheck_firmware s _) hw).trans (congrArg _ h)
  refine ⟨?outside, ?other, ?task, ?firmwareOnly, ?event, ?wdlimit, ?stoppc, ?savebase, ?msgbase, ?msgctl, ?fquota,
    ?spill, ?fshare, ?pfacesRun, ?pfaces, ?lseedZero, ?lseed, ?plimit, ?dstat⟩
  case outside => exact fun priv ia h => exec_registerWrite_outside v (regOf_outside h)
  case other =>
    intro priv off hpriv ho
    exact exec_registerWrite_refused v (hctl hq ho) (by rw [regWriteCheck_ctl_other s hqp hpriv]; decide)
  case task =>
    intro off hoff
    have h : off < 0x1000 ∧ (Reg.ctl p (off / 8 * 8)).access = .rws := by
      revert off; simp [Reg.access]
    exact exec_registerWrite_refused v (hctl hp h.1) (by rw [regWriteCheck_ctl_task s h.2]; decide)
  case firmwareOnly =>
    intro priv off hpriv hoff
    have h : off < 0x1000 ∧ (Reg.ctl p (off / 8 * 8)).access = .rwf := by
      revert off; simp [Reg.access]
    exact exec_registerWrite_refused v (hctl hp h.1) (by rw [regWriteCheck_ctl_rwf s hpriv h.2]; decide)
  case event =>
    intro off hoff
    have h : off < 0x1000 ∧ (Reg.ctl p (off / 8 * 8)).access ≠ .rwf ∧ (Reg.ctl p (off / 8 * 8)).ownWrite = true := by
      revert off; simp [Reg.access, Reg.ownWrite]
    obtain ⟨ho, ha, hw⟩ := h
    exact exec_registerWrite_event v (hctl hp ho) (regWriteCheck_ctl_supervisor s ha) hw
  case wdlimit => exact sup rfl (by simp [Reg.access, Reg.ownWrite])
  case stoppc => exact sup (by rw [State.ctlWrite, and_bundleMask]) (by simp [Reg.access, Reg.ownWrite])
  case savebase => exact sup (by rw [State.ctlWrite, addrField_eq v (by decide)]; rfl) (by simp [Reg.access, Reg.ownWrite])
  case msgbase => exact sup (by rw [State.ctlWrite, addrField_eq v (by decide)]; rfl) (by simp [Reg.access, Reg.ownWrite])
  case msgctl => exact sup rfl (by simp [Reg.access, Reg.ownWrite])
  case fquota => exact firm rfl (by simp [Reg.ownWrite])
  case spill => exact firm rfl (by simp [Reg.ownWrite])
  case fshare => exact firm rfl (by simp [Reg.ownWrite])
  case pfacesRun => exact fun h => firm (pfacesWrite_running v h) (by simp [Reg.ownWrite])
  case pfaces =>
    intro h hfree
    refine firm ((pfacesWrite_free v h hfree).trans ?_) (by simp [Reg.ownWrite])
    rw [truncate_eq_ofNat]
  case lseedZero =>
    intro h
    refine (exec_registerWrite_store v (regOf_disp hd) (regWriteCheck_firmware s _) rfl).trans (congrArg _ ?_)
    exact if_pos h
  case lseed =>
    intro h
    refine (exec_registerWrite_store v (regOf_disp hd) (regWriteCheck_firmware s _) rfl).trans (congrArg _ ?_)
    exact (if_neg h).trans (by rw [truncate_eq_ofNat])
  case plimit => exact exec_registerWrite_store v (regOf_plat (off := 0x18) (by decide)) (regWriteCheck_firmware s _) rfl
  case dstat =>
    intro hv
    have hr := regOf_plat (off := 0x1000 + 0x100 * f) (by omega)
    rw [show (0x1000 + 0x100 * f) / 8 * 8 = 0x1000 + 0x100 * f by omega, ← Nat.add_assoc] at hr
    exact (exec_registerWrite_store v hr (regWriteCheck_firmware s _) rfl).trans (congrArg _ (platWrite_dstat v hf hv))

end Sys2Proof.Machine
end

section
/-! O50, third part: what the end of a nanosecond of GTC sends to the rings and to firmware (R374, R411, R412). -/

namespace Sys2Proof.Machine
open Sys2Proof.Claims

/-! ### What leaves at the end of a nanosecond (R374, R411, R412) -/

section
variable {s : State}

theorem step_flushOut (hb : s.plat.boot ≠ .tripped) (ht : s.todo = []) (hg : s.gtc ≠ (s.cycle + 1) * 5 / 9)
    (ho : ∃ e ∈ s.outbox, s.mayLeave e = true) : step s = .next s.flushOut := by
  have hany : (s.outbox.any s.mayLeave && s.gtc != (s.cycle + 1) * 5 / 9) = true := by
    simpa [List.any_eq_true, hg] using ho
  rw [step, State.stepWith, if_neg hb, ht]
  exact congrArg _ (if_pos hany)

theorem mayLeave_of_none_stopping (h : ∀ y ∈ s.ctxs, y.2.stopping = none) (e : Nat × Post) : s.mayLeave e = true := by
  obtain ⟨k, _ | ⟨p, fw, ws⟩⟩ := e
  · rfl
  · simp only [State.mayLeave, Bool.not_eq_true', List.any_eq_false]
    intro y hy
    simp [h y hy]

/-- A message waits for that of a context of its partition that began to stop before it. -/
theorem mayLeave_behind {k p : Nat} {fw : Bool} {ws : List Word} {y : Nat × Ctx} {z : Stopping} {m : Bool × List Word}
    (hy : y ∈ s.ctxs) (hp : s.partOf (coreOf y.1) = p) (hz : y.2.stopping = some z) (hm : m ∈ z.msgs)
    (hlt : (wordAt m.2 5).toNat < (wordAt ws 5).toNat) : s.mayLeave (k, .message p fw ws) = false := by
  simp only [State.mayLeave, Bool.not_eq_false', List.any_eq_true]
  refine ⟨y, hy, ?_⟩
  simp only [hp, hz, beq_self_eq_true, Bool.true_and, Option.any_some, List.any_eq_true]
  exact ⟨m, hm, by simp [hlt]⟩

theorem flushOut_one {e : Nat × Post} (ho : s.outbox = [e]) (hm : s.mayLeave e = true) :
    s.flushOut = ({ s with outbox := [] }).sendPost e.1 e.2 := by
  simp [State.flushOut, ho, hm, insPost]

theorem flushOut_first {e f : Nat × Post} (ho : s.outbox = [e, f]) (he : s.mayLeave e = true) (hf : s.mayLeave f = false) :
    s.flushOut = ({ s with outbox := [f] }).sendPost e.1 e.2 := by
  simp [State.flushOut, ho, he, hf, insPost]

theorem flushOut_two {a b : Nat × Post} (ho : s.outbox = [a, b]) (ha : s.mayLeave a = true) (hb : s.mayLeave b = true) :
    s.flushOut =
      if a.2.time s.gtc < b.2.time s.gtc ∨ (a.2.time s.gtc = b.2.time s.gtc ∧ a.1 ≤ b.1) then
        (({ s with outbox := [] }).sendPost a.1 a.2).sendPost b.1 b.2
      else (({ s with outbox := [] }).sendPost b.1 b.2).sendPost a.1 a.2 := by
  simp only [State.flushOut, ho, List.filter_cons, ha, hb, if_true, List.filter_nil, List.foldl_cons, List.foldl_nil, insPost,
    Bool.not_true, Bool.false_eq_true, if_false]
  simp only [Bool.or_eq_true, Bool.and_eq_true, decide_eq_true_eq, beq_iff_eq]
  split <;> rfl

end

/-! ### A record and a message reach their ring (R374, R412) -/

section
variable {s : State} {p : Nat} {ws : List Word}

/-- The state after a unit's write of an entry of a ring of partition `p`. -/
def State.ringEntry (s : State) (p ia : Nat) (ws : List Word) : State :=
  (s.writeBytes (engineReq (ia / 2 ^ 48 % 8) p) ia (bytesOfWords ws)).2

theorem ringEntry_memOnly (s : State) (p ia : Nat) (ws : List Word) : MemOnly s (s.ringEntry p ia ws) :=
  s.writeBytes_memOnly _ _ _ _

theorem part_ringEntry (s : State) (p ia : Nat) (ws : List Word) (k : Nat) : (s.ringEntry p ia ws).part k = s.part k := by
  rw [State.part, (ringEntry_memOnly s p ia ws).parts]; rfl

theorem writeRecord_room (he : (s.part p).sqEn = true)
    (hr : ringUsed (s.part p).sqhead (s.part p).sqtail < 2 ^ (s.part p).sqLsize) :
    s.writeRecord p ws =
      (s.ringEntry p ((s.part p).sqbase + 64 * ((s.part p).sqtail.toNat % 2 ^ (s.part p).sqLsize)) ws).onPart p fun q =>
        { q with sqtail := q.sqtail + 1 } :=
  if_pos (by simpa [he] using hr)

theorem writeRecord_lost
    (h : ¬ ((s.part p).sqEn = true ∧ ringUsed (s.part p).sqhead (s.part p).sqtail < 2 ^ (s.part p).sqLsize)) :
    s.writeRecord p ws = s.onPart p fun q => { q with sqlost := sat32 q.sqlost } :=
  if_neg (by simpa using h)

/-- A message is firmware's, or one of a trap in a partition that its supervisor has left (R411). -/
def State.toFirmware (s : State) (p : Nat) (fw : Bool) (ws : List Word) : Prop :=
  fw = true ∨ (s.part p).hasSup = false ∧ (wordAt ws 0).toNat % 256 = 1

theorem writeMessage_firmware {fw : Bool} (h : s.toFirmware p fw ws) :
    s.writeMessage p fw ws = s.onPlat fun y => { y with fwmsgs := y.fwmsgs ++ [ws] } :=
  if_pos (by simpa [State.toFirmware] using h)

theorem writeMessage_room {fw : Bool} (h : ¬ s.toFirmware p fw ws) (he : (s.part p).msgEn = true)
    (hr : ringUsed (s.part p).msghead (s.part p).msgtail < 2 ^ (s.part p).msgLsize) :
    s.writeMessage p fw ws =
      let t := (s.ringEntry p ((s.part p).msgbase + 64 * ((s.part p).msgtail.toNat % 2 ^ (s.part p).msgLsize)) ws).onPart p
        fun q => { q with msgtail := q.msgtail + 1 }
      if (s.part p).msgFlagEn && (s.part p).hasSup then t.engineFlag (coreOf (s.part p).supctx) (s.part p).msgFlag else t :=
  (if_neg (by simpa [State.toFirmware] using h)).trans (if_pos (by simpa [he] using hr))

theorem writeMessage_lost {fw : Bool} (h : ¬ s.toFirmware p fw ws)
    (hr : ¬ ((s.part p).msgEn = true ∧ ringUsed (s.part p).msghead (s.part p).msgtail < 2 ^ (s.part p).msgLsize)) :
    s.writeMessage p fw ws = s.onPart p fun q => { q with msglost := sat32 q.msglost } :=
  (if_neg (by simpa [State.toFirmware] using h)).trans (if_neg (by simpa using hr))

theorem preempts_writeMessage (fw : Bool) : (s.writeMessage p fw ws).plat.preempts = s.plat.preempts := by
  have hm (ia : Nat) : (s.ringEntry p ia ws).plat.preempts = s.plat.preempts := by rw [(ringEntry_memOnly s p ia ws).plat]
  by_cases hf : s.toFirmware p fw ws
  · rw [writeMessage_firmware hf]; rfl
  by_cases hr : (s.part p).msgEn = true ∧ ringUsed (s.part p).msghead (s.part p).msgtail < 2 ^ (s.part p).msgLsize
  · rw [writeMessage_room hf hr.1 hr.2]
    dsimp only
    split <;> exact hm _
  · rw [writeMessage_lost hf hr]; rfl

/-- No PREEMPT waits for the message: it is written, and that is all (R431). -/
theorem sendPost_message {k : Nat} (fw : Bool) (h : k ∉ s.plat.preempts) :
    s.sendPost k (.message p fw ws) = s.writeMessage p fw ws := by
  have hd : (s.writeMessage p fw ws).preemptDone k = s.writeMessage p fw ws :=
    if_neg (by simpa [preempts_writeMessage] using h)
  rw [State.sendPost, hd, ite_self]

theorem part_engineFlag (s : State) (core flag k : Nat) : (s.engineFlag core flag).part k = s.part k := rfl

/-- The flag of the ring is set after the current cycle (R326, R412). -/
theorem mem_flagOps_engineFlag (s : State) (core flag : Nat) : ∃ due, s.cycle < due ∧
    { due := due, flag := flag, set := true, issued := s.cycle } ∈ ((s.engineFlag core flag).core core).flagOps := by
  rw [State.engineFlag, State.flagOp, State.core_onCore_self]
  exact ⟨_, by omega, List.mem_append_right _ (List.mem_singleton.2 rfl)⟩

end

/-- Memory is as the write of an entry of a ring leaves it, and no post has been added or sent. -/
structure Entered (s t : State) (p ia : Nat) (ws : List Word) : Prop where
  outbox : t.outbox = s.outbox
  mem : t.mem = (s.ringEntry p ia ws).mem
  coats : t.coats = (s.ringEntry p ia ws).coats
  lines : t.lines = (s.ringEntry p ia ws).lines

/-- A line that the ring's partition holds takes the words of the entry (R179). -/
theorem Entered.line {s t : State} {p ia : Nat} {ws : List Word} (h : Entered s t p ia ws) (hl : ws.length = 8) {ln : Line}
    (hr : iaRegion ia ≤ 7) (ha : ia % 64 = 0) (hf : Tbl.find s.lines (ia / 64) = some ln) (ho : ln.owner = p) :
    ∃ x, Patched x ln.data 0 64 (leNat (bytesOfWords ws)) ∧
      Tbl.find t.lines (ia / 64) = some { ln with data := x, dirty := true } := by
  rw [h.lines]
  exact s.writeBytes_line (by rw [length_bytesOfWords, hl]) hr ha hf ho

section
variable {s : State} {p : Nat} {ws : List Word}

theorem entered_onPart (ia : Nat) (g : Part → Part) : Entered s ((s.ringEntry p ia ws).onPart p g) p ia ws :=
  ⟨s.writeBytes_outbox _ _ _ _, rfl, rfl, rfl⟩

theorem Entered.engineFlag {t : State} {ia : Nat} (h : Entered s t p ia ws) (core flag : Nat) :
    Entered s (t.engineFlag core flag) p ia ws := ⟨h.outbox, h.mem, h.coats, h.lines⟩

theorem part_entered (ia : Nat) (g : Part → Part) : ((s.ringEntry p ia ws).onPart p g).part p = g (s.part p) := by
  rw [State.part_onPart_self, part_ringEntry]

/-- A message that its ring has room for (R412). -/
theorem writeMessage_entered {fw : Bool} (hf : ¬ s.toFirmware p fw ws) (he : (s.part p).msgEn = true)
    (hr : ringUsed (s.part p).msghead (s.part p).msgtail < 2 ^ (s.part p).msgLsize) :
    let r := s.part p
    let t := s.writeMessage p fw ws
    Entered s t p (r.msgbase + 64 * (r.msgtail.toNat % 2 ^ r.msgLsize)) ws ∧
      t.part p = { r with msgtail := r.msgtail + 1 } ∧
      (r.msgFlagEn = true → r.hasSup = true → ∃ due, s.cycle < due ∧
        { due := due, flag := r.msgFlag, set := true, issued := s.cycle } ∈ (t.core (coreOf r.supctx)).flagOps) := by
  intro r t
  have ht : t = _ := writeMessage_room hf he hr
  dsimp only at ht
  split at ht
  · rw [ht]
    refine ⟨(entered_onPart _ _).engineFlag _ _, (part_engineFlag _ _ _ _).trans (part_entered _ _), fun _ _ => ?_⟩
    have hcycle (ia : Nat) (g : Part → Part) : ((s.ringEntry p ia ws).onPart p g).cycle = s.cycle :=
      (ringEntry_memOnly s p ia ws).cycle
    have hflag := mem_flagOps_engineFlag ((s.ringEntry p (r.msgbase + 64 * (r.msgtail.toNat % 2 ^ r.msgLsize)) ws).onPart p
      fun q => { q with msgtail := q.msgtail + 1 }) (coreOf r.supctx) r.msgFlag
    rwa [hcycle] at hflag
  · rename_i hn
    rw [ht]
    exact ⟨entered_onPart _ _, part_entered _ _, fun hfe hsup => absurd (Bool.and_eq_true_iff.2 ⟨hfe, hsup⟩) hn⟩

/-- A record that its ring has room for (R374). -/
theorem writeRecord_entered (he : (s.part p).sqEn = true)
    (hr : ringUsed (s.part p).sqhead (s.part p).sqtail < 2 ^ (s.part p).sqLsize) :
    let r := s.part p
    let t := s.writeRecord p ws
    Entered s t p (r.sqbase + 64 * (r.sqtail.toNat % 2 ^ r.sqLsize)) ws ∧ t.part p = { r with sqtail := r.sqtail + 1 } := by
  intro r t
  rw [show t = _ from writeRecord_room he hr]
  exact ⟨entered_onPart _ _, part_entered _ _⟩

end

theorem ringsFill : RingsFill := by
  intro s k p ws fw hb ht hg hl u r slot put kind toFirmware time stopped
  have hstep := step_flushOut hb ht hg
  have leaves {e : Nat × Post} (ho : s.outbox = [e]) (hm : s.mayLeave e = true) : step s = .next (u.sendPost e.1 e.2) := by
    rw [hstep ⟨e, by simp [ho], hm⟩, flushOut_one ho hm]
  have hput {t : State} {ia : Nat} (h : Entered u t p ia ws) : put t ia :=
    ⟨h.mem, h.coats, h.lines, fun _ => h.line hl⟩
  refine ⟨fun ho he hr => ?recordRoom, fun ho hr => ?recordLost, fun ho hs hk => ?message, ?behind, ?two⟩
  case recordRoom =>
    obtain ⟨hent, hpart⟩ := writeRecord_entered (s := u) (ws := ws) he hr
    exact ⟨_, leaves ho rfl, hent.outbox, hput hent, hpart⟩
  case recordLost => exact (leaves ho rfl).trans (congrArg _ (writeRecord_lost (s := u) hr))
  case message =>
    have hsend := (leaves ho (mayLeave_of_none_stopping hs _)).trans (congrArg _ (sendPost_message (s := u) (p := p) fw hk))
    refine ⟨fun hf => hsend.trans (congrArg _ (writeMessage_firmware (s := u) hf)), fun hf he hr => ?_,
      fun hf hr => hsend.trans (congrArg _ (writeMessage_lost (s := u) hf hr))⟩
    obtain ⟨hent, hpart, hflag⟩ := writeMessage_entered (s := u) hf he hr
    exact ⟨_, hsend, hent.outbox, hput hent, hpart, hflag⟩
  case behind =>
    intro j q rs y z m ho hy hp hz hm hlt
    rw [hstep ⟨(j, .record q rs), by simp [ho], rfl⟩, flushOut_first ho rfl (mayLeave_behind hy hp hz hm hlt)]
  case two =>
    intro a b hs ho
    have hm := mayLeave_of_none_stopping hs
    rw [hstep ⟨a, by simp [ho], hm a⟩, flushOut_two ho (hm a) (hm b)]
    rfl

/-- Settles O50: each register's write, and each post that leaves, by the case of the model that it is. -/
theorem registerWritesAndHeads : Obligations.RegisterWritesAndHeads := ⟨queueRegisters, ringsFill, registerWrites⟩

end Sys2Proof.Machine
end

section
/-! SUPPORT for the family of numbers: when a slot word does what its description says, tiles built lane by lane, and rows laid
one after the other. -/

namespace Sys2Proof.Machine
open Sys2Proof.Claims

/-! ### Words that do what they say -/

/-- A slot word whose waits and causes are ruled out by `c` does what its body says. -/
theorem doesIf_slotOp {c : Prop} {i : Instr} {pred : Option (BitVec 4)} {u : Uses} {wait : State → Option (Bool × State)}
    {causes : State → List Cause} {body : State → State} {s t : State}
    (he : exec i s = slotOp i pred u false wait causes body s) (hp : pred = predOf i) (hv : ∀ n ∈ u.rv ++ u.wv, n ∈ vregsOf i)
    (hw : c → wait s = none) (hc : c → causes s = []) (hb : body s = t) : DoesIf c i s t := by
  intro h hl
  rw [he, ← hb]
  refine Ready.slotOp (h.imp_right And.left) hl (.inl hp) hv (fun hs _ => hw ?_) (fun hs _ => hc ?_)
  all_goals
    rcases h with h | h
    · rw [hs] at h; cases h
    · exact h.2

theorem waitEngine_none {t : State → Nat} {n : Nat} {s : State} (h : EngineFree (t s) n s) : waitEngine t n s = none := by
  simp [waitEngine, waitIf, h.2, Nat.not_lt.2 h.1]

/-! ### Tiles -/

@[simp] theorem length_tileOf (f : Nat → Lane) : (tileOf f).length = 1024 := by simp [tileOf]

theorem tileOf_congr {f g : Nat → Lane} (h : ∀ j, j < 1024 → f j = g j) : tileOf f = tileOf g :=
  List.map_congr_left fun j hj => h j (List.mem_range.1 hj)

/-! ### Lists -/

theorem getD_map_range {α : Type} (f : Nat → α) {n i : Nat} (d : α) (h : i < n) : ((List.range n).map f).getD i d = f i := by
  simp [h]

/-- An element of rows of `n` laid one after the other. -/
theorem getD_flatMap {α β : Type} (f : α → List β) {n : Nat} (l : List α) (hf : ∀ a ∈ l, (f a).length = n) (d : β)
    {k c : Nat} (hc : c < n) (a : α) (hk : l[k]? = some a) : (l.flatMap f).getD (n * k + c) d = (f a).getD c d := by
  induction l generalizing k with
  | nil => simp at hk
  | cons x xs ih =>
    have hx : (f x).length = n := hf x (by simp)
    rw [List.flatMap_cons]
    cases k with
    | zero =>
      obtain rfl : x = a := by simpa using hk
      rw [Nat.mul_zero, Nat.zero_add, List.getD_append _ _ _ _ (by omega)]
    | succ k =>
      rw [List.getD_append_right _ _ _ _ (by rw [hx, Nat.mul_succ]; omega)]
      rw [← ih (fun y hy => hf y (by simp [hy])) (by simpa using hk), hx]
      congr 1
      rw [Nat.mul_succ]
      omega

end Sys2Proof.Machine
end

section
/-! Rounding to the nearest, ties to even (R57), of magnitudes and of integers. -/

namespace Sys2Proof.Machine
open Sys2Proof.Claims

/-- A magnitude less than half a step rounds to 0. -/
theorem nearestEven_zero {m k : Nat} (h : 2 * m < 2 ^ k) : NearestEven m k 0 := by
  have h' : (2 * m : Int) < 2 ^ k := by exact_mod_cast h
  have ha : |(m : Int) - 0 * 2 ^ k| = m := by rw [zero_mul, sub_zero]; exact abs_of_nonneg (Int.natCast_nonneg m)
  exact ⟨by rw [ha]; exact h'.le, fun _ => rfl⟩

/-- The integers themselves are kept. -/
theorem nearestEven_self (x : Int) : NearestEven x 0 x := by
  constructor
  · simp
  · intro h
    simp at h

/-- Rounding is the same on both sides of 0. -/
theorem NearestEven.neg {x v : Int} {k : Nat} (h : NearestEven x k v) : NearestEven (-x) k (-v) := by
  have ha : |-x - -v * 2 ^ k| = |x - v * 2 ^ k| := by rw [← abs_neg]; ring_nf
  exact ⟨by rw [ha]; exact h.1, fun ht => by rw [ha] at ht; have := h.2 ht; omega⟩

theorem shrRne_nearestEven (m k : Nat) : NearestEven m k (shrRne m k) := by
  cases k with
  | zero =>
    have h : shrRne m 0 = m := by simp [shrRne]
    rw [h]
    exact nearestEven_self m
  | succ k =>
    have hpow : 2 ^ (k + 1) = 2 * 2 ^ k := Nat.pow_succ'
    have hpos : 0 < 2 ^ k := Nat.pow_pos (by decide)
    obtain ⟨q, r, hm, hr, hq⟩ : ∃ q r, m = q * 2 ^ (k + 1) + r ∧ r < 2 ^ (k + 1) ∧ q = m / 2 ^ (k + 1) :=
      ⟨_, _, (Nat.div_add_mod' m _).symm, Nat.mod_lt _ (by omega), rfl⟩
    have hsub : m - q <<< (k + 1) = r := by rw [Nat.shiftLeft_eq]; omega
    have hs : shrRne m (k + 1) = if 2 ^ k < r ∨ (r = 2 ^ k ∧ q % 2 = 1) then q + 1 else q := by
      rw [shrRne, Nat.shiftRight_eq_div_pow, ← hq, hsub, hpow]
      refine if_congr ?_ rfl rfl
      simp only [Bool.or_eq_true, Bool.and_eq_true, decide_eq_true_eq, beq_iff_eq, bne_iff_ne]
      omega
    have hpow' : (2 : Int) ^ (k + 1) = 2 * 2 ^ k := pow_succ' 2 k
    have hr' : (r : Int) < 2 * 2 ^ k := by rw [← hpow']; exact_mod_cast hr
    have hm' : (m : Int) = q * (2 * 2 ^ k) + r := by rw [← hpow', hm]; push_cast; rfl
    rw [NearestEven, hs, hm', hpow']
    split
    · rename_i hup
      have ha : |(q : Int) * (2 * 2 ^ k) + r - ((q + 1 : Nat) : Int) * (2 * 2 ^ k)| = 2 * 2 ^ k - r := by
        rw [show (q : Int) * (2 * 2 ^ k) + r - ((q + 1 : Nat) : Int) * (2 * 2 ^ k) = -(2 * 2 ^ k - r) by push_cast; ring,
          abs_neg, abs_of_nonneg (by omega)]
      rw [ha]
      rcases hup with hup | ⟨hup, hodd⟩
      · have : (2 : Int) ^ k < r := by exact_mod_cast hup
        exact ⟨by omega, fun h => by omega⟩
      · have : (r : Int) = 2 ^ k := by exact_mod_cast hup
        exact ⟨by omega, fun _ => by omega⟩
    · rename_i hdown
      have ha : |(q : Int) * (2 * 2 ^ k) + r - (q : Int) * (2 * 2 ^ k)| = r := by
        rw [add_sub_cancel_left]; exact abs_of_nonneg (Int.natCast_nonneg r)
      rw [ha]
      have hle : r ≤ 2 ^ k := by omega
      have hle' : (r : Int) ≤ 2 ^ k := by exact_mod_cast hle
      refine ⟨by omega, fun h => ?_⟩
      have : (r : Int) = 2 ^ k := by omega
      have : r = 2 ^ k := by exact_mod_cast this
      omega

end Sys2Proof.Machine
end

section
/-! O13: reductions and scans (R55, R77, R78, R158, R159). -/

namespace Sys2Proof.Machine
open Sys2Proof.Claims

/-! ### Words whose last field is out of its limit (R22, R47) -/

section
variable (op : BitVec 8) (p : BitVec 4) (d a o : BitVec 6)

/-- The word of a VB instruction whose last field has six bits and stands above two reserved ones (R47). -/
def vbWord : BitVec 32 := op ++ p ++ d ++ a ++ o ++ 0#2

theorem fld_vbWord_op : fld (vbWord op p d a o) 24 8 = op := by
  unfold vbWord fld
  simp only [BitVec.extractLsb'_append_eq_ite]
  simp

theorem fld_vbWord_last : fld (vbWord op p d a o) 2 6 = o := by
  unfold vbWord fld
  simp only [BitVec.extractLsb'_append_eq_ite]
  simp

/-- Its reserved bits are 0. -/
theorem vbWord_and_mask : vbWord op p d a o &&& 0xFF000003 = op ++ 0#24 := by
  have hop : op &&& 0xFF#8 = op := BitVec.and_allOnes
  have h : (op ++ p ++ d ++ a ++ o ++ 0#2) &&& (0xFF#8 ++ 0#4 ++ 0#6 ++ 0#6 ++ 0#6 ++ 3#2) =
      op ++ 0#4 ++ 0#6 ++ 0#6 ++ 0#6 ++ 0#2 := by
    simp only [BitVec.and_append, BitVec.and_zero, BitVec.zero_and, hop]
  refine h.trans (BitVec.eq_of_toNat_eq ?_)
  simp only [BitVec.toNat_append, BitVec.toNat_ofNat, Nat.shiftLeft_eq, Nat.or_zero, Nat.zero_mod]
  omega

theorem decodeSlot_vbWord (h0 : op ≠ 0) (hf : op ≠ 0xFF) :
    decodeSlot 3 (vbWord op p d a o) = decodeVB op.toNat (vbWord op p d a o) := by
  have hop := fld_vbWord_op op p d a o
  have hw : vbWord op p d a o ≠ 0 := fun h => h0 (by rw [← hop, h]; rfl)
  have h0' : op.toNat ≠ 0 := fun h => h0 (BitVec.eq_of_toNat_eq h)
  have hf' : op.toNat ≠ 0xFF := fun h => hf (BitVec.eq_of_toNat_eq h)
  rw [decodeSlot, if_neg (by decide), if_neg hw, hop]
  exact (if_neg h0').trans (if_neg hf')

end

theorem decodeRow_badLimit {mask pat w : BitVec 32} {i : Instr} (hm : w &&& mask = pat) (hw : i.wf = false) :
    decodeRow mask pat w i = .error .badLimit := by
  rw [decodeRow, if_pos hm, if_neg (by simp [hw])]

section
variable (p : BitVec 4) (d a : BitVec 6) {o : BitVec 6}

theorem decode_rred_badLimit (h : 6 ≤ o.toNat) : decodeSlot 3 (encode (.rred p d a o)) = .error .badLimit := by
  refine (decodeSlot_vbWord 8 p d a o (by decide) (by decide)).trans (decodeRow_badLimit (vbWord_and_mask _ _ _ _ _) ?_)
  rw [fld_vbWord_last]
  exact decide_eq_false (by omega)

theorem decode_cred_badLimit (h : 6 ≤ o.toNat) : decodeSlot 3 (encode (.cred p d a o)) = .error .badLimit := by
  refine (decodeSlot_vbWord 9 p d a o (by decide) (by decide)).trans (decodeRow_badLimit (vbWord_and_mask _ _ _ _ _) ?_)
  rw [fld_vbWord_last]
  exact decide_eq_false (by omega)

theorem decode_rscan_badLimit (h0 : o ≠ 0) (h3 : o ≠ 3) (h6 : o ≠ 6) :
    decodeSlot 3 (encode (.rscan p d a o)) = .error .badLimit := by
  have ne {k : BitVec 6} (h : o ≠ k) : o.toNat ≠ k.toNat := fun e => h (BitVec.eq_of_toNat_eq e)
  refine (decodeSlot_vbWord 10 p d a o (by decide) (by decide)).trans (decodeRow_badLimit (vbWord_and_mask _ _ _ _ _) ?_)
  rw [fld_vbWord_last]
  simpa [Instr.wf] using ⟨⟨ne h0, ne h3⟩, ne h6⟩

end

/-! ### The fixed tree as a fold of its levels (R77) -/

/-- A level of a tree: position `c` takes `c` and `c + h`. -/
def redLevel (node : Nat → Lane → Lane → Lane) (l : Nat → Lane) (h : Nat) : Nat → Lane := fun c => node c (l c) (l (c + h))

/-- The levels halve `m` lanes, one after the other, to a single one. -/
def Halving : Nat → List Nat → Prop
  | m, [] => m = 1
  | m, h :: hs => m = 2 * h ∧ Halving h hs

theorem redTree_eq_foldl (op : Nat) (org : Nat → Lane) (hs : List Nat) {m : Nat} (hm : Halving m hs) (l : List Lane)
    (f : Nat → Lane) (hl : ∀ i, i < m → l.getD i 0 = f i) :
    redTree op org hs l = hs.foldl (redLevel fun c => redNode op (org c)) f 0 := by
  induction hs generalizing m l f with
  | nil => exact hl 0 (by rw [show m = 1 from hm]; decide)
  | cons h hs ih =>
    obtain ⟨rfl, hh⟩ := hm
    refine ih hh _ _ fun i hi => ?_
    rw [getD_map_range _ _ hi, hl i (by omega), hl (i + h) (by omega)]
    rfl

theorem redRow_eq_foldl (op : Nat) (pc : Word) (t : Tile) (r : Nat) : redRow op pc t r =
    [32, 16, 8, 4, 2, 1].foldl (redLevel fun c => redNode op (originNaN pc (64 * r + c))) (fun c => lane t (64 * r + c)) 0 :=
  redTree_eq_foldl _ _ _ (m := 64) (by simp [Halving]) _ _ fun _ hi => getD_map_range _ _ hi

theorem redCol_eq_foldl (op : Nat) (pc : Word) (t : Tile) (c : Nat) : redCol op pc t c =
    [8, 4, 2, 1].foldl (redLevel fun r => redNode op (originNaN pc (64 * r + c))) (fun r => lane t (64 * r + c)) 0 :=
  redTree_eq_foldl _ _ _ (m := 16) (by simp [Halving]) _ _ fun _ hi => getD_map_range _ _ hi

/-! ### The scan as a fold of the columns before (R78) -/

@[simp] theorem length_scanFrom (op : Nat) (org : Nat → Lane) (xs : List Lane) (y : Lane) (c : Nat) :
    (scanFrom op org y c xs).length = xs.length := by
  induction xs generalizing y c with
  | nil => rfl
  | cons x xs ih => simp [scanFrom, ih]

theorem scanFrom_getD (op : Nat) (org : Nat → Lane) (xs : List Lane) (y : Lane) (c k : Nat) (hk : k < xs.length) :
    (scanFrom op org y c xs).getD k 0 =
      (List.range (k + 1)).foldl (fun z j => redNode op (org (c + j)) z (xs.getD j 0)) y := by
  induction xs generalizing y c k with
  | nil => simp at hk
  | cons x xs ih =>
    rw [List.range_succ_eq_map, List.foldl_cons, List.foldl_map]
    cases k with
    | zero => rfl
    | succ k =>
      refine (ih _ (c + 1) k (by simpa using hk)).trans ?_
      simp only [Nat.succ_eq_add_one, List.getD_cons_succ, List.getD_cons_zero, Nat.add_zero,
        Nat.add_right_comm c 1, ← Nat.add_assoc]

theorem length_scanRow (op : Nat) (pc : Word) (t : Tile) (r : Nat) : (scanRow op pc t r).length = 64 := by simp [scanRow]

theorem scanRow_getD (op : Nat) (pc : Word) (t : Tile) (r c : Nat) (hc : c < 64) : (scanRow op pc t r).getD c 0 =
    (List.range c).foldl (fun y k => redNode op (originNaN pc (64 * r + (k + 1))) y (lane t (64 * r + (k + 1))))
      (lane t (64 * r + 0)) := by
  cases c with
  | zero => rfl
  | succ c =>
    refine (scanFrom_getD _ _ _ _ _ _ (by rw [List.length_map, List.length_range]; omega)).trans ?_
    refine List.foldl_ext _ _ _ fun y k hk => ?_
    rw [getD_map_range _ _ (by have := List.mem_range.1 hk; omega), Nat.add_comm 1 k, Nat.add_assoc]

/-! ### The words -/

section
variable {s : State} (p : BitVec 4) (d a o : BitVec 6) {i : Instr} {rs : List (BitVec 5)} {rv : List (BitVec 6)} {lat : Nat}
  {f : State → Nat → Lane} {g : Nat → Nat → Lane}

/-- A VB word that writes a tile waits for its engine and has no causes of its own. -/
theorem doesIf_vbOp (he : exec i s = vbOp i p rs rv d lat f s) (hp : predOf i = some p) (hv : ∀ n ∈ rv ++ [d], n ∈ vregsOf i)
    (hf : ∀ j, j < 1024 → f s j = g (j / 64) (j % 64)) :
    DoesIf (EngineFree s.ico.vbFree 4 s) i s
      ((s.result lat (.tile (s.cx.phys d.toNat) (tileOf fun j => g (j / 64) (j % 64)))).onCore s.iss.core fun y =>
        { y with vbFree := s.cycle + 4 }) := by
  refine doesIf_slotOp he hp.symm hv (fun h => waitEngine_none (t := fun s => s.ico.vbFree) h) (fun _ => rfl) ?_
  rw [tileOf_congr hf]
  rfl

end

theorem redNode_max (g u v : Lane) : redNode 4 g u v = BitVec.ofInt 32 (max u.toInt v.toInt) := by
  change (if u.sle v then v else u) = _
  by_cases h : u.toInt ≤ v.toInt
  · rw [if_pos (by simpa [BitVec.sle] using h), max_eq_right h, BitVec.ofInt_toInt]
  · rw [if_neg (by simpa [BitVec.sle] using h), max_eq_left (not_le.1 h).le, BitVec.ofInt_toInt]

theorem redNode_min (g u v : Lane) : redNode 5 g u v = BitVec.ofInt 32 (min u.toInt v.toInt) := by
  change (if u.sle v then u else v) = _
  by_cases h : u.toInt ≤ v.toInt
  · rw [if_pos (by simpa [BitVec.sle] using h), min_eq_left h, BitVec.ofInt_toInt]
  · rw [if_neg (by simpa [BitVec.sle] using h), min_eq_right (not_le.1 h).le, BitVec.ofInt_toInt]

theorem redNode_sum (g u v : Lane) : redNode 3 g u v = BitVec.ofInt 32 (u.toInt + v.toInt) := by
  rw [BitVec.ofInt_add, BitVec.ofInt_toInt, BitVec.ofInt_toInt]
  rfl

theorem vectorReductions : VectorReductions := by
  intro s p d a o x node go level row col scan
  have index {j : Nat} (h : j < 1024) : 64 * (j / 64) + j % 64 = j ∧ j / 64 < 16 ∧ j % 64 < 64 := by omega
  refine ⟨fun _ => ⟨?row, ?column⟩, fun h => ⟨decode_rred_badLimit p d a h, decode_cred_badLimit p d a h⟩, fun _ => ?scan,
    fun h0 h3 h6 => decode_rscan_badLimit p d a h0 h3 h6, fun g u v => ?node⟩
  case row =>
    refine doesIf_vbOp p d (g := fun r _ => row r) (show exec (.rred p d a o) s = execRred p d a o s from rfl) rfl (by simp [vregsOf]) fun j hj => ?_
    exact (getD_map_range _ _ (index hj).2.1).trans (redRow_eq_foldl _ _ _ _)
  case column =>
    refine doesIf_vbOp p d (g := fun _ c => col c) (show exec (.cred p d a o) s = execCred p d a o s from rfl) rfl (by simp [vregsOf]) fun j hj => ?_
    exact (getD_map_range _ _ (index hj).2.2).trans (redCol_eq_foldl _ _ _ _)
  case scan =>
    refine doesIf_vbOp p d (g := scan) (show exec (.rscan p d a o) s = execRscan p d a o s from rfl) rfl (by simp [vregsOf]) fun j hj => ?_
    obtain ⟨hj', hr, hc⟩ := index hj
    refine Eq.trans ?_ (scanRow_getD _ _ _ _ _ hc)
    have h := getD_flatMap (scanRow o.toNat s.iss.pc (s.vreg a)) (List.range 16) (fun r _ => length_scanRow _ _ _ r) 0 hc
      (j / 64) (List.getElem?_range hr)
    rwa [hj'] at h
  case node => exact ⟨rfl, rfl, rfl, redNode_sum g u v, redNode_max g u v, redNode_min g u v, rfl⟩

/-! ### The integer sum of a row (R55) -/

/-- A tree of integer sums is the sum of its lanes. -/
theorem toNat_foldl_redLevel_sum (org : Nat → Lane) (hs : List Nat) {m : Nat} (hm : Halving m hs) (f : Nat → Lane) :
    (hs.foldl (redLevel fun c => redNode 3 (org c)) f 0).toNat = ((List.range m).map fun c => (f c).toNat).sum % 2 ^ 32 := by
  induction hs generalizing m f with
  | nil =>
    obtain rfl : m = 1 := hm
    simp [Nat.mod_eq_of_lt (f 0).isLt]
  | cons h hs ih =>
    obtain ⟨rfl, hh⟩ := hm
    have hmod (l : List Nat) (g k : Nat → Nat) (hgk : ∀ c, g c = k c % 2 ^ 32) :
        (l.map g).sum % 2 ^ 32 = (l.map k).sum % 2 ^ 32 := by
      induction l with
      | nil => rfl
      | cons c l ih => simp only [List.map_cons, List.sum_cons, hgk, Nat.mod_add_mod, Nat.add_mod _ (l.map _).sum, ih]
    refine (ih hh _).trans ((hmod _ _ (fun c => (f c).toNat + (f (c + h)).toNat) fun c => BitVec.toNat_add _ _).trans ?_)
    rw [List.sum_map_add, Nat.two_mul, List.range_add, List.map_append, List.sum_append, List.map_map]
    simp only [Function.comp_def, Nat.add_comm h]

theorem rowSumIsTheSum : RowSumIsTheSum := by
  intro pc t r _
  rw [redRow_eq_foldl]
  exact toNat_foldl_redLevel_sum _ _ (m := 64) (by simp [Halving]) _

/-- Settles O13: the trees as folds of their levels, the scan as a fold of the columns before, and the integer sum by induction
on the levels. -/
theorem reductionsAndScans : Obligations.ReductionsAndScans := ⟨vectorReductions, rowSumIsTheSum⟩

end Sys2Proof.Machine
end

section
/-! O27: rounding to F32 (R54, R56, R57). -/

namespace Sys2Proof.Machine
open Sys2Proof.Claims

/-! ### Patterns and what they stand for (R56) -/

/-- The value of a lane by its sign, its exponent field and its fraction. -/
def f32Value (neg : Bool) (ex fr : Nat) : Fv :=
  if ex = 255 then (if fr = 0 then .inf neg else .nan)
  else if ex = 0 then .fin neg fr (-149) else .fin neg (2 ^ 23 + fr) (ex - 150)

theorem fv_eq (y : Lane) : fv y = f32Value (y.toNat / 2 ^ 31 % 2 == 1) (y.toNat / 2 ^ 23 % 256) (y.toNat % 2 ^ 23) := by
  have hbias : ((y.toNat / 2 ^ 23 % 256 : Nat) : Int) - (fmtF32.bias : Nat) - (23 : Nat) =
      ((y.toNat / 2 ^ 23 % 256 : Nat) : Int) - 150 := by
    rw [show fmtF32.bias = 127 from rfl]; omega
  have hdef : fv y = if (y.toNat / 2 ^ 23 % 256 == 255) = true then
        (if (y.toNat % 2 ^ 23 == 0) = true then .inf (y.toNat / 2 ^ 31 % 2 == 1) else .nan)
      else if (y.toNat / 2 ^ 23 % 256 == 0) = true then .fin (y.toNat / 2 ^ 31 % 2 == 1) (y.toNat % 2 ^ 23) (-149)
      else .fin (y.toNat / 2 ^ 31 % 2 == 1) (2 ^ 23 + y.toNat % 2 ^ 23)
        (((y.toNat / 2 ^ 23 % 256 : Nat) : Int) - (fmtF32.bias : Nat) - (23 : Nat)) := rfl
  rw [hdef, hbias]
  simp only [f32Value, beq_iff_eq]

/-- The lane of a sign, an exponent field and a fraction. -/
def f32Pattern (neg : Bool) (ex fr : Nat) : Lane := BitVec.ofNat 32 ((if neg then 2 ^ 31 else 0) + (ex * 2 ^ 23 + fr))

theorem toNat_f32Pattern (neg : Bool) {ex fr : Nat} (hex : ex < 256) (hfr : fr < 2 ^ 23) :
    (f32Pattern neg ex fr).toNat = (if neg then 2 ^ 31 else 0) + (ex * 2 ^ 23 + fr) := by
  rw [f32Pattern, BitVec.toNat_ofNat]
  refine Nat.mod_eq_of_lt ?_
  split <;> omega

theorem fv_f32Pattern (neg : Bool) {ex fr : Nat} (hex : ex < 256) (hfr : fr < 2 ^ 23) :
    fv (f32Pattern neg ex fr) = f32Value neg ex fr := by
  rw [fv_eq, toNat_f32Pattern neg hex hfr]
  cases neg with
  | false =>
    simp only [Bool.false_eq_true, if_false]
    congr 1
    · exact beq_eq_false_iff_ne.2 (by omega)
    · omega
    · omega
  | true =>
    simp only [if_true]
    congr 1
    · exact beq_iff_eq.2 (by omega)
    · omega
    · omega

/-- A finite lane's magnitude has 24 bits, and no place below 2^-149. -/
theorem fv_fin_bounds {y : Lane} {neg : Bool} {m : Nat} {e : Int} (h : fv y = .fin neg m e) : m < 2 ^ 24 ∧ -149 ≤ e := by
  rw [fv_eq, f32Value] at h
  split at h
  · split at h <;> cases h
  · split at h
    · cases h; omega
    · cases h; omega

/-! ### Packing (R56, R57) -/

/-- A magnitude from 2^128 on packs to the pattern given for it. -/
theorem pack_big (neg : Bool) {m : Nat} (hm : m ≠ 0) {e : Int} (big : Nat) (h : 128 ≤ e + m.log2) :
    fmtF32.pack neg m e big = (if neg then 2 ^ 31 else 0) + big := by
  unfold FFmt.pack
  rw [if_neg hm]
  exact if_pos (by simp only [show fmtF32.ieee = true from rfl, if_true, show fmtF32.bias = 127 from rfl]; omega)

/-- A subnormal magnitude packs to its number of steps of 2^-149. -/
theorem pack_subnormal (neg : Bool) {m : Nat} {e : Int} (big : Nat) (h : m = 0 ∨ e + m.log2 < -126) :
    fmtF32.pack neg m e big = (if neg then 2 ^ 31 else 0) + (0 * 2 ^ 23 + m * 2 ^ (e + 149).toNat) := by
  by_cases hm : m = 0
  · simp [FFmt.pack, hm, show fmtF32.eb + fmtF32.fb = 31 from rfl]
  · have hlt := h.resolve_left hm
    unfold FFmt.pack
    rw [if_neg hm]
    refine (if_neg ?_).trans ((if_pos ?_).trans ?_)
    · simp only [show fmtF32.ieee = true from rfl, if_true, show fmtF32.bias = 127 from rfl]; omega
    · rw [show fmtF32.emin = -126 from rfl]; exact hlt
    · rw [show e - fmtF32.qmin = e + 149 from by rw [show fmtF32.qmin = -149 from rfl]; omega, Nat.zero_mul, Nat.zero_add]
      rfl

/-- A normal magnitude of 24 bits packs to its exponent field and its fraction. -/
theorem pack_normal (neg : Bool) {m : Nat} (hm : m ≠ 0) {e : Int} (big : Nat) (h1 : -126 ≤ e + m.log2) (h2 : e + m.log2 < 128) :
    fmtF32.pack neg m e big = (if neg then 2 ^ 31 else 0) + ((e + m.log2 + 127).toNat * 2 ^ 23 +
      ((if m.log2 ≤ 23 then m * 2 ^ (23 - m.log2) else m / 2 ^ (m.log2 - 23)) - 2 ^ 23)) := by
  unfold FFmt.pack
  rw [if_neg hm]
  refine (if_neg ?_).trans ((if_neg ?_).trans ?_)
  · simp only [show fmtF32.ieee = true from rfl, if_true, show fmtF32.bias = 127 from rfl]; omega
  · rw [show fmtF32.emin = -126 from rfl]; omega
  · simp only [Nat.shiftLeft_eq, Nat.shiftRight_eq_div_pow, Nat.add_assoc]
    rfl

/-! ### The rational that a pattern stands for -/

/-- The sign as a factor. -/
def signQ (neg : Bool) : ℚ := if neg then -1 else 1

theorem abs_signQ (neg : Bool) : |signQ neg| = 1 := by cases neg <;> simp [signQ]

theorem signQ_mul_self (neg : Bool) : signQ neg * signQ neg = 1 := by cases neg <;> simp [signQ]

theorem signQ_xor (a b : Bool) : signQ (a ^^ b) = signQ a * signQ b := by cases a <;> cases b <;> simp [signQ]

/-- Distances do not change with the sign. -/
theorem abs_signQ_sub (neg : Bool) (v y : ℚ) : |signQ neg * v - y| = |v - signQ neg * y| := by
  have h : v - signQ neg * y = signQ neg * (signQ neg * v - y) := by
    rw [mul_sub, ← mul_assoc, signQ_mul_self, one_mul]
  rw [h, abs_mul, abs_signQ, one_mul]

theorem rat_of_fv {y : Lane} {neg : Bool} {m : Nat} {e : Int} (h : fv y = .fin neg m e) : rat y = signQ neg * (m * 2 ^ e) := by
  rw [rat, h]
  exact mul_assoc _ _ _

/-- A power of two as a power in the rationals. -/
theorem zpow_natCast_two (k : Nat) : ((2 ^ k : Nat) : ℚ) = (2 : ℚ) ^ (k : Int) := by rw [zpow_natCast]; norm_cast

theorem zpow_two_pos (e : Int) : (0 : ℚ) < 2 ^ e := zpow_pos (by norm_num) e

theorem zpow_two_add (a b : Int) : (2 : ℚ) ^ (a + b) = 2 ^ a * 2 ^ b := zpow_add₀ (by norm_num) a b

theorem zpow_two_le {a b : Int} (h : a ≤ b) : (2 : ℚ) ^ a ≤ 2 ^ b := zpow_le_zpow_right₀ (by norm_num) h

/-- A number times 2^`e` is the number of steps of 2^`d` that it is. -/
theorem mul_zpow_toNat (m : Nat) {e d : Int} (h : d ≤ e) : ((m * 2 ^ (e - d).toNat : Nat) : ℚ) * 2 ^ d = m * 2 ^ e := by
  rw [Nat.cast_mul, zpow_natCast_two, Int.toNat_of_nonneg (by omega), mul_assoc, ← zpow_two_add]
  congr 2
  omega

theorem rat_f32Pattern (neg : Bool) {ex fr : Nat} (hex : ex < 255) (hfr : fr < 2 ^ 23) :
    IsFin (f32Pattern neg ex fr) ∧ rat (f32Pattern neg ex fr) =
      signQ neg * if ex = 0 then (fr : ℚ) * 2 ^ (-149 : Int) else ((2 ^ 23 + fr : Nat) : ℚ) * 2 ^ ((ex : Int) - 150) := by
  have h := fv_f32Pattern neg (show ex < 256 by omega) hfr
  rw [f32Value, if_neg (by omega)] at h
  split at h
  all_goals
    rename_i h0
    refine ⟨⟨_, _, _, h⟩, ?_⟩
    rw [rat_of_fv h]
  · rw [if_pos h0]
  · rw [if_neg h0]

theorem two_pow_log2_le {m : Nat} (hm : m ≠ 0) (e : Int) : (2 : ℚ) ^ (e + m.log2) ≤ m * 2 ^ e := by
  rw [Int.add_comm, zpow_two_add, ← zpow_natCast_two]
  exact mul_le_mul_of_nonneg_right (Nat.cast_le.2 (Nat.log2_self_le hm)) (zpow_two_pos e).le

theorem lt_two_pow_log2 (m : Nat) (e : Int) : (m : ℚ) * 2 ^ e < 2 ^ (e + m.log2 + 1) := by
  rw [Int.add_assoc, Int.add_comm, zpow_two_add, show (m.log2 : Int) + 1 = (m.log2 + 1 : Nat) by omega, ← zpow_natCast_two]
  exact mul_lt_mul_of_pos_right (Nat.cast_lt.2 Nat.lt_log2_self) (zpow_two_pos e)

theorem lt_of_mul_zpow_lt {m k : Nat} {d : Int} (h : (m : ℚ) * 2 ^ d < 2 ^ (d + k)) : m < 2 ^ k := by
  rw [Int.add_comm, zpow_two_add, ← zpow_natCast_two] at h
  exact_mod_cast lt_of_mul_lt_mul_right h (zpow_two_pos d).le

/-- A magnitude of at most 24 bits, below 2^128, packs to a finite pattern of that value; a whole number of its last places
keeps its parity. -/
theorem pack_value (neg : Bool) {m : Nat} {e : Int} (big : Nat) (hm : m ≤ 2 ^ 24) (he : -149 ≤ e)
    (hv : (m : ℚ) * 2 ^ e < 2 ^ (128 : Int)) : ∃ ex fr, BitVec.ofNat 32 (fmtF32.pack neg m e big) = f32Pattern neg ex fr ∧
      ex < 255 ∧ fr < 2 ^ 23 ∧ rat (f32Pattern neg ex fr) = signQ neg * (m * 2 ^ e) ∧
      (e = -149 ∨ 2 ^ 23 ≤ m → fr % 2 = m % 2) := by
  have hlog (h0 : m ≠ 0) : 2 ^ m.log2 ≤ m := Nat.log2_self_le h0
  have hlog' : m < 2 ^ (m.log2 + 1) := Nat.lt_log2_self
  have h23 (h : 2 ^ 23 ≤ m) : 23 ≤ m.log2 := by
    have := (Nat.pow_lt_pow_iff_right (by decide : 1 < 2)).1 (lt_of_le_of_lt h hlog')
    omega
  by_cases hsub : m = 0 ∨ e + m.log2 < -126
  · have hval : ((m * 2 ^ (e + 149).toNat : Nat) : ℚ) * 2 ^ (-149 : Int) = m * 2 ^ e := mul_zpow_toNat m he
    have hlt : m * 2 ^ (e + 149).toNat < 2 ^ 23 := by
      refine lt_of_mul_zpow_lt (d := -149) ?_
      rw [hval]
      rcases hsub with rfl | h
      · rw [Nat.cast_zero, zero_mul]; exact zpow_two_pos _
      · exact (lt_two_pow_log2 m e).trans_le (zpow_two_le (by omega))
    refine ⟨0, _, congrArg _ (pack_subnormal neg big hsub), by decide, hlt, ?_, fun h => ?_⟩
    · rw [(rat_f32Pattern neg (by decide) hlt).2, if_pos rfl]
      exact congrArg _ hval
    · rcases h with rfl | h
      · rw [show (-149 + 149 : Int).toNat = 0 from rfl, Nat.pow_zero, Nat.mul_one]
      · have := h23 h
        rcases hsub with rfl | h' <;> omega
  · obtain ⟨h0, h1⟩ := not_or.1 hsub
    have h2 : e + m.log2 < 128 := by
      by_contra h2
      exact absurd ((zpow_two_le (not_lt.1 h2)).trans (two_pow_log2_le h0 e)) (not_le.2 hv)
    have hlow := hlog h0
    have pattern {x : Nat} (hlo : 2 ^ 23 ≤ x) (hhi : x < 2 ^ 24) (hx : (x : ℚ) * 2 ^ (e + m.log2 - 23) = m * 2 ^ e) :
        (e + m.log2 + 127).toNat < 255 ∧ x - 2 ^ 23 < 2 ^ 23 ∧
          rat (f32Pattern neg (e + m.log2 + 127).toNat (x - 2 ^ 23)) = signQ neg * (m * 2 ^ e) := by
      have hex : (e + m.log2 + 127).toNat < 255 := by omega
      refine ⟨hex, by omega, ?_⟩
      rw [(rat_f32Pattern neg hex (by omega)).2, if_neg (by omega), Nat.add_sub_cancel' hlo, ← hx,
        show ((e + m.log2 + 127).toNat : Int) - 150 = e + m.log2 - 23 by omega]
    refine ⟨_, _, congrArg _ (pack_normal neg h0 big (by omega) h2), ?_⟩
    by_cases hl : m.log2 ≤ 23
    · rw [if_pos hl]
      have hsplit : 2 ^ 23 = 2 ^ m.log2 * 2 ^ (23 - m.log2) := by rw [← Nat.pow_add, Nat.add_sub_cancel' hl]
      have hlo : 2 ^ 23 ≤ m * 2 ^ (23 - m.log2) := hsplit ▸ Nat.mul_le_mul_right _ hlow
      have hhi : m * 2 ^ (23 - m.log2) < 2 ^ 24 := by
        have h := Nat.mul_lt_mul_of_pos_right hlog' (Nat.pow_pos (n := 23 - m.log2) (by decide : 0 < 2))
        rw [← Nat.pow_add] at h
        exact h.trans_eq (congrArg _ (by omega))
      have hx := mul_zpow_toNat m (show e + m.log2 - 23 ≤ e by omega)
      rw [show (e - (e + m.log2 - 23)).toNat = 23 - m.log2 by omega] at hx
      obtain ⟨hex, hfr, hrat⟩ := pattern hlo hhi hx
      refine ⟨hex, hfr, hrat, fun h => ?_⟩
      have h23' : m.log2 = 23 := by rcases h with h | h <;> [omega; exact le_antisymm hl (h23 h)]
      rw [h23'] at hlow
      rw [h23', Nat.sub_self, Nat.pow_zero, Nat.mul_one]
      omega
    · have hle : 2 ^ 24 ≤ 2 ^ m.log2 := Nat.pow_le_pow_right (by decide) (by omega)
      have hm' : m = 2 ^ 24 := by omega
      have hlog24 : m.log2 = 24 := by rw [hm']; exact Nat.log2_two_pow
      rw [if_neg hl, hlog24, show m / 2 ^ (24 - 23) = 2 ^ 23 by omega]
      obtain ⟨hex, hfr, hrat⟩ := pattern (x := 2 ^ 23) le_rfl (by decide) (by
        rw [hlog24, hm', zpow_natCast_two, zpow_natCast_two, ← zpow_two_add, ← zpow_two_add]
        congr 1
        omega)
      rw [hlog24] at hex hrat
      exact ⟨hex, hfr, hrat, fun _ => by omega⟩

/-! ### The rounded magnitude (R57) -/

/-- What rounding a magnitude `v` to 24 bits gives: the nearest multiple of a power of two that its bits reach. -/
structure RoundedTo (m : Nat) (e : Int) (q : Nat) (d : Int) : Prop where
  least : -149 ≤ d
  near : |(m : ℚ) * 2 ^ e - q * 2 ^ d| ≤ 2 ^ d / 2
  tie : |(m : ℚ) * 2 ^ e - q * 2 ^ d| = 2 ^ d / 2 → q % 2 = 0
  upper : (m : ℚ) * 2 ^ e < 2 ^ (d + 24)
  lower : d ≠ -149 → (2 : ℚ) ^ (d + 23) ≤ m * 2 ^ e

/-- The place of the last bit of the rounded magnitude. -/
def lastPlace (m : Nat) (e : Int) : Int := max (e + m.log2 - 23) (-149)

theorem roundMag_f32 {m : Nat} (hm : m ≠ 0) (e : Int) :
    lastPlace m e ≤ e ∧ roundMag false 24 (-149) m e = (m, e) ∨
    e < lastPlace m e ∧ ∃ q, roundMag false 24 (-149) m e = (q, lastPlace m e) ∧ NearestEven m (lastPlace m e - e).toNat q := by
  have hk : max ((m.log2 : Int) + 1 - (24 : Nat)) (-149 - e) = lastPlace m e - e := by rw [lastPlace]; omega
  unfold roundMag
  simp only [if_neg hm, hk, Bool.false_eq_true, if_false]
  by_cases h : lastPlace m e - e ≤ 0
  · exact .inl ⟨by omega, if_pos h⟩
  · refine .inr ⟨by omega, ?_⟩
    rw [if_neg h, show e + (lastPlace m e - e) = lastPlace m e by omega]
    split
    · rename_i hlt
      refine ⟨0, rfl, nearestEven_zero ?_⟩
      have h1 : m < 2 ^ (m.log2 + 1) := Nat.lt_log2_self
      have h2 : 2 ^ (m.log2 + 1 + 1) ≤ 2 ^ (lastPlace m e - e).toNat := Nat.pow_le_pow_right (by decide) (by omega)
      rw [Nat.pow_succ] at h2
      omega
    · exact ⟨_, rfl, shrRne_nearestEven _ _⟩

theorem lastPlace_bounds {m : Nat} (hm : m ≠ 0) (e : Int) : -149 ≤ lastPlace m e ∧
    (m : ℚ) * 2 ^ e < 2 ^ (lastPlace m e + 24) ∧ (lastPlace m e ≠ -149 → (2 : ℚ) ^ (lastPlace m e + 23) ≤ m * 2 ^ e) := by
  have hd : lastPlace m e = max (e + m.log2 - 23) (-149) := rfl
  refine ⟨by omega, (lt_two_pow_log2 m e).trans_le (zpow_two_le (by omega)), fun h => ?_⟩
  exact (zpow_two_le (show lastPlace m e + 23 ≤ e + m.log2 by omega)).trans (two_pow_log2_le hm e)

theorem roundedTo_of_nearestEven {m q : Nat} {e : Int} (hm : m ≠ 0) (he : e ≤ lastPlace m e)
    (h : NearestEven m (lastPlace m e - e).toNat q) : RoundedTo m e q (lastPlace m e) := by
  obtain ⟨hleast, hupper, hlower⟩ := lastPlace_bounds hm e
  generalize lastPlace m e = d at *
  obtain ⟨k, hk⟩ : ∃ k : Nat, (d - e).toNat = k := ⟨_, rfl⟩
  obtain rfl : d = k + e := by omega
  rw [hk] at h
  have hpow : (2 : ℚ) ^ ((k : Int) + e) = ((2 ^ k : Int) : ℚ) * 2 ^ e := by rw [zpow_two_add, zpow_natCast]; norm_cast
  have hdist : |(m : ℚ) * 2 ^ e - q * 2 ^ ((k : Int) + e)| = ((|(m : Int) - q * 2 ^ k| : Int) : ℚ) * 2 ^ e := by
    rw [hpow, ← mul_assoc, ← sub_mul, abs_mul, abs_of_pos (zpow_two_pos e)]
    push_cast
    rfl
  refine ⟨hleast, ?_, fun ht => ?_, hupper, hlower⟩
  · have hn : (2 : ℚ) * ((|(m : Int) - q * 2 ^ k| : Int) : ℚ) ≤ ((2 ^ k : Int) : ℚ) := by exact_mod_cast h.1
    rw [hdist, hpow]
    have := mul_le_mul_of_nonneg_right hn (zpow_two_pos e).le
    linarith
  · rw [hdist, hpow] at ht
    have hn : (2 : ℚ) * ((|(m : Int) - q * 2 ^ k| : Int) : ℚ) = ((2 ^ k : Int) : ℚ) :=
      mul_right_cancel₀ (zpow_two_pos e).ne' (by linarith)
    have := h.2 (by exact_mod_cast hn)
    omega

theorem roundedTo_exact {m : Nat} {e : Int} (hm : m ≠ 0) (he : lastPlace m e ≤ e) :
    RoundedTo m e (m * 2 ^ (e - lastPlace m e).toNat) (lastPlace m e) := by
  obtain ⟨hleast, hupper, hlower⟩ := lastPlace_bounds hm e
  have hzero : |(m : ℚ) * 2 ^ e - (m * 2 ^ (e - lastPlace m e).toNat : Nat) * 2 ^ lastPlace m e| = 0 := by
    rw [mul_zpow_toNat m he, sub_self, abs_zero]
  have hpos := zpow_two_pos (lastPlace m e)
  exact ⟨hleast, by rw [hzero]; linarith, fun ht => by rw [hzero] at ht; linarith, hupper, hlower⟩

section
variable {m q : Nat} {e d : Int} (h : RoundedTo m e q d)
include h

/-- The rounded magnitude has at most 24 bits, or is 2^24. -/
theorem RoundedTo.le : q ≤ 2 ^ 24 := by
  by_contra hq
  have hq' : ((2 ^ 24 : Nat) : ℚ) + 1 ≤ q := by exact_mod_cast not_le.1 hq
  have hd := abs_le.1 h.near
  have hu := h.upper
  have hp := zpow_two_pos d
  rw [Int.add_comm, zpow_two_add, show (24 : Int) = (24 : Nat) from rfl, ← zpow_natCast_two] at hu
  have := mul_le_mul_of_nonneg_right hq' hp.le
  linarith

theorem RoundedTo.ge (hd : d ≠ -149) : 2 ^ 23 ≤ q := by
  by_contra hq
  have hq' : (q : ℚ) + 1 ≤ ((2 ^ 23 : Nat) : ℚ) := by exact_mod_cast not_le.1 hq
  have hn := abs_le.1 h.near
  have hl := h.lower hd
  have hp := zpow_two_pos d
  rw [Int.add_comm, zpow_two_add, show (23 : Int) = (23 : Nat) from rfl, ← zpow_natCast_two] at hl
  have := mul_le_mul_of_nonneg_right hq' hp.le
  linarith

/-- No multiple of the last place is nearer than the rounded one, and one as near is a tie. -/
theorem RoundedTo.nearest_multiple (z : Int) : |(m : ℚ) * 2 ^ e - q * 2 ^ d| ≤ |(m : ℚ) * 2 ^ e - z * 2 ^ d| ∧
    (|(m : ℚ) * 2 ^ e - q * 2 ^ d| = |(m : ℚ) * 2 ^ e - z * 2 ^ d| → (z : ℚ) * 2 ^ d ≠ q * 2 ^ d →
      |(m : ℚ) * 2 ^ e - q * 2 ^ d| = 2 ^ d / 2) := by
  by_cases hz : z = q
  · subst hz
    exact ⟨by simp, fun _ hne => absurd (by simp) hne⟩
  · have hone : (1 : ℚ) ≤ |(q : ℚ) - z| := by
      have h1 : (1 : Int) ≤ |(q : Int) - z| := Int.one_le_abs (sub_ne_zero.2 (Ne.symm hz))
      exact_mod_cast h1
    have hstep : (2 : ℚ) ^ d ≤ |(q : ℚ) * 2 ^ d - z * 2 ^ d| := by
      rw [← sub_mul, abs_mul, abs_of_pos (zpow_two_pos d)]
      exact le_mul_of_one_le_left (zpow_two_pos d).le hone
    have htri := abs_sub_le ((q : ℚ) * 2 ^ d) ((m : ℚ) * 2 ^ e) (z * 2 ^ d)
    rw [abs_sub_comm ((q : ℚ) * 2 ^ d) (m * 2 ^ e)] at htri
    have hn := h.near
    exact ⟨by linarith, fun heq _ => by linarith⟩

/-- No number of 24 bits is nearer than the rounded one, and one as near is a tie. -/
theorem RoundedTo.nearest (g : Bool) {k : Nat} {j : Int} (hk : k < 2 ^ 24) (hj : -149 ≤ j) :
    |(m : ℚ) * 2 ^ e - q * 2 ^ d| ≤ |(m : ℚ) * 2 ^ e - signQ g * (k * 2 ^ j)| ∧
      (|(m : ℚ) * 2 ^ e - q * 2 ^ d| = |(m : ℚ) * 2 ^ e - signQ g * (k * 2 ^ j)| →
        signQ g * (k * 2 ^ j) ≠ q * 2 ^ d → |(m : ℚ) * 2 ^ e - q * 2 ^ d| = 2 ^ d / 2) := by
  by_cases hdj : d ≤ j
  · have hz : signQ g * (k * 2 ^ j) = (((if g then -1 else 1) * (k * 2 ^ (j - d).toNat : Nat) : Int) : ℚ) * 2 ^ d := by
      rw [← mul_zpow_toNat k hdj, ← mul_assoc]
      cases g <;> simp [signQ]
    rw [hz]
    exact h.nearest_multiple _
  · have hlow := h.lower (by omega)
    have hgrid := (h.nearest_multiple (2 ^ 23 : Nat)).1
    have hp : (2 : ℚ) ^ (d + 23) = ((2 ^ 23 : Nat) : Int) * 2 ^ d := by
      rw [Int.add_comm, zpow_two_add, Int.cast_natCast, zpow_natCast_two]
      rfl
    have hsmall : |signQ g * (k * 2 ^ j)| < (2 : ℚ) ^ (d + 23) := by
      have hk' : (k : ℚ) < (2 ^ 24 : Nat) := by exact_mod_cast hk
      rw [abs_mul, abs_signQ, one_mul, abs_of_nonneg (mul_nonneg (Nat.cast_nonneg k) (zpow_two_pos j).le)]
      refine (mul_lt_mul_of_pos_right hk' (zpow_two_pos j)).trans_le ?_
      rw [zpow_natCast_two, ← zpow_two_add]
      exact zpow_two_le (by omega)
    have hw := (abs_lt.1 hsmall).2
    rw [← hp, abs_of_nonneg (a := (m : ℚ) * 2 ^ e - 2 ^ (d + 23)) (by linarith)] at hgrid
    have hfar : |(m : ℚ) * 2 ^ e - q * 2 ^ d| < |(m : ℚ) * 2 ^ e - signQ g * (k * 2 ^ j)| :=
      lt_of_lt_of_le (by linarith) (le_abs_self _)
    exact ⟨hfar.le, fun heq _ => absurd heq hfar.ne⟩

/-- Below 2^128 - 2^103 the rounded magnitude is below 2^128, and from there on it is not. -/
theorem RoundedTo.lt_iff :
    (q : ℚ) * 2 ^ d < 2 ^ (128 : Int) ↔ (m : ℚ) * 2 ^ e < 2 ^ (128 : Int) - 2 ^ (103 : Int) := by
  have hn := abs_le.1 h.near
  rcases lt_trichotomy d 104 with hd | rfl | hd
  · have h127 : (2 : ℚ) ^ (127 : Int) < 2 ^ (128 : Int) - 2 ^ (103 : Int) := by norm_num
    have h128 : (2 : ℚ) ^ (127 : Int) < 2 ^ (128 : Int) := by norm_num
    have hv := h.upper.trans_le (zpow_two_le (show d + 24 ≤ 127 by omega))
    have hq : (q : ℚ) * 2 ^ d ≤ 2 ^ (127 : Int) := by
      refine (mul_le_mul_of_nonneg_right (Nat.cast_le.2 h.le) (zpow_two_pos d).le).trans ?_
      rw [zpow_natCast_two, ← zpow_two_add]
      exact zpow_two_le (by omega)
    exact iff_of_true (by linarith) (by linarith)
  · have h128 : (2 : ℚ) ^ (128 : Int) = 2 ^ 24 * 2 ^ (104 : Int) := by norm_num
    have h103 : (2 : ℚ) ^ (103 : Int) = 2 ^ (104 : Int) / 2 := by norm_num
    have hp := zpow_two_pos 104
    have htie := h.tie
    rw [h128, h103]
    generalize (2 : ℚ) ^ (104 : Int) = u at *
    constructor
    · intro hlt
      have hq : q < 2 ^ 24 := by exact_mod_cast lt_of_mul_lt_mul_right hlt hp.le
      have hq' : (q : ℚ) ≤ 2 ^ 24 - 1 := by
        have : (q : ℚ) + 1 ≤ (2 ^ 24 : Nat) := by exact_mod_cast hq
        push_cast at this
        linarith
      have hqu := mul_le_mul_of_nonneg_right hq' hp.le
      refine lt_of_le_of_ne (by linarith) fun heq => ?_
      have hfar : (q : ℚ) * u = (2 ^ 24 - 1) * u := by linarith
      have hodd : (q : ℚ) = (2 ^ 24 - 1 : Nat) := by rw [mul_right_cancel₀ hp.ne' hfar]; norm_num
      have heven := htie (by rw [heq, hfar, abs_of_nonneg (by linarith)]; ring)
      rw [Nat.cast_injective hodd] at heven
      exact absurd heven (by decide)
    · intro hlt
      have hq : (q : ℚ) * u < (2 ^ 24 : Nat) * u ∨ q = 2 ^ 24 := by
        rcases h.le.lt_or_eq with hq | hq
        · exact .inl (mul_lt_mul_of_pos_right (Nat.cast_lt.2 hq) hp)
        · exact .inr hq
      rcases hq with hq | rfl
      · push_cast at hq; exact hq
      · push_cast at hn; linarith
  · have hl := (zpow_two_le (show 128 ≤ d + 23 by omega)).trans (h.lower (by omega))
    have h103 := zpow_two_pos 103
    have hq : (2 : ℚ) ^ (128 : Int) ≤ q * 2 ^ d := by
      refine le_trans ?_ (mul_le_mul_of_nonneg_right (Nat.cast_le.2 (h.ge (by omega))) (zpow_two_pos d).le)
      rw [zpow_natCast_two, ← zpow_two_add]
      exact zpow_two_le (by omega)
    exact iff_of_false (by linarith) (by linarith)

end

/-- The lane that packing gives: finite and of the magnitude's value below 2^128, an infinity from there on. -/
theorem pack_cases (neg : Bool) {m : Nat} {e : Int} (hm : m ≤ 2 ^ 24) (he : -149 ≤ e) :
    let y : Lane := BitVec.ofNat 32 (fmtF32.pack neg m e fmtF32.infBits)
    ((m : ℚ) * 2 ^ e < 2 ^ (128 : Int) → IsFin y ∧ rat y = signQ neg * (m * 2 ^ e) ∧
      (e = -149 ∨ 2 ^ 23 ≤ m → y.toNat % 2 = m % 2)) ∧
    (2 ^ (128 : Int) ≤ (m : ℚ) * 2 ^ e → fv y = .inf neg) := by
  intro y
  constructor
  · intro hv
    obtain ⟨ex, fr, hy, hex, hfr, hrat, hpar⟩ := pack_value neg fmtF32.infBits hm he hv
    rw [show y = f32Pattern neg ex fr from hy]
    refine ⟨(rat_f32Pattern neg hex hfr).1, hrat, fun h => (hpar h).symm ▸ ?_⟩
    rw [toNat_f32Pattern neg (by omega) hfr]
    split <;> omega
  · intro hv
    have hm0 : m ≠ 0 := by
      rintro rfl
      rw [Nat.cast_zero, zero_mul] at hv
      exact absurd hv (not_le.2 (zpow_two_pos _))
    have hlog : (128 : Int) < e + m.log2 + 1 :=
      (zpow_lt_zpow_iff_right₀ (by norm_num : (1 : ℚ) < 2)).1 (hv.trans_lt (lt_two_pow_log2 m e))
    rw [show y = f32Pattern neg 255 0 from congrArg (BitVec.ofNat 32) (pack_big neg hm0 (e := e) fmtF32.infBits (by omega))]
    exact fv_f32Pattern neg (by decide) (by decide)

/-- The lane that rounding gives, for a magnitude that is not 0 (R57). -/
theorem rne32_cases (neg : Bool) {m : Nat} (hm : m ≠ 0) (e : Int) : ∃ q d, RoundedTo m e q d ∧
    ((q : ℚ) * 2 ^ d < 2 ^ (128 : Int) → IsFin (rne32 neg m e) ∧ rat (rne32 neg m e) = signQ neg * (q * 2 ^ d) ∧
      ((m : ℚ) * 2 ^ e ≠ q * 2 ^ d → (rne32 neg m e).toNat % 2 = q % 2)) ∧
    (2 ^ (128 : Int) ≤ (q : ℚ) * 2 ^ d → fv (rne32 neg m e) = .inf neg) := by
  have hrne {m' : Nat} {e' : Int} (hr : roundMag false 24 (-149) m e = (m', e')) :
      rne32 neg m e = BitVec.ofNat 32 (fmtF32.pack neg m' e' fmtF32.infBits) := by rw [rne32, hr]
  rcases roundMag_f32 hm e with ⟨hle, hr⟩ | ⟨hlt, q, hr, hq⟩
  · have hlast : lastPlace m e = max (e + m.log2 - 23) (-149) := rfl
    have h24 : m < 2 ^ 24 := Nat.lt_log2_self.trans_le (Nat.pow_le_pow_right (by decide) (by omega))
    obtain ⟨hfin, hinf⟩ := pack_cases neg h24.le (show -149 ≤ e by omega)
    refine ⟨_, _, roundedTo_exact hm hle, ?_⟩
    rw [mul_zpow_toNat m hle, hrne hr]
    exact ⟨fun hv => ⟨(hfin hv).1, (hfin hv).2.1, fun hne => absurd rfl hne⟩, hinf⟩
  · have hround := roundedTo_of_nearestEven hm hlt.le hq
    obtain ⟨hfin, hinf⟩ := pack_cases neg hround.le hround.least
    refine ⟨_, _, hround, ?_⟩
    rw [hrne hr]
    exact ⟨fun hv => ⟨(hfin hv).1, (hfin hv).2.1, fun _ => (hfin hv).2.2 (or_iff_not_imp_left.2 hround.ge)⟩, hinf⟩

theorem rne32_zero (neg : Bool) (e : Int) : IsFin (rne32 neg 0 e) ∧ rat (rne32 neg 0 e) = 0 := by
  have hr : (roundMag false 24 (-149) 0 e).1 = 0 := by
    simp only [roundMag, if_true, Bool.false_eq_true, if_false]
    split
    · rfl
    split
    · rfl
    · simp [shrRne]
  have hp : rne32 neg 0 e = f32Pattern neg 0 0 := by
    rw [rne32, hr]
    rfl
  obtain ⟨hfin, hrat⟩ := rat_f32Pattern neg (ex := 0) (fr := 0) (by decide) (by decide)
  rw [hp]
  exact ⟨hfin, by rw [hrat]; simp⟩

theorem rat_of_isFin {y : Lane} (h : IsFin y) : ∃ (neg : Bool) (m : Nat) (e : Int),
    rat y = signQ neg * (m * 2 ^ e) ∧ m < 2 ^ 24 ∧ -149 ≤ e := by
  obtain ⟨neg, m, e, h⟩ := h
  exact ⟨neg, m, e, rat_of_fv h, fv_fin_bounds h⟩

theorem roundsToNearestEven : RoundsToNearestEven := by
  intro neg m e x r
  have hx : x = signQ neg * (m * 2 ^ e) := mul_assoc _ _ _
  have habs : |x| = m * 2 ^ e := by
    rw [hx, abs_mul, abs_signQ, one_mul, abs_of_nonneg (mul_nonneg (Nat.cast_nonneg m) (zpow_two_pos e).le)]
  have hlim : (2 : ℚ) ^ 128 - 2 ^ 103 = 2 ^ (128 : Int) - 2 ^ (103 : Int) := by norm_num
  rw [habs, hlim]
  by_cases hm : m = 0
  · subst hm
    obtain ⟨hfin, hrat⟩ := rne32_zero neg e
    have hx0 : x = 0 := by rw [hx]; simp
    rw [hx0, hrat]
    refine ⟨fun _ => ⟨hfin, fun y _ => ⟨by simp, fun heq hne => absurd ?_ hne⟩⟩, fun h => absurd h (by norm_num)⟩
    simpa using heq.symm
  · obtain ⟨q, d, hround, hfin, hinf⟩ := rne32_cases neg hm e
    rw [← hround.lt_iff, ← not_lt, ← hround.lt_iff, not_lt]
    refine ⟨fun hv => ?_, hinf⟩
    obtain ⟨hf, hrat, hpar⟩ := hfin hv
    refine ⟨hf, fun y hy => ?_⟩
    obtain ⟨n, k, j, hy', hk, hj⟩ := rat_of_isFin hy
    have hflip (z : ℚ) : |x - z| = |(m : ℚ) * 2 ^ e - signQ neg * z| := by rw [hx, abs_signQ_sub]
    have hry : signQ neg * rat r = q * 2 ^ d := by rw [hrat, ← mul_assoc, signQ_mul_self, one_mul]
    have hyy : signQ neg * rat y = signQ (neg ^^ n) * (k * 2 ^ j) := by rw [hy', signQ_xor, mul_assoc]
    obtain ⟨hnear, htie⟩ := hround.nearest (neg ^^ n) hk hj
    rw [hflip, hflip, hry, hyy]
    refine ⟨hnear, fun heq hne => ?_⟩
    have hhalf := htie heq fun h => hne (by
      rw [← hyy, ← hry] at h
      exact mul_left_cancel₀ (abs_pos.1 (by rw [abs_signQ]; exact one_pos)) h)
    have hodd : (m : ℚ) * 2 ^ e ≠ q * 2 ^ d := fun h => by
      rw [h, sub_self, abs_zero] at hhalf
      have := zpow_two_pos d
      linarith
    rw [BitVec.getLsbD, Nat.testBit_zero, hpar hodd, hround.tie hhalf]
    rfl

/-- Settles O27: the rounded magnitude is the nearest multiple of its last place, no F32 number lies nearer than a multiple of it,
and packing keeps its value and its parity. -/
theorem roundingIsNearestEven : Obligations.RoundingIsNearestEven := roundsToNearestEven

end Sys2Proof.Machine
end

section
/-! O59: the state right after power-on. -/

namespace Sys2Proof.Machine
open Sys2Proof.Claims

/-! ### The units after power-on: none is listed, so each holds its own reset value -/

theorem reset_core (c : Nat) : State.reset.core c = {} := rfl
theorem reset_pair (p : Nat) : State.reset.pair p = {} := rfl
theorem reset_face (f : Nat) : State.reset.face f = {} := rfl
theorem reset_slice (n : Nat) : State.reset.slice n = {} := rfl
theorem reset_dom (d : Nat) : State.reset.dom d = {} := rfl
theorem reset_engine (e : Nat) : State.reset.engine e = {} := rfl
theorem reset_stack (n : Nat) : State.reset.stack n = {} := rfl
theorem reset_handle (h : Nat) : State.reset.handle h = {} := rfl
theorem reset_disp (d : Nat) : State.reset.disp d = {} := rfl
theorem reset_queue (n : Nat) : State.reset.queue n = {} := rfl
theorem reset_part (p : Nat) : State.reset.part p = {} := rfl
theorem reset_queueTasks (n : Nat) : State.reset.queueTasks n = [] := rfl
theorem reset_plat : State.reset.plat = {} := rfl

/-! ### The registers of a map -/

theorem reset_sliceRead (n o : Nat) : State.reset.sliceRead n o = if o = 0 then 16 else 0 := by
  unfold State.sliceRead
  rw [reset_slice]
  split <;> simp_all

theorem reset_retRead (d n o : Nat) : State.reset.retRead d n o = 0 := by
  unfold State.retRead
  rw [reset_dom]
  split <;> simp [Tbl.look]

theorem reset_calRead (f o : Nat) :
    State.reset.calRead f o = if o = 0x40 then 0xFF else if 0x80 ≤ o ∧ o < 0xC0 then 64 else 0 := by
  unfold State.calRead
  rw [reset_face]
  split
  case h_9 => rfl
  case h_10 => rw [if_neg (show ¬ o = 0x40 from ‹_›)]; rfl
  case h_2 => simp [Face.idsInUse, State.awaiting, reset_face]
  all_goals rfl

theorem reset_pairRead (p o : Nat) : State.reset.pairRead p o = if o = 0 then 0x800 else 0 := by
  unfold State.pairRead
  rw [reset_pair]
  split
  case h_8 => exact (if_neg ‹_›).symm
  all_goals rfl

theorem reset_engineRead (e o : Nat) : State.reset.engineRead e o = 0 := by
  unfold State.engineRead
  rw [reset_engine]
  split <;> rfl

theorem reset_tstat (c o : Nat) : leNat ((List.range 8).map fun i => Tbl.look (State.reset.core c).tstat (o + i) 0) = 0 := by
  simp [reset_core, Tbl.look, List.range_succ, leNat]

theorem reset_domRead (d o : Nat) : State.reset.domRead d o = if d = 8 then 0 else if o = 0x10 then 0x40
    else if o = 0x18 then 1000000 else if o = 0x20 then 64 + 192 * 2 ^ 16 else 0 := by
  unfold State.domRead
  rw [reset_dom]
  split
  · rw [show State.reset.ft8base = 0 from rfl, show State.reset.ft8len = 0 from rfl, ite_self, ite_self]
  · dsimp only
    split
    case h_17 => rw [if_neg ‹_›, if_neg ‹_›, if_neg ‹_›]
    all_goals rfl

theorem reset_flashRead (n o : Nat) (h : o ∉ [0x00, 0x08, 0x18, 0x38, 0x40]) : State.reset.flashRead n o =
    if o = 0x80 then 100000 else if o = 0x88 then 168 else if o = 0x98 then 500 else 0 := by
  unfold State.flashRead
  rw [reset_stack]
  dsimp only
  split
  case h_14 =>
    rw [if_neg (show ¬ o = 0x80 from ‹_›), if_neg (show ¬ o = 0x88 from ‹_›), if_neg (show ¬ o = 0x98 from ‹_›)]
    simp [Tbl.look, halves]
  case h_1 | h_2 | h_4 | h_8 | h_9 => simp at h
  all_goals simp [Flash.worstRead, halves]

theorem reset_handleRead (h o : Nat) : State.reset.handleRead h o = 0 := by
  unfold State.handleRead
  rw [reset_handle]
  split <;> simp [Handle.word0]

theorem reset_queueRead (p q o : Nat) : State.reset.queueRead p q o = 0 := by
  unfold State.queueRead
  rw [reset_queue, reset_queueTasks]
  split <;> simp

theorem reset_sqRead (p o : Nat) : State.reset.sqRead p o = 0 := by
  unfold State.sqRead
  rw [reset_part]
  split <;> simp

theorem reset_dispRead (d o : Nat) : State.reset.dispRead d o = if o = 0 then 1 else 0 := by
  unfold State.dispRead
  rw [reset_disp]
  split
  case h_5 => exact (if_neg ‹_›).symm
  all_goals simp [reset_dom]

theorem reset_ctlRead (p o : Nat) : State.reset.ctlRead p o = if o = 0x058 then 64 else 0 := by
  unfold State.ctlRead
  rw [reset_part]
  split
  case h_18 => exact (if_neg ‹_›).symm
  all_goals simp [Part.startWord]

theorem bitsOf_toNat_zero (w lo n : Nat) : bitsOf (0 : BitVec w).toNat lo n = 0 := by simp [bitsOf]

theorem reset_platRead (o : Nat) (h0 : o ≠ 0) (h : o < 0x4000) :
    State.reset.platRead o = if o = 0x018 then 3600 else 0 := by
  unfold State.platRead
  rw [reset_plat]
  split
  case h_1 => exact absurd rfl h0
  case h_6 =>
    rw [if_neg (show ¬ o = 0x18 from ‹_›), if_neg (show ¬ (0x4000 ≤ o ∧ o < 0x4940) by omega)]
    split
    · exact bitsOf_toNat_zero 512 _ _
    · simp [Tbl.look, reset_face]
  all_goals rfl

/-! ### The state after power-on -/

/-- The number of context `c` in each of its units (R1, R115). -/
theorem ctxId_eq {c : Nat} : ctxId c =
    BitVec.ofNat 64 (c % 4 + c / 4 * 2 ^ 2 + c / 8 * 2 ^ 11 + c / 64 * 2 ^ 19 + c / 256 * 2 ^ 24 + c / 512 * 2 ^ 27) := by
  rw [ctxId]
  refine congrArg (BitVec.ofNat 64) ?_
  simp only [dieOf, domOf, faceOf, pairOf, coreOf, ctxOf, Nat.div_div_eq_div_mul]
  omega

theorem reset_srRead (c : Nat) : ∀ n ∈ [0x003, 0x004, 0x005, 0x008, 0x009, 0x00A, 0x00B, 0x022, 0x030, 0x031, 0x032, 0x033, 0x050],
    State.reset.srRead c n = 0 := by
  simp only [List.forall_mem_cons]
  exact ⟨rfl, rfl, rfl, rfl, rfl, rfl, rfl, rfl, rfl, rfl, rfl, rfl, rfl, fun _ h => nomatch h⟩

theorem resetValues : ResetValues := by
  unfold ResetValues
  intro s
  have word {m k : Nat} (h : m = k) : BitVec.ofNat 64 m = BitVec.ofNat 64 k := congrArg _ h
  have ite (c : Prop) [Decidable c] (m k : Nat) :
      BitVec.ofNat 64 (if c then m else k) = if c then BitVec.ofNat 64 m else BitVec.ofNat 64 k := apply_ite _ _ _ _
  refine ⟨rfl, rfl, rfl, fun _ => rfl, rfl, fun _ => ⟨rfl, rfl, rfl, rfl⟩, fun _ => ⟨rfl, rfl⟩, fun _ => ⟨rfl, rfl⟩,
    fun _ _ => ctxId_eq, fun c => ⟨rfl, rfl, rfl, rfl, reset_srRead c⟩, ?slice, ?ret, ?cal, ?pair, fun _ _ _ => rfl, ?engine,
    ?tstat, ?dom, ?flash, ?handle, ?queue, ?sq, ?disp, fun _ _ => rfl, ?ctl, ?plat⟩
  case slice => exact fun n o => (word (reset_sliceRead n o)).trans (ite _ _ _)
  case ret => exact fun d n o => word (reset_retRead d n o)
  case cal => exact fun f o => (word (reset_calRead f o)).trans (by rw [ite, ite]; rfl)
  case pair => exact fun p o => (word (reset_pairRead p o)).trans (ite _ _ _)
  case engine => exact fun e o => word (reset_engineRead e o)
  case tstat => exact fun c o => word (reset_tstat c o)
  case dom => exact fun d o => (word (reset_domRead d o)).trans (by rw [ite, ite, ite, ite]; rfl)
  case flash => exact fun n o h => (word (reset_flashRead n o h)).trans (by rw [ite, ite, ite]; rfl)
  case handle => exact fun h o => word (reset_handleRead h o)
  case queue => exact fun p q o => word (reset_queueRead p q o)
  case sq => exact fun p o => word (reset_sqRead p o)
  case disp => exact fun d o => (word (reset_dispRead d o)).trans (ite _ _ _)
  case ctl => exact fun p o => (word (reset_ctlRead p o)).trans (ite _ _ _)
  case plat => exact fun o h0 h => (word (reset_platRead o h0 h)).trans (ite _ _ _)

/-- Settles O59: each register's reset value, map by map; memory after reset lists nothing. -/
theorem resetState : Obligations.ResetState := ⟨resetValues, Memory.wf_nil⟩

end Sys2Proof.Machine
end

section
/-! O28, first part: the exact sum of a segment (R76, R237). -/

namespace Sys2Proof.Machine
open Sys2Proof.Claims

/-! ### Finite operands -/

theorem isNan_eq_false {x : Lane} (h : IsFin x) : isNan x = false := by
  obtain ⟨neg, m, e, h⟩ := h
  rw [fv_eq, f32Value] at h
  have hne : x.toNat / 2 ^ 23 % 256 ≠ 255 := by
    intro h255
    rw [if_pos h255] at h
    split at h <;> cases h
  rw [isNan, beq_eq_false_iff_ne.2 hne, Bool.false_and]

/-- The magnitude and the exponent of a product of finite operands, with its sign as a number. -/
structure Term where
  neg : Bool
  m : Nat
  e : Int

def Term.prod (t : Term) : Prod32 := .fin t.neg t.m t.e

def Term.val (t : Term) : ℚ := signQ t.neg * (t.m * 2 ^ t.e)

theorem prodOf_fin {a b : Lane} (ha : IsFin a) (hb : IsFin b) : ∃ t : Term, prodOf a b = t.prod ∧ t.val = rat a * rat b := by
  obtain ⟨na, ma, ea, ha⟩ := ha
  obtain ⟨nb, mb, eb, hb⟩ := hb
  refine ⟨⟨na ^^ nb, ma * mb, ea + eb⟩, by rw [prodOf, ha, hb]; rfl, ?_⟩
  rw [rat_of_fv ha, rat_of_fv hb, Term.val, signQ_xor, zpow_two_add, Nat.cast_mul]
  ring

/-! ### The common exponent and the sum -/

/-- The exponent to which all terms are brought. -/
def commonExp (ts : List Term) (e : Int) : Int := ts.foldl (fun m t => if t.m = 0 then m else min m t.e) e

def termSum (ts : List Term) (e0 x : Int) : Int :=
  ts.foldl (fun x t => if t.m = 0 then x else x + atExp t.neg t.m t.e e0) x

theorem commonExp_le (ts : List Term) (e : Int) : commonExp ts e ≤ e ∧ ∀ t ∈ ts, t.m ≠ 0 → commonExp ts e ≤ t.e := by
  induction ts generalizing e with
  | nil => exact ⟨le_rfl, fun _ h => nomatch h⟩
  | cons t ts ih =>
    obtain ⟨h1, h2⟩ := ih (if t.m = 0 then e else min e t.e)
    refine ⟨h1.trans (by split <;> omega), fun u hu hm => ?_⟩
    rcases List.mem_cons.1 hu with rfl | hu
    · exact h1.trans (by rw [if_neg hm]; exact min_le_right _ _)
    · exact h2 u hu hm

theorem atExp_val (t : Term) {e0 : Int} (h : e0 ≤ t.e) : (atExp t.neg t.m t.e e0 : ℚ) * 2 ^ e0 = t.val := by
  have hv := mul_zpow_toNat t.m h
  have hs : (atExp t.neg t.m t.e e0 : ℚ) = signQ t.neg * (t.m * 2 ^ (t.e - e0).toNat : Nat) := by
    rw [atExp, Nat.shiftLeft_eq]
    cases t.neg <;> simp [signQ]
  rw [hs, mul_assoc, hv]
  rfl

theorem termSum_val (ts : List Term) {e0 : Int} (h : ∀ t ∈ ts, t.m ≠ 0 → e0 ≤ t.e) (x : Int) :
    (termSum ts e0 x : ℚ) * 2 ^ e0 = x * 2 ^ e0 + (ts.map Term.val).sum := by
  induction ts generalizing x with
  | nil => simp [termSum]
  | cons t ts ih =>
    have ht : ((if t.m = 0 then x else x + atExp t.neg t.m t.e e0 : Int) : ℚ) * 2 ^ e0 = x * 2 ^ e0 + t.val := by
      split
      · rename_i h0
        rw [Term.val, h0]
        simp
      · rename_i h0
        rw [Int.cast_add, add_mul, atExp_val t (h t (by simp) h0)]
    rw [termSum, List.foldl_cons]
    refine (ih (fun u hu => h u (by simp [hu])) _).trans ?_
    rw [ht, List.map_cons, List.sum_cons, add_assoc]

/-- The partial of a segment of products that are all finite is one rounding of their sum. -/
theorem segPartial_terms (org : Lane) (k : Int) {xs : List (Lane × Lane)} {ts : List Term}
    (hfin : ∀ z ∈ xs, IsFin z.1 ∧ IsFin z.2) (hts : (xs.map fun z => prodOf z.1 z.2) = ts.map Term.prod) :
    segPartial org k xs = rneInt (termSum ts (commonExp ts 0) 0) (commonExp ts 0 + k) := by
  have hnan : (xs.flatMap fun x => [x.1, x.2]).find? isNan = none := by
    rw [List.find?_eq_none]
    intro y hy
    obtain ⟨z, hz, hy⟩ := List.mem_flatMap.1 hy
    have hyf : IsFin y := by
      rcases List.mem_cons.1 hy with rfl | hy
      · exact (hfin z hz).1
      · obtain rfl := List.mem_singleton.1 hy
        exact (hfin z hz).2
    rw [isNan_eq_false hyf]
    decide
  have hinv : (ts.map Term.prod).contains .invalid = false := by
    simp [Term.prod]
  have hinf (n : Bool) : ((ts.map Term.prod).any fun p => p == .inf n) = false := by
    simp [Term.prod]
  rw [segPartial, hnan, hts]
  simp only [hinv, hinf, Bool.false_or, Bool.and_self, Bool.false_eq_true, if_false, List.foldl_map]
  rfl

theorem segmentsAreExact : SegmentsAreExact := by
  intro org k xs hfin
  obtain ⟨ts, hts, hval⟩ : ∃ ts : List Term, (xs.map fun z => prodOf z.1 z.2) = ts.map Term.prod ∧
      ts.map Term.val = xs.map fun z => rat z.1 * rat z.2 := by
    clear k org
    induction xs with
    | nil => exact ⟨[], rfl, rfl⟩
    | cons z xs ih =>
      obtain ⟨ts, h1, h2⟩ := ih fun y hy => hfin y (by simp [hy])
      obtain ⟨hz1, hz2⟩ := hfin z (by simp)
      obtain ⟨t, ht1, ht2⟩ := prodOf_fin hz1 hz2
      exact ⟨t :: ts, by simp [h1, ht1], by simp [h2, ht2]⟩
  refine ⟨_, _, segPartial_terms org k hfin hts, ?_⟩
  rw [termSum_val ts (commonExp_le ts 0).2, hval]
  simp

end Sys2Proof.Machine
end

section
/-! O28, second part: the operands of a segment (R68, R73, R74, R235, R237, R238). -/

namespace Sys2Proof.Machine
open Sys2Proof.Claims

/-! ### Bits of a payload -/

theorem bitsOf_one (x k : Nat) : bitsOf x k 1 = (x.testBit k).toNat := by
  rw [bitsOf, Nat.testBit_eq_decide_div_mod_eq]
  have h : x / 2 ^ k % 2 ^ 1 < 2 := Nat.mod_lt _ (by decide)
  rcases Nat.eq_zero_or_pos (x / 2 ^ k % 2 ^ 1) with h0 | h0
  · simp_all
  · have h1 : x / 2 ^ k % 2 ^ 1 = 1 := by omega
    simp_all

theorem blockByte_eq (b : BlockVal) (k : Nat) : blockByte b k = b.data / 256 ^ k % 256 := by
  rw [blockByte, bitsOf, Nat.pow_mul]
  rfl

theorem sext_eq_toInt (w x : Nat) : sext w x = (BitVec.ofNat w x).toInt := by
  rw [BitVec.toInt_eq_toNat_cond, BitVec.toNat_ofNat, sext]
  by_cases h : 2 ^ w ≤ 2 * (x % 2 ^ w)
  · rw [if_pos h, if_neg (not_lt.2 h)]; push_cast; rfl
  · rw [if_neg h, if_pos (not_le.1 h)]

/-! ### The planes that a segment reads (R236, R238) -/

theorem ladder_eq_filter : ∀ q ≤ 8, (List.range q).map (fun i => 7 - i) =
    [7, 6, 5, 4, 3, 2, 1, 0].filter fun j => decide (8 - q ≤ j) := by decide

theorem ladder_between_eq_filter : ∀ q ≤ 7, 1 ≤ q → ∀ r ≤ 8, q < r → (List.range (r - q)).map (fun i => 7 - q - i) =
    [7, 6, 5, 4, 3, 2, 1, 0].filter fun j => decide (8 - r ≤ j ∧ j ≤ 7 - q) := by decide

/-- The limits of a compute macro-op with planes. -/
theorem planeOk_of_groupOk {o : MxOp} (hg : o.groupOk = true) (ho : o.op = 1 ∨ o.op = 2 ∨ o.op = 3) (hp : o.planar = true) :
    o.planeOk = true := by
  unfold MxOp.groupOk at hg
  rcases ho with h | h | h
  all_goals
    simp only [h, hp, if_true, Bool.and_eq_true] at hg
    exact hg.2

theorem planes_eq_filter {o : MxOp} (hg : o.groupOk = true) (ho : o.op = 1 ∨ o.op = 2 ∨ o.op = 3) (hp : o.planar = true) :
    o.planes = [7, 6, 5, 4, 3, 2, 1, 0].filter fun j =>
      if o.op = 2 then decide (8 - o.qr ≤ j ∧ j ≤ 7 - o.q) else decide (8 - o.q ≤ j) := by
  have hk := planeOk_of_groupOk hg ho hp
  unfold MxOp.planeOk at hk
  rcases ho with h | h | h
  all_goals simp only [h, Bool.and_eq_true, decide_eq_true_eq] at hk
  case' inl => obtain ⟨⟨_, ⟨_, hq⟩, _⟩, _⟩ := hk
  case' inr.inr => obtain ⟨⟨_, ⟨_, hq⟩, _⟩, _⟩ := hk
  case inl | inr.inr =>
    have h2 : ¬ o.op = 2 := by omega
    simp only [MxOp.planes, if_neg h2]
    exact ladder_eq_filter _ (by omega)
  case inr.inl =>
    obtain ⟨⟨_, ⟨⟨hq, hq'⟩, hlt⟩, hr⟩, _⟩ := hk
    simp only [MxOp.planes, if_pos h]
    exact ladder_between_eq_filter _ hq' hq _ hr hlt

/-! ### The columns of a group -/

section
variable (s : State) (o : MxOp) (g h : Nat)

/-- The block of plane `j` of a column group. -/
def State.planeBlock (j : Nat) : BlockVal := s.blockAt (s.bPlace o g ((7 - j) * o.pstride + 64 * h))

/-- The column group is unsigned: its plane-7 block has an unsigned plane's CODE. -/
def State.groupUns : Bool :=
  let top := coatCode (s.blockAt (s.bPlace o g (64 * h))).coat
  0x28 ≤ top && top ≤ 0x2F

/-- The plane blocks of a column group, from the highest plane down. -/
def State.groupBlocks : List (Nat × BlockVal) := o.planes.map fun j => (j, s.planeBlock o g h j)

/-- The IAs of its poisoned blocks. -/
def State.groupBad : List Nat :=
  ((s.groupBlocks o g h).filter fun x => planeBad (s.groupUns o g h) x.1 x.2).map fun x =>
    s.bIaOf o g ((7 - x.1) * o.pstride + 64 * h)

end

/-- The eight columns of a group, each with the group's scale. -/
def groupEntries : Option (Int × List (List Lane)) → List (Option (Int × List Lane))
  | some (e, cols) => cols.map fun c => some (e, c)
  | none => List.replicate 8 none

section
variable {s : State} {o : MxOp} {g h i : Nat}

theorem groupColumns_length {uns : Bool} {bs : List (Nat × BlockVal)} {x : Int × List (List Lane)}
    (hx : groupColumns o uns bs = some x) : x.2.length = 8 := by
  unfold groupColumns at hx
  split at hx
  · cases hx
  · split at hx <;> cases hx <;> simp

theorem length_groupEntries (uns : Bool) (bs : List (Nat × BlockVal)) : (groupEntries (groupColumns o uns bs)).length = 8 := by
  cases hc : groupColumns o uns bs with
  | none => rfl
  | some x => exact (List.length_map _).trans (groupColumns_length hc)

theorem groupEntries_getD (uns : Bool) (bs : List (Nat × BlockVal)) (hi : i < 8) :
    (groupEntries (groupColumns o uns bs)).getD i none = (groupColumns o uns bs).map fun x => (x.1, x.2.getD i []) := by
  cases hc : groupColumns o uns bs with
  | none => exact List.getD_replicate _ hi
  | some x =>
    have hl : i < x.2.length := by rw [groupColumns_length hc]; exact hi
    simp [groupEntries, hl]

/-- The columns of plane-major B are those of its 32 groups, and its poisoned blocks theirs. -/
theorem bColumns_of_planar (hp : o.planar = true) : s.bColumns o g =
    ((List.range 32).flatMap fun h => groupEntries (groupColumns o (s.groupUns o g h) (s.groupBlocks o g h)),
      (List.range 32).flatMap fun h => s.groupBad o g h) := by
  rw [State.bColumns, if_pos hp]
  exact congrArg₂ Prod.mk (List.flatMap_map _ _ _) (List.flatMap_map _ _ _)

theorem bColumns_planar (hp : o.planar = true) (hh : h < 32) (hi : i < 8) :
    (s.bColumns o g).1.getD (8 * h + i) none =
      (groupColumns o (s.groupUns o g h) (s.groupBlocks o g h)).map fun x => (x.1, x.2.getD i []) := by
  rw [bColumns_of_planar hp, getD_flatMap _ _ (fun _ _ => length_groupEntries _ _) none hi h (List.getElem?_range hh),
    groupEntries_getD _ _ hi]

theorem bColumns_narrow (hp : o.planar = false) {n : Nat} (hn : n < 256) :
    (s.bColumns o g).1.getD n none = opndBlock o true (s.blockAt (s.bPlace o g (64 * n))) := by
  rw [State.bColumns, if_neg (by simp [hp])]
  exact getD_map_range _ _ hn

/-! ### The reading of an element (R74, R237) -/

/-- The centring term of a reading (R74, R238). -/
def MxOp.mid (o : MxOp) : Int :=
  let half (q : Nat) : Int := if o.cen && q < 8 then 2 ^ (7 - q) else 0
  if o.op = 2 then half o.qr - half o.q else half o.q

/-- What one plane adds to the reading of element (k, i). -/
def planeTerm (uns : Bool) (k i : Nat) (x : Nat × BlockVal) : Int :=
  if coatZero x.2.coat = true ∨ x.2.data.testBit (8 * k + i) = false then 0
  else if x.1 = 7 ∧ uns = false then -128 else 2 ^ x.1

theorem weightAt_eq_sum (uns : Bool) (bs : List (Nat × BlockVal)) (k i : Nat) :
    weightAt o uns bs k i = o.mid + (bs.map (planeTerm uns k i)).sum := by
  rw [weightAt]
  change bs.foldl _ o.mid = _
  generalize o.mid = mid
  induction bs generalizing mid with
  | nil => simp
  | cons x bs ih =>
    rw [List.foldl_cons, ih, List.map_cons, List.sum_cons, ← add_assoc]
    congr 1
    simp only [planeTerm, bitsOf_one]
    cases coatZero x.2.coat <;> cases x.2.data.testBit (8 * k + i) <;> cases uns <;> by_cases h7 : x.1 = 7 <;> simp [h7]

theorem groupColumns_bad {uns : Bool} {bs : List (Nat × BlockVal)} : groupColumns o uns bs = none ↔
    ∃ x ∈ bs, planeBad uns x.1 x.2 = true := by
  unfold groupColumns
  split
  · rename_i hb
    simpa using hb
  · rename_i hb
    refine iff_of_false ?_ (by simpa using hb)
    split <;> simp

theorem groupColumns_zero {uns : Bool} {bs : List (Nat × BlockVal)} (hb : ∀ x ∈ bs, ¬ planeBad uns x.1 x.2 = true)
    (hz : ∀ x ∈ bs, coatZero x.2.coat = true) :
    groupColumns o uns bs = some (0, List.replicate 8 (List.replicate 64 0)) := by
  have hany : (bs.any fun x => planeBad uns x.1 x.2) = false := List.any_eq_false.2 hb
  have hfind : bs.find? (fun x => !coatZero x.2.coat) = none := by simpa using hz
  rw [groupColumns, hfind]
  exact if_neg (by rw [hany]; decide)

theorem groupColumns_first {uns : Bool} {l r : List (Nat × BlockVal)} {x : Nat × BlockVal}
    (hb : ∀ y ∈ l ++ x :: r, ¬ planeBad uns y.1 y.2 = true) (hl : ∀ y ∈ l, coatZero y.2.coat = true)
    (hx : coatZero x.2.coat = false) : groupColumns o uns (l ++ x :: r) =
      some (coatE x.2.coat, (List.range 8).map fun i => (List.range 64).map fun k => rneInt (weightAt o uns (l ++ x :: r) k i) 0) := by
  have hany : ((l ++ x :: r).any fun y => planeBad uns y.1 y.2) = false := List.any_eq_false.2 hb
  have hfind : (l ++ x :: r).find? (fun y => !coatZero y.2.coat) = some x :=
    List.find?_eq_some_iff_append.2 ⟨by simp [hx], l, r, rfl, fun y hy => by simp [hl y hy]⟩
  rw [groupColumns, hfind]
  exact if_neg (by rw [hany]; decide)

end

/-! ### The elements of a block (R68, R235) -/

section
variable {o : MxOp} {b : BlockVal} (w : Bool)

theorem opndBlock_poison (h : coatPoison b.coat = true) : opndBlock o w b = none := if_pos h

theorem opndBlock_zero (hp : coatPoison b.coat = false) (hz : coatZero b.coat = true) :
    opndBlock o w b = some (0, List.replicate o.segK 0) := by
  rw [opndBlock, if_neg (by simp [hp]), if_pos hz]

theorem opndBlock_live (hp : coatPoison b.coat = false) (hz : coatZero b.coat = false) : opndBlock o w b =
    if o.planar && !w then
      if coatCode b.coat = 8 then
        some (coatE b.coat, (List.range o.segK).map fun k =>
          let v := sext 8 (blockByte b k)
          let sub := nfrSigned o.nfr && nfrSubOn o.nfr && nfrWidth o.nfr == 8
          rneInt (if sub && v == -128 then nfrSubVal o.nfr else v) 0)
      else if coatCode b.coat = 9 then some (coatE b.coat, (List.range o.segK).map fun k => rneInt (blockByte b k) 0)
      else none
    else if o.kind = 2 then
      if coatCode b.coat = 2 then
        some (coatE b.coat, (List.range o.segK).map fun k => widen fmtBF16 (bitsOf b.data (16 * k) 16)) else none
    else if coatCode b.coat = 4 ∨ coatCode b.coat = 5 then
      some (coatE b.coat, (List.range o.segK).map fun k => widen (floatFmt (coatCode b.coat)) (blockByte b k))
    else none := by
  rw [opndBlock, if_neg (by simp [hp]), if_neg (by simp [hz])]

theorem nfrSubVal_signed {n : Word} (h : n.getLsbD 4 = true) : nfrSubVal n = (n.extractLsb' 8 8).toInt := by
  rw [nfrSubVal, show nfrSigned n = true from h, if_pos rfl, sext_eq_toInt, nfrSub]
  congr 1
  apply BitVec.eq_of_toNat_eq
  simp [Nat.shiftRight_eq_div_pow]

/-- A byte of A read as two's complement, where a reserved code reads as SUB (R68). -/
theorem signedByte_eq (n : Word) (b : BlockVal) (k : Nat) :
    (let v := sext 8 (blockByte b k)
     let sub := nfrSigned n && nfrSubOn n && nfrWidth n == 8
     if sub && v == -128 then nfrSubVal n else v) =
    (let v : Int := (BitVec.ofNat 8 (b.data / 256 ^ k)).toInt
     if n.getLsbD 4 ∧ n.getLsbD 5 ∧ n.toNat % 16 = 8 ∧ v = -128 then (n.extractLsb' 8 8).toInt else v) := by
  have hv : sext 8 (blockByte b k) = (BitVec.ofNat 8 (b.data / 256 ^ k)).toInt := by
    rw [sext_eq_toInt, blockByte_eq]
    congr 1
    apply BitVec.eq_of_toNat_eq
    simp
  dsimp only
  rw [hv]
  split
  · rename_i h
    simp only [Bool.and_eq_true, beq_iff_eq, nfrSigned, nfrSubOn, nfrWidth] at h
    obtain ⟨⟨⟨h4, h5⟩, hw⟩, hb⟩ := h
    rw [if_pos ⟨h4, h5, hw, hb⟩, nfrSubVal_signed h4]
  · rename_i h
    rw [if_neg]
    rintro ⟨h4, h5, hw, hb⟩
    exact h (by simp [nfrSigned, nfrSubOn, nfrWidth, h4, h5, hw, hb])

end

theorem operandsAreRead : OperandsAreRead := by
  intro s o g h i b hg ho hk hh hi p byte plane top uns planes bad col centre weight signed elem
  have hplanar : o.planar = true ↔ (o.op ≠ 1 ∨ o.kind = 0) := by simp [MxOp.planar]
  have hsegK (h : ¬ (o.op = 1 ∧ o.kind = 2)) : o.segK = 64 := if_neg h
  have huns : uns = s.groupUns o g h := Bool.decide_and _ _
  have hbad (j : Nat) : bad j ↔ planeBad (s.groupUns o g h) j (s.planeBlock o g h j) = true := by
    have hpl : plane j = s.planeBlock o g h j := rfl
    simp only [bad, hpl, huns, planeBad, columnCode, Bool.or_eq_true, Bool.and_eq_true, Bool.not_eq_true', bne_iff_ne]
  refine ⟨fun hp => ?planar, fun h1 h0 => ?narrow, fun w hpo => opndBlock_poison w hpo,
    fun w hpo hz => opndBlock_zero w hpo hz, fun hpo hz => ⟨fun hp => ?bytes, fun h1 h2 w => ?f8, fun h1 h2 w => ?bf⟩⟩
  case planar =>
    have hplanes : planes = o.planes := (planes_eq_filter hg ho (hplanar.2 hp)).symm
    have hcol : col = _ := bColumns_planar (hplanar.2 hp) hh hi
    have hsum (k : Nat) : weight k = weightAt o (s.groupUns o g h) (s.groupBlocks o g h) k i := by
      rw [weightAt_eq_sum, State.groupBlocks, List.map_map]
      simp only [weight, hplanes, huns, centre, MxOp.mid, Bool.and_eq_true, decide_eq_true_eq]
      rfl
    have entries {l : List Nat} (hz : ∀ j ∈ l, coatZero (plane j).coat = true) :
        ∀ x ∈ l.map (fun j => (j, s.planeBlock o g h j)), coatZero x.2.coat = true := fun x hx => by
      obtain ⟨j, hj, rfl⟩ := List.mem_map.1 hx
      exact hz j hj
    have hlive (hb : ∀ j ∈ planes, ¬ bad j) : ∀ x ∈ s.groupBlocks o g h, ¬ planeBad (s.groupUns o g h) x.1 x.2 = true := by
      rw [hplanes] at hb
      exact List.forall_mem_map.2 fun j hj => (hbad j).not.1 (hb j hj)
    refine ⟨fun ⟨j, hj, hb⟩ => ?_, fun hb hz => ?_, fun l j r hl hb hz hj => ?_⟩
    · rw [hplanes] at hj
      have hmem : (j, s.planeBlock o g h j) ∈ s.groupBlocks o g h := List.mem_map.2 ⟨j, hj, rfl⟩
      rw [hcol, groupColumns_bad.2 ⟨_, hmem, (hbad j).1 hb⟩]
      rfl
    · rw [hplanes] at hz
      rw [hcol, groupColumns_zero (hlive hb) (entries hz), Option.map_some, List.getD_replicate _ hi]
    · have hblocks : s.groupBlocks o g h = l.map (fun j => (j, s.planeBlock o g h j)) ++ (j, s.planeBlock o g h j) ::
          r.map (fun j => (j, s.planeBlock o g h j)) := by
        rw [State.groupBlocks, ← hplanes, hl, List.map_append, List.map_cons]
      have hfirst := groupColumns_first (o := o) (x := (j, s.planeBlock o g h j)) (hblocks ▸ hlive hb) (entries hz) hj
      rw [← hblocks] at hfirst
      rw [hcol, hfirst, Option.map_some, getD_map_range _ _ hi]
      simp only [hsum]
      rfl
  case narrow =>
    exact bColumns_narrow (by simp [MxOp.planar, h1, h0]) (by omega)
  case bytes =>
    have hseg : o.segK = 64 := hsegK (by omega)
    have helem : elem false = _ := opndBlock_live false hpo hz
    rw [if_pos (by rw [hplanar.2 hp]; rfl), hseg] at helem
    refine ⟨fun h8 => ?_, fun h9 => ?_, fun h8 h9 => ?_⟩
    · rw [helem, if_pos h8]
      refine congrArg (fun f : Nat → Lane => some (coatE b.coat, (List.range 64).map f)) (funext fun k => ?_)
      exact congrArg (rneInt · 0) (signedByte_eq o.nfr b k)
    · rw [helem, if_neg (by omega), if_pos h9]
      simp only [blockByte_eq]
    · rw [helem, if_neg h8, if_neg h9]
  case f8 =>
    have hn : ¬ (o.planar && !w) = true := by simp [MxOp.planar, h1, h2]
    have helem : elem w = _ := opndBlock_live w hpo hz
    rw [if_neg hn, if_neg (by omega), hsegK (by omega)] at helem
    refine ⟨fun h4 => ?_, fun h5 => ?_, fun h4 h5 => ?_⟩
    · rw [helem, if_pos (.inl h4), h4]
      simp only [blockByte_eq]
      rfl
    · rw [helem, if_pos (.inr h5), h5]
      simp only [blockByte_eq]
      rfl
    · rw [helem, if_neg (by omega)]
  case bf =>
    have hn : ¬ (o.planar && !w) = true := by simp [MxOp.planar, h1, h2]
    have helem : elem w = _ := opndBlock_live w hpo hz
    rw [if_neg hn, if_pos h2, show o.segK = 32 from if_pos ⟨h1, h2⟩] at helem
    refine ⟨fun h2 => ?_, fun h2 => ?_⟩
    · rw [helem, if_pos h2]
      simp only [bitsOf, Nat.pow_mul]
      rfl
    · rw [helem, if_neg h2]

end Sys2Proof.Machine
end

section
/-! O28, third part: a compute step adds the rounded partials to its bank (R58, R76, R237, R246). -/

namespace Sys2Proof.Machine
open Sys2Proof.Claims

/-! ### A bank's rows and its poison bit -/

section
variable (b : AccBank) (bad : List Nat)

theorem AccBank.taint_rows : (b.taint bad).rows = b.rows := by cases bad <;> rfl
theorem AccBank.taint_cleared : (b.taint bad).cleared = b.cleared := by cases bad <;> rfl

theorem AccBank.taint_of_ne_nil {bad : List Nat} (h : bad ≠ []) : (b.taint bad).poison = true := by
  cases bad with
  | nil => exact absurd rfl h
  | cons _ _ => rfl

/-- The first poisoned block is the one recorded. -/
theorem AccBank.taint_apsn {b : AccBank} (h : b.poison = false) (ia : Nat) (l : List Nat) : (b.taint (ia :: l)).apsn = ia :=
  if_neg (by simp [h])

theorem AccBank.taint_poisoned {b : AccBank} (h : b.poison = true) :
    (b.taint bad).poison = true ∧ (b.taint bad).apsn = b.apsn := by
  cases bad with
  | nil => exact ⟨h, rfl⟩
  | cons _ _ => exact ⟨rfl, if_pos h⟩

theorem AccBank.row_congr {b b' : AccBank} (hr : b'.rows = b.rows) (hc : b'.cleared = b.cleared) (p a m : Nat) :
    b'.row p a m = b.row p a m := by
  rw [AccBank.row, AccBank.row, hr, hc]

theorem AccBank.row_put_self (p a m : Nat) (x : List Lane) : AccBank.row { b with rows := Tbl.put b.rows m x } p a m = x := by
  simp [AccBank.row]

theorem AccBank.row_put_other (p a : Nat) {m k : Nat} (h : k ≠ m) (x : List Lane) :
    AccBank.row { b with rows := Tbl.put b.rows m x } p a k = b.row p a k := by
  simp only [AccBank.row, Tbl.find_put_other _ _ h]

end

/-! ### The rows that a segment changes -/

/-- What one row of A and one column of B add to a cell. -/
def MxOp.partialAt (o : MxOp) (m n : Nat) : Option (Int × List Lane) → Option (Int × List Lane) → Lane
  | some (ea, xs), some (eb, ys) => segPartial (originNaN o.pc (accLane m n)) (ea + eb) (xs.zip ys)
  | _, _ => originNaN o.pc (accLane m n)

/-- A row of the bank with a row of A against all columns of B added. -/
def MxOp.addedRow (o : MxOp) (cols : List (Option (Int × List Lane))) (m : Nat) (a : Option (Int × List Lane)) (old : List Lane) :
    List Lane :=
  (old.zip cols).zipIdx.map fun x => fadd (originNaN o.pc (accLane m x.2)) x.1.1 (o.partialAt m x.2 a x.1.2)

theorem MxOp.addedRow_getD (o : MxOp) {cols : List (Option (Int × List Lane))} {m n : Nat} (a : Option (Int × List Lane))
    {old : List Lane} (ho : n < old.length) (hc : n < cols.length) : (o.addedRow cols m a old).getD n 0 =
      fadd (originNaN o.pc (accLane m n)) (old.getD n 0) (o.partialAt m n a (cols.getD n none)) := by
  simp [MxOp.addedRow, List.getD, ho, hc]

def MxOp.addRow (o : MxOp) (p : Nat) (cols : List (Option (Int × List Lane))) (b : AccBank)
    (x : Option (Int × List Lane) × Nat) : AccBank :=
  { b with rows := Tbl.put b.rows x.2 (o.addedRow cols x.2 x.1 (b.row p o.acc x.2)) }

section
variable (o : MxOp) (p : Nat) (cols : List (Option (Int × List Lane)))

theorem foldl_addRow_bits (l : List (Option (Int × List Lane) × Nat)) (b : AccBank) :
    (l.foldl (o.addRow p cols) b).poison = b.poison ∧ (l.foldl (o.addRow p cols) b).apsn = b.apsn := by
  induction l generalizing b with
  | nil => exact ⟨rfl, rfl⟩
  | cons x l ih => exact ih _

theorem foldl_addRow_other (rows : List (Option (Int × List Lane))) (k : Nat) (b : AccBank) {m : Nat}
    (h : m < k ∨ k + rows.length ≤ m) :
    ((rows.zipIdx k).foldl (o.addRow p cols) b).row p o.acc m = b.row p o.acc m := by
  induction rows generalizing k b with
  | nil => rfl
  | cons a rows ih =>
    rw [List.zipIdx_cons, List.foldl_cons, ih (k + 1) _ (by rw [List.length_cons] at h; omega)]
    exact b.row_put_other _ _ (by rw [List.length_cons] at h; omega) _

theorem foldl_addRow_at (rows : List (Option (Int × List Lane))) (k : Nat) (b : AccBank) {i : Nat} (h : i < rows.length) :
    ((rows.zipIdx k).foldl (o.addRow p cols) b).row p o.acc (k + i) =
      o.addedRow cols (k + i) rows[i] (b.row p o.acc (k + i)) := by
  induction rows generalizing k b i with
  | nil => simp at h
  | cons a rows ih =>
    rw [List.zipIdx_cons, List.foldl_cons]
    cases i with
    | zero => rw [foldl_addRow_other _ _ _ _ _ _ (.inl (by omega))]; exact b.row_put_self _ _ _ _
    | succ i =>
      have h' := ih (k + 1) (o.addRow p cols b (a, k)) (i := i) (by simpa using h)
      rw [show k + 1 + i = k + (i + 1) by omega] at h'
      rw [h', List.getElem_cons_succ]
      exact congrArg _ (b.row_put_other _ _ (by omega) _)

end

/-! ### The bank after a segment -/

section
variable {s : State} {o : MxOp} {g : Nat}

/-- The bank before the segment's poisoned blocks are noted. -/
def State.summed (s : State) (o : MxOp) (g : Nat) : AccBank :=
  (s.aRows o g).1.zipIdx.foldl (o.addRow (pairOf o.core) (s.bColumns o g).1) (Tbl.look (s.pair (pairOf o.core)).acc o.acc {})

theorem compute_bank : ∃ lo hi, Tbl.look ((s.compute o g).pair (pairOf o.core)).acc o.acc {} =
    { (s.summed o g).taint ((s.aRows o g).2 ++ (s.bColumns o g).2) with bLo := lo, bHi := hi } := by
  rw [State.compute, State.pair_onPair_self]
  exact ⟨_, _, Tbl.look_put_self _ _ _ _⟩

theorem length_bColumns : (s.bColumns o g).1.length = 256 := by
  cases hp : o.planar with
  | true =>
    rw [bColumns_of_planar hp, List.length_flatMap]
    simp [length_groupEntries]
  | false => rw [State.bColumns, if_neg (by simp [hp])]; exact (List.length_map _).trans (List.length_range)

/-- A column that is not read has a poisoned block. -/
theorem bColumns_bad {n : Nat} (hn : n < 256) (h : (s.bColumns o g).1.getD n none = none) : (s.bColumns o g).2 ≠ [] := by
  cases hp : o.planar with
  | true =>
    rw [← Nat.div_add_mod n 8, bColumns_planar hp (by omega) (Nat.mod_lt _ (by decide)), Option.map_eq_none_iff] at h
    obtain ⟨x, hx, hb⟩ := groupColumns_bad.1 h
    have hmem : s.bIaOf o g ((7 - x.1) * o.pstride + 64 * (n / 8)) ∈ s.groupBad o g (n / 8) :=
      List.mem_map_of_mem (List.mem_filter.2 ⟨hx, hb⟩)
    rw [bColumns_of_planar hp]
    exact List.ne_nil_of_mem (List.mem_flatMap.2 ⟨n / 8, List.mem_range.2 (by omega), hmem⟩)
  | false =>
    have hl : n < (s.bColumns o g).1.length := by rw [length_bColumns]; exact hn
    have hn : (s.bColumns o g).1[n] = none := by rw [← List.getD_eq_getElem _ none hl]; exact h
    have hmem : (none, n) ∈ (s.bColumns o g).1.zipIdx := List.mem_zipIdx_iff_getElem?.2 (by rw [List.getElem?_eq_getElem hl, hn])
    rw [State.bColumns, if_neg (by simp [hp])] at hmem ⊢
    exact List.ne_nil_of_mem (List.mem_map_of_mem (List.mem_filter.2 ⟨hmem, rfl⟩))

/-- The IA of the A block of row `r` in segment `g`. -/
def MxOp.aBlockIa (o : MxOp) (g r : Nat) : Nat := ((o.aIa : Int) + (r * o.aStride + 64 * g)).toNat

/-- The elements of the A block of row `r`. -/
def State.aBlock (s : State) (o : MxOp) (g r : Nat) : Option (Int × List Lane) :=
  opndBlock o false (s.blockAt (devicePlace (o.aBlockIa g r)))

theorem aRows_eq : s.aRows o g = ((List.range o.m).map (s.aBlock o g),
    ((List.range o.m).filter fun r => (s.aBlock o g r).isNone).map (o.aBlockIa g)) := by
  rw [State.aRows]
  simp only [List.map_map, List.zip_map', List.filter_map]
  rfl

/-- The first row that is poisoned stands first among the poisoned blocks. -/
theorem aRows_bad_first {m : Nat} (hm : m < o.m) (ha : s.aBlock o g m = none) (hbefore : ∀ r < m, s.aBlock o g r ≠ none) :
    ∃ l, (s.aRows o g).2 = o.aBlockIa g m :: l := by
  obtain ⟨k, hk⟩ : ∃ k, o.m = m + (k + 1) := ⟨o.m - m - 1, by omega⟩
  have hnil : (List.range m).filter (fun r => (s.aBlock o g r).isNone) = [] :=
    List.filter_eq_nil_iff.2 fun r hr => by
      rw [Option.isNone_iff_eq_none]
      exact hbefore r (List.mem_range.1 hr)
  rw [aRows_eq, hk, List.range_add, List.filter_append, hnil, List.nil_append, List.range_succ_eq_map, List.map_cons,
    List.filter_cons_of_pos (by simp [ha])]
  exact ⟨_, rfl⟩

theorem aRows_bad {m : Nat} (hm : m < o.m) (ha : s.aBlock o g m = none) : (s.aRows o g).2 ≠ [] := by
  rw [aRows_eq]
  exact List.ne_nil_of_mem (List.mem_map_of_mem (List.mem_filter.2 ⟨List.mem_range.2 hm, by simp [ha]⟩))

theorem summed_row {m : Nat} (hm : m < o.m) : (s.summed o g).row (pairOf o.core) o.acc m =
    o.addedRow (s.bColumns o g).1 m (s.aBlock o g m)
      ((Tbl.look (s.pair (pairOf o.core)).acc o.acc {}).row (pairOf o.core) o.acc m) := by
  have h := foldl_addRow_at o (pairOf o.core) (s.bColumns o g).1 (s.aRows o g).1 0
    (Tbl.look (s.pair (pairOf o.core)).acc o.acc {}) (i := m) (by simpa [aRows_eq] using hm)
  simp only [Nat.zero_add] at h
  refine h.trans ?_
  simp [aRows_eq]

theorem summed_row_other {m : Nat} (hm : o.m ≤ m) : (s.summed o g).row (pairOf o.core) o.acc m =
    (Tbl.look (s.pair (pairOf o.core)).acc o.acc {}).row (pairOf o.core) o.acc m :=
  foldl_addRow_other _ _ _ _ _ _ (.inr (by simpa [aRows_eq] using hm))

theorem summed_bits : (s.summed o g).poison = (Tbl.look (s.pair (pairOf o.core)).acc o.acc {}).poison ∧
    (s.summed o g).apsn = (Tbl.look (s.pair (pairOf o.core)).acc o.acc {}).apsn := foldl_addRow_bits _ _ _ _ _

end

theorem computeAddsPartials : ComputeAddsPartials := by
  intro s o g m n hm hn p b b' a col org hlen
  obtain ⟨lo, hi, hbank⟩ := compute_bank (s := s) (o := o) (g := g)
  obtain ⟨hpoison, hapsn⟩ := summed_bits (s := s) (o := o) (g := g)
  have hrow (r : Nat) : b'.row p o.acc r = (s.summed o g).row p o.acc r :=
    AccBank.row_congr ((congrArg _ hbank).trans (AccBank.taint_rows _ _)) ((congrArg _ hbank).trans (AccBank.taint_cleared _ _)) ..
  have hcell : (b'.row p o.acc m).getD n 0 = fadd org ((b.row p o.acc m).getD n 0) (o.partialAt m n a col) := by
    rw [hrow, summed_row hm]
    exact o.addedRow_getD _ (by rw [hlen m hm]; exact hn) (by rw [length_bColumns]; exact hn)
  have hp : b'.poison = ((s.summed o g).taint ((s.aRows o g).2 ++ (s.bColumns o g).2)).poison := (congrArg AccBank.poison hbank).trans rfl
  have hq : b'.apsn = ((s.summed o g).taint ((s.aRows o g).2 ++ (s.bColumns o g).2)).apsn := (congrArg AccBank.apsn hbank).trans rfl
  refine ⟨fun x y hx hy => ?_, fun hnone => ?_, fun hnone => ?_, fun hb ha hbefore => ?_, fun hb => ?_, fun r hr => ?_⟩
  · rw [hcell, hx, hy]; rfl
  · rw [hcell]
    rcases hnone with h | h
    · rw [h]; rfl
    · rw [h]; cases a <;> rfl
  · rw [hp]
    refine AccBank.taint_of_ne_nil _ ?_
    rcases hnone with h | h
    · exact List.append_ne_nil_of_left_ne_nil (aRows_bad hm h) _
    · exact List.append_ne_nil_of_right_ne_nil _ (bColumns_bad hn h)
  · obtain ⟨l, hl⟩ := aRows_bad_first hm ha hbefore
    rw [hq, hl, List.cons_append]
    exact AccBank.taint_apsn (hpoison.trans hb) _ _
  · obtain ⟨h1, h2⟩ := AccBank.taint_poisoned ((s.aRows o g).2 ++ (s.bColumns o g).2) (hpoison.trans hb)
    rw [hp, hq]
    exact ⟨h1, h2.trans hapsn⟩
  · rw [hrow]
    exact summed_row_other hr

/-- Settles O28: a segment's products are brought to one exponent and summed exactly; the operands by the cases of a block's coat;
and the bank row by row. -/
theorem arrayArithmetic : Obligations.ArrayArithmetic := ⟨segmentsAreExact, operandsAreRead, computeAddsPartials⟩

end Sys2Proof.Machine
end

section
/-! SUPPORT: slot words that wait, and slot words that trap in their issue cycle (R39, R43). -/

namespace Sys2Proof.Machine
open Sys2Proof.Claims

section
variable {i : Instr} {pred : Option (BitVec 4)} {u : Uses} {wait : State → Option (Bool × State)}
  {causes : State → List Cause} {body : State → State} {s : State}

/-- A word that is free to issue waits where its own wait holds it. -/
theorem slotOp_waits (hs : s.iss.sure = false) (hf : Free i s) (hv : ∀ n ∈ u.rv ++ u.wv, n ∈ vregsOf i)
    (hp : (pred.all fun p => s.cx.preg p) = true) {b : Bool} {s' : State} (hw : wait s = some (b, s')) :
    slotOp i pred u false wait causes body s = .next (s'.hold b) := by
  simp [slotOp, hs, hf.wordCauses hv, firstCause, hp, hf.interlocked, hw]

/-- A word that is free to issue and does not wait traps with the first of its own causes. -/
theorem slotOp_traps (hs : s.iss.sure = false) (hf : Free i s) (hv : ∀ n ∈ u.rv ++ u.wv, n ∈ vregsOf i)
    (hp : (pred.all fun p => s.cx.preg p) = true) (hw : wait s = none) {k : Cause} (hc : firstCause (causes s) = some k) :
    slotOp i pred u false wait causes body s = .next (s.takeTrap k) := by
  have hshort (v : Uses) : (s.cx.chk && v.short s.cx s.cycle) = false := by
    rcases hf.landed with h | h <;> simp [h, Uses.short]
  have hword : firstCause (wordCauses i u false s) = none := by rw [hf.wordCauses hv]; rfl
  unfold slotOp
  rw [if_neg (by simp [hs]), hword]
  simp [hp, hf.interlocked, hw, hshort, hc]

end

end Sys2Proof.Machine
end

section
/-! O33: copy commands (R67, R257, R260, R262, R263, R271 to R273, R382, R383). -/

namespace Sys2Proof.Machine
open Sys2Proof.Claims

/-! ### A tag becomes busy and a command enters its queue (R257, R260) -/

theorem State.engine_onEngine_self (s : State) (e : Nat) (f : Engine → Engine) : (s.onEngine e f).engine e = f (s.engine e) :=
  s.engine_setEngine_self e _

theorem State.engine_onEngine_other (s : State) {e k : Nat} (f : Engine → Engine) (h : k ≠ e) :
    (s.onEngine e f).engine k = s.engine k := Tbl.look_put_other _ _ _ h

section
variable (s : State) (t : Nat)

/-- The four contexts of the issuing core have the tag's bit cleared; the tag is taken for the issuing context. -/
theorem takeTag_eq : s.takeTag t =
    ((List.range 4).foldl (fun u k => u.onCtx (4 * s.iss.core + k) fun x => { x with tags := x.tags &&& ~~~(bit64 t) }) s).onCore
      s.iss.core fun k => { k with tags := Tbl.put k.tags t { busy := true, ctx := s.iss.ctx } } := rfl

theorem takeTag_ctx {k : Nat} (hk : k < 4) : (s.takeTag t).ctx (4 * s.iss.core + k) =
    { s.ctx (4 * s.iss.core + k) with tags := (s.ctx (4 * s.iss.core + k)).tags &&& ~~~(bit64 t) } := by
  rw [takeTag_eq, State.ctx_onCore]
  have hr : List.range 4 = [0, 1, 2, 3] := rfl
  rw [hr]
  simp only [List.foldl_cons, List.foldl_nil]
  have hcases : k = 0 ∨ k = 1 ∨ k = 2 ∨ k = 3 := by omega
  rcases hcases with rfl | rfl | rfl | rfl
  · rw [State.ctx_onCtx_other _ _ (by omega), State.ctx_onCtx_other _ _ (by omega), State.ctx_onCtx_other _ _ (by omega),
      State.ctx_onCtx_self]
  · rw [State.ctx_onCtx_other _ _ (by omega), State.ctx_onCtx_other _ _ (by omega), State.ctx_onCtx_self,
      State.ctx_onCtx_other _ _ (by omega)]
  · rw [State.ctx_onCtx_other _ _ (by omega), State.ctx_onCtx_self, State.ctx_onCtx_other _ _ (by omega),
      State.ctx_onCtx_other _ _ (by omega)]
  · rw [State.ctx_onCtx_self, State.ctx_onCtx_other _ _ (by omega), State.ctx_onCtx_other _ _ (by omega),
      State.ctx_onCtx_other _ _ (by omega)]

theorem takeTag_core : Tbl.look ((s.takeTag t).core s.iss.core).tags t {} = { busy := true, ctx := s.iss.ctx } := by
  rw [takeTag_eq, State.core_onCore_self]
  exact Tbl.look_put_self _ _ _ _

theorem getLsbD_clear_bit64 (w : Word) (j : Nat) :
    (w &&& ~~~(bit64 t)).getLsbD j = (w.getLsbD j && decide (j ≠ t)) := by
  by_cases hj : j < 64
  · simp only [BitVec.getLsbD_and, BitVec.getLsbD_not, bit64, BitVec.getLsbD_ofNat, Nat.testBit_two_pow, hj, decide_true,
      Bool.true_and, ne_eq, decide_not, eq_comm (a := t)]
  · simp [BitVec.getLsbD_of_ge w j (by omega), BitVec.getLsbD_of_ge _ j (not_lt.1 hj)]

@[simp] theorem takeTag_mem : (s.takeTag t).mem = s.mem := by simp [takeTag_eq, List.range_succ, State.onCtx, State.onCore]
@[simp] theorem takeTag_coats : (s.takeTag t).coats = s.coats := by simp [takeTag_eq, List.range_succ, State.onCtx, State.onCore]
@[simp] theorem takeTag_engines : (s.takeTag t).engines = s.engines := by
  simp [takeTag_eq, List.range_succ, State.onCtx, State.onCore]

/-- The state that a command leaves when it has entered its queue, but for the fresh number. -/
theorem enqueueCopy_eq (c : CopyCmd) : s.enqueueCopy c =
    ((s.takeTag c.tag).onEngine (s.engineOf c) fun e => { e with queue := e.queue ++ [c] }).bump := rfl

theorem enqueueCopy_queued {e : Nat} (c : CopyCmd) (he : s.engineOf c = e) : Queued s (s.enqueueCopy c) e c.tag c := by
  subst he
  have hengine (k : Nat) : (s.takeTag c.tag).engine k = s.engine k := by rw [State.engine, takeTag_engines]; rfl
  have hengines (k : Nat) : (s.enqueueCopy c).engine k =
      ((s.takeTag c.tag).onEngine (s.engineOf c) fun e => { e with queue := e.queue ++ [c] }).engine k := (rfl)
  have hctx (k : Nat) : (s.enqueueCopy c).ctx k = (s.takeTag c.tag).ctx k := (rfl)
  have hcore (k : Nat) : (s.enqueueCopy c).core k = (s.takeTag c.tag).core k := (rfl)
  refine ⟨?_, fun k hk => ?_, ?_, fun k hk => ?_, ?_, ?_⟩
  · rw [hengines, State.engine_onEngine_self, hengine]
  · rw [hengines, State.engine_onEngine_other _ _ hk, hengine]
  · rw [hcore, takeTag_core]
  · rw [hctx, takeTag_ctx _ _ hk]
    simp only [getLsbD_clear_bit64]
    exact ⟨by simp, fun j hj => by simp [hj]⟩
  · rw [enqueueCopy_eq, State.bump_mem, State.onEngine, State.setEngine_mem, takeTag_mem]
  · rw [enqueueCopy_eq, State.bump_coats, State.onEngine, State.setEngine_coats, takeTag_coats]

end

/-! ### The words (R262, R263, R271, R272) -/

theorem wordAt_group (x : Ctx) (g : BitVec 5) {j : Nat} (hj : j < 8) : wordAt (x.group g) j = x.grp g j :=
  getD_map_range _ _ hj

theorem engineOf_copyMake (s : State) (k : CopyKind) (t : BitVec 6) (g : BitVec 5) (xop : Nat) :
    s.engineOf (s.copyMake k t g xop) = 4 * s.iface + (s.cx.grp g 4).toNat / 2 ^ 52 % 4 := by
  rw [State.engineOf, CopyCmd.eng, CopyCmd.g]
  exact congrArg (fun w : Word => 4 * s.iface + bitsOf w.toNat 52 2) (wordAt_group _ _ (by decide))

theorem engineOf_collMake (s : State) (t : BitVec 6) (g : BitVec 5) (op : Nat) :
    s.engineOf (s.collMake t g op) = 4 * s.iface + (s.cx.grp g 3).toNat % 4 := by
  have h : (BitVec.ofNat 64 ((s.cx.grp g 3).toNat % 4 * 2 ^ 52)).toNat / 2 ^ 52 % 2 ^ 2 = (s.cx.grp g 3).toNat % 4 := by
    rw [BitVec.toNat_ofNat]
    omega
  exact congrArg (4 * s.iface + ·) h

section
variable {s : State} {c : CopyCmd}

theorem copyWait_none (h : ¬ ((Tbl.look s.ico.tags c.tag {}).busy = true ∨ 64 ≤ (s.engine (s.engineOf c)).queue.length)) :
    State.copyWait c s = none := if_neg (by simpa using h)

theorem copyWait_some (h : (Tbl.look s.ico.tags c.tag {}).busy = true ∨ 64 ≤ (s.engine (s.engineOf c)).queue.length) :
    State.copyWait c s = some (true, s) := if_pos (by simpa using h)

end

section
variable {s : State} {i : Instr} {p : BitVec 4} {g : BitVec 5} {c : CopyCmd} {causes : State → List Cause} {body : State → State}

/-- A copy word that is free to issue waits while its tag is busy or its queue is full. -/
theorem copyWord_waits (he : exec i s = slotOp i (some p) { rs := groupRegs g } false (State.copyWait c) causes body s)
    (hs : s.iss.sure = false) (hf : Free i s) (hp : s.cx.preg p = true)
    (hb : (Tbl.look s.ico.tags c.tag {}).busy = true ∨ 64 ≤ (s.engine (s.engineOf c)).queue.length) :
    exec i s = .next (s.hold true) :=
  he.trans (slotOp_waits hs hf (fun _ h => by simp at h) (by simpa using hp) (copyWait_some hb))

/-- A copy word that does not wait and has no cause does what its body says. -/
theorem copyWord_does (he : exec i s = slotOp i (some p) { rs := groupRegs g } false (State.copyWait c) causes body s)
    (hp : predOf i = some p) :
    DoesIf (¬ ((Tbl.look s.ico.tags c.tag {}).busy = true ∨ 64 ≤ (s.engine (s.engineOf c)).queue.length) ∧ causes s = []) i s
      (body s) :=
  doesIf_slotOp he hp.symm (fun _ h => by simp at h) (fun h => copyWait_none h.1) And.right rfl

/-- A copy word that does not wait traps with the first of its causes. -/
theorem copyWord_traps (he : exec i s = slotOp i (some p) { rs := groupRegs g } false (State.copyWait c) causes body s)
    (hs : s.iss.sure = false) (hf : Free i s) (hp : s.cx.preg p = true)
    (hb : ¬ ((Tbl.look s.ico.tags c.tag {}).busy = true ∨ 64 ≤ (s.engine (s.engineOf c)).queue.length)) {k : Cause}
    (hc : firstCause (causes s) = some k) : exec i s = .next (s.takeTrap k) :=
  he.trans (slotOp_traps hs hf (fun _ h => by simp at h) (by simpa using hp) (copyWait_none hb) hc)

end

theorem queued_schedule {s u : State} {e tag : Nat} {c : CopyCmd} (h : Queued s u e tag c) (due src : Nat) (ev : Instr) :
    Queued s (u.schedule due src ev) e tag c :=
  ⟨h.queue, h.others, h.busy, h.tags, h.mem, h.coats⟩

/-- A COLL whose values break a limit is ILLOP (R382). -/
theorem collCauses_illop {s : State} {g : BitVec 5} (h : 32 ≤ (s.cx.grp g 1).toNat ∨ 4 ≤ (s.cx.grp g 3).toNat ∨
    ∃ j, 4 ≤ j ∧ j ≤ 7 ∧ s.cx.grp g j ≠ 0) : s.collCauses g = [kILLOP] := by
  refine if_pos ?_
  simp only [Bool.or_eq_true, decide_eq_true_eq, List.any_eq_true, bne_iff_ne]
  rcases h with h | h | ⟨j, h4, h7, hj⟩
  · exact .inl (.inl h)
  · exact .inl (.inr h)
  · refine .inr ⟨j, ?_, hj⟩
    have hcases : j = 4 ∨ j = 5 ∨ j = 6 ∨ j = 7 := by omega
    simpa using hcases

/-- So is one whose ME is not below the NMEM that its descriptor reads (R382). -/
theorem collCauses_nmem {s : State} {g : BitVec 5} {n : Nat}
    (hw : orderCauses ((if (s.cx.grp g 0).toNat % 128 = 0 then [] else [kALIGN (s.cx.grp g 0).toNat]) ++
      accessCauses s.cx.windows s.ico.staging (s.cx.grp g 0).toNat [{ va := (s.cx.grp g 0).toNat, len := 128 }] .read collKinds) = [])
    (hn : s.issueNmem (s.cx.grp g 0).toNat = some n) (h2 : 2 ≤ n) (h32 : n ≤ 32) (hme : n ≤ (s.cx.grp g 1).toNat) :
    s.collCauses g = [kILLOP] := by
  unfold State.collCauses
  dsimp only
  rw [hw, hn]
  split
  · rfl
  · simp [h2, h32, hme]

/-- What a command holds of the context that issues it (R67, R257, R260, R262, R263). -/
structure Sampled (s : State) (k : CopyKind) (t : BitVec 6) (g : BitVec 5) (xop : Nat) (c : CopyCmd) : Prop where
  kind : c.kind = k
  xop : c.xop = xop
  core : c.core = s.iss.core
  ctx : c.ctx = s.iss.ctx
  tag : c.tag = t.toNat
  part : c.part = s.ipart
  bid : c.bid = if s.cx.run = .booked then s.cx.bid else none
  first : c.group.take 4 = (s.cx.group g).take 4
  group : k ≠ .coll → c.group = s.cx.group g
  half : c.half = !(s.pair s.ipair).active
  nfr : c.nfr = s.cx.nfrXc.zeroExtend 64
  srcWin : c.srcWin = s.cx.windowWords (s.cx.grp g 0)
  dstWin : c.dstWin = s.cx.windowWords (s.cx.grp g 1)
  issued : c.issued = s.cycle
  done : c.done = 0
  started : c.started = false
  cancelled : c.cancelled = false

theorem sampled_copyMake (s : State) (k : CopyKind) (t : BitVec 6) (g : BitVec 5) (xop : Nat) :
    Sampled s k t g xop (s.copyMake k t g xop) := by
  constructor
  case group => exact fun _ => rfl
  all_goals rfl

theorem take_group (x : Ctx) (g : BitVec 5) : (x.group g).take 4 = [x.grp g 0, x.grp g 1, x.grp g 2, x.grp g 3] := rfl

theorem sampled_collMake (s : State) (t : BitVec 6) (g : BitVec 5) (op : Nat) :
    Sampled s .coll t g op (s.collMake t g op) := by
  constructor
  case group => exact fun h => absurd rfl h
  case first => rw [take_group]; simp only [State.collMake, List.take_succ_cons, List.take_zero]
  all_goals rfl

/-! ### CPYCAN (R273) -/

/-- A cancelled command of a queue; the others are as they were. -/
def cancelled (s : State) (t : Nat) (c : CopyCmd) : CopyCmd :=
  if c.core = s.iss.core ∧ c.tag = t ∧ c.canCancel s.tick then { c with cancelled := true } else c

/-- The copies of one engine that hold the tag are cancelled. -/
def State.cancelAt (s : State) (t e : Nat) : State :=
  if (s.engine e).queue.any fun c => c.core == s.iss.core && c.tag == t && c.canCancel s.tick then
    s.onEngine e fun y => { y with queue := y.queue.map (cancelled s t) }
  else s

theorem cancelAt_queue (s : State) (t e k : Nat) : ((s.cancelAt t e).engine k).queue =
    if k = e then (s.engine k).queue.map (cancelled s t) else (s.engine k).queue := by
  unfold State.cancelAt
  split
  · split
    · rename_i hk
      rw [hk, State.engine_onEngine_self]
    · rename_i hk
      rw [State.engine_onEngine_other _ _ hk]
  · rename_i hany
    split
    · rename_i hk
      subst hk
      refine (List.map_congr_left fun c hc => if_neg fun h => hany ?_).trans (List.map_id _) |>.symm
      exact List.any_eq_true.2 ⟨c, hc, by simpa [and_assoc] using h⟩
    · rfl

/-- Nothing but the engines differs. -/
structure EnginesOnly (s u : State) : Prop where
  iss : u.iss = s.iss
  cycle : u.cycle = s.cycle
  mem : u.mem = s.mem
  coats : u.coats = s.coats
  ctxs : u.ctxs = s.ctxs
  cores : u.cores = s.cores

theorem cancelAt_enginesOnly (s : State) (t e : Nat) : EnginesOnly s (s.cancelAt t e) := by
  unfold State.cancelAt
  split
  · exact ⟨rfl, rfl, rfl, rfl, rfl, rfl⟩
  · exact ⟨rfl, rfl, rfl, rfl, rfl, rfl⟩

/-- Each of the engines that are named, all different, has its queue's commands cancelled. -/
theorem foldl_cancelAt (s : State) (t : Nat) (l : List Nat) (hl : l.Nodup) (u : State) (hu : EnginesOnly s u) :
    let v := l.foldl (fun u i => u.cancelAt t (4 * u.iface + i)) u
    EnginesOnly s v ∧ ∀ k, (v.engine k).queue =
      if ∃ i ∈ l, k = 4 * s.iface + i then (u.engine k).queue.map (cancelled s t) else (u.engine k).queue := by
  induction l generalizing u with
  | nil => exact ⟨hu, fun k => (if_neg (by simp)).symm⟩
  | cons i l ih =>
    obtain ⟨hi, hl⟩ := List.nodup_cons.1 hl
    have hface : u.iface = s.iface := by rw [State.iface, hu.iss]; rfl
    have hmap : cancelled u t = cancelled s t := by
      funext c
      rw [cancelled, cancelled, hu.iss, State.tick, hu.cycle]
      rfl
    have hc := cancelAt_enginesOnly u t (4 * u.iface + i)
    obtain ⟨hv, hq⟩ := ih hl (u.cancelAt t (4 * u.iface + i)) ⟨hc.iss.trans hu.iss, hc.cycle.trans hu.cycle, hc.mem.trans hu.mem,
      hc.coats.trans hu.coats, hc.ctxs.trans hu.ctxs, hc.cores.trans hu.cores⟩
    refine ⟨hv, fun k => (hq k).trans ?_⟩
    rw [cancelAt_queue, hface, hmap]
    by_cases hk : k = 4 * s.iface + i
    · have hnot : ¬ ∃ j ∈ l, k = 4 * s.iface + j := by
        rintro ⟨j, hj, h⟩
        exact hi (by rwa [show i = j by omega])
      rw [if_neg hnot, if_pos hk, if_pos ⟨i, by simp, hk⟩]
    · rw [if_neg hk]
      refine if_congr ?_ rfl rfl
      simp [hk]

theorem cancelCopy_spec (s : State) (t : Nat) : EnginesOnly s (s.cancelCopy t) ∧ ∀ k, ((s.cancelCopy t).engine k).queue =
    if k / 4 = s.iface then (s.engine k).queue.map (cancelled s t) else (s.engine k).queue := by
  obtain ⟨hv, hq⟩ := foldl_cancelAt s t (List.range 4) List.nodup_range s ⟨rfl, rfl, rfl, rfl, rfl, rfl⟩
  refine ⟨hv, fun k => (hq k).trans (if_congr ?_ rfl rfl)⟩
  constructor
  · rintro ⟨i, hi, h⟩
    have := List.mem_range.1 hi
    omega
  · exact fun h => ⟨k % 4, List.mem_range.2 (Nat.mod_lt _ (by decide)), by omega⟩

theorem cancelled_eq (s : State) (t e : Nat) (he : e / 4 = s.iface) (c : CopyCmd) : cancelled s t c =
    if e / 4 = s.iface ∧ c.core = s.iss.core ∧ c.tag = t ∧ c.kind ≠ .coll ∧ (c.kind = .cpymc → s.tick < c.aux / 65536) then
      { c with cancelled := true } else c := by
  refine if_congr ?_ rfl rfl
  rw [show c.aux / 65536 = c.lt from rfl]
  simp [he, CopyCmd.canCancel, imp_iff_not_or]

/-- Settles O33, by one rule for the four words that put a command in a queue and one for CPYCAN. -/
theorem copyWords : Obligations.CopyWords := by
  intro s p t g x o eng lt busy queued
  have heng (k : CopyKind) (xop : Nat) : s.engineOf (s.copyMake k t g xop) = 4 * s.iface + eng := engineOf_copyMake ..
  have hcoll : s.engineOf (s.collMake t g o.toNat) = 4 * s.iface + (s.cx.grp g 3).toNat % 4 := engineOf_collMake ..
  have hbusy {c : CopyCmd} {n : Nat} (htag : c.tag = t.toNat) (he : s.engineOf c = 4 * s.iface + n) :
      busy (4 * s.iface + n) ↔ ((Tbl.look s.ico.tags c.tag {}).busy = true ∨ 64 ≤ (s.engine (s.engineOf c)).queue.length) := by
    rw [htag, he]
  -- a command that its word's frame makes, waits for and puts in its queue
  have enters {i : Instr} {k : CopyKind} {xop n : Nat} {causes : State → CopyCmd → List Cause} {c : CopyCmd} {body : State → State}
      (hc : Sampled s k t g xop c) (hn : s.engineOf c = 4 * s.iface + n) (hi : predOf i = some p)
      (he : exec i s = slotOp i (some p) { rs := groupRegs g } false (State.copyWait c) (fun s => causes s c) body s)
      (hq : Queued s (body s) (4 * s.iface + n) c.tag c) : queued i k xop n (causes s) (body s) := by
    have hb := hbusy hc.tag hn
    refine ⟨c, hc.tag ▸ hq, fun h hl => copyWord_does he hi ?_ hl, hc.kind, hc.xop, hc.core, hc.ctx, hc.tag, hc.part, hc.bid,
      hc.first, hc.group, hc.half, hc.nfr, hc.srcWin, hc.dstWin, hc.issued, hc.done, hc.started, hc.cancelled,
      fun hs hf hp h => copyWord_waits he hs hf hp (hb.1 h)⟩
    exact h.imp_right fun ⟨hf, hnb, h0⟩ => ⟨hf, fun h => hnb (hb.2 h), h0⟩
  -- a COLL that its values refuse
  have refused (hs : s.iss.sure = false) (hf : Free (.coll p t g o) s) (hp : s.cx.preg p = true)
      (hnb : ¬ busy (4 * s.iface + (s.cx.grp g 3).toNat % 4)) (h : s.collCauses g = [kILLOP]) :
      exec (.coll p t g o) s = .next (s.takeTrap { code := 0x01, stage := 3 }) := by
    have hb := (hbusy (sampled_collMake s t g o.toNat).tag hcoll).2
    have hfirst : firstCause (s.collCauses g) = some kILLOP := by rw [h]; rfl
    exact copyWord_traps (c := s.collMake t g o.toNat) (causes := fun s => s.collCauses g)
      (body := fun u => u.enqueueCopy (s.collMake t g o.toNat)) rfl hs hf hp (fun h => hnb (hb h)) hfirst
  refine ⟨?cpy, ?cpysl, ?cpymc, ?coll, ?limits, ?nmem, ?cpycan⟩
  case cpy =>
    exact ⟨_, enters (causes := State.cpyCauses) (body := fun u => u.enqueueCopy _) (sampled_copyMake s .cpy t g x.toNat)
      (heng _ _) rfl rfl (enqueueCopy_queued s _ (heng _ _))⟩
  case cpysl =>
    exact ⟨_, enters (causes := State.cpyCauses) (body := fun u => u.enqueueCopy _) (sampled_copyMake s .cpysl t g x.toNat)
      (heng _ _) rfl rfl (enqueueCopy_queued s _ (heng _ _))⟩
  case cpymc =>
    have hlt : (s.copyMake .cpymc t g 0).lt = lt := congrArg (fun w : Word => w.toNat / 65536) (wordAt_group s.cx g (j := 6) (by decide))
    refine ⟨_, enters (causes := State.cpymcCauses) (body := fun u => u.enqueueCpymc _) (sampled_copyMake s .cpymc t g 0)
      (heng _ _) rfl rfl (queued_schedule (queued_schedule (enqueueCopy_queued s _ (heng _ _)) _ _ _) _ _ _), ?_, ?_⟩
    all_goals
      rw [State.enqueueCpymc, heng, hlt]
      simp [show (s.copyMake .cpymc t g 0).id = s.fresh from rfl]
  case coll =>
    exact ⟨_, enters (causes := fun s _ => s.collCauses g) (body := fun u => u.enqueueCopy _) (sampled_collMake s t g o.toNat)
      hcoll rfl rfl (enqueueCopy_queued s _ hcoll)⟩
  case limits => exact fun hs hf hp hnb h => refused hs hf hp hnb (collCauses_illop h)
  case nmem =>
    intro w b u hs hf hp hnb va nmem h128 hw hr hacc h2 h32 hme
    refine refused hs hf hp hnb (collCauses_nmem (n := nmem) ?_ ?_ h2 h32 hme)
    · rw [if_pos h128, show collKinds = [0, 1] from rfl, hacc]
      rfl
    · simp only [State.issueNmem, show findWindow s.cx.windows (s.cx.grp g 0).toNat = some w from hw,
        show s.readVa s.iss.core (s.winReq (some w)) w (s.cx.grp g 0).toNat = (.ok b, u) from hr]
      rfl
  case cpycan =>
    obtain ⟨hu, hq⟩ := cancelCopy_spec s t.toNat
    have he : exec (.cpycan p t) s = slotOp (.cpycan p t) (some p) {} false noWait noCause (fun s => s.cancelCopy t.toNat) s := rfl
    have hdoes : Does (.cpycan p t) s (s.cancelCopy t.toNat) := fun h hl =>
      he.trans (h.slotOp hl (.inl rfl) (fun _ h => by simp at h) (fun _ _ => rfl) fun _ _ => rfl)
    refine ⟨s.cancelCopy t.toNat, hdoes, hu.mem, hu.coats, hu.ctxs, hu.cores, fun e => (hq e).trans ?_⟩
    split
    · rename_i he
      exact List.map_congr_left fun c _ => cancelled_eq s t.toNat e he c
    · rename_i he
      exact ((List.map_congr_left fun c _ => if_neg fun h => he h.1).trans (List.map_id _)).symm

end Sys2Proof.Machine
end

section
/-! SUPPORT for the family of numbers: codes packed into a number, bytes of a number, and blocks of memory. -/

namespace Sys2Proof.Machine
open Sys2Proof.Claims

/-! ### Packed codes (R73, R193) -/

/-- Each field of a packed number holds its own code. -/
theorem packCodes_field (w : Nat) (l : List Nat) (k : Nat) : packCodes w l / 2 ^ (w * k) % 2 ^ w = l.getD k 0 % 2 ^ w := by
  induction l generalizing k with
  | nil => simp [packCodes]
  | cons x l ih =>
    cases k with
    | zero => simp [packCodes]
    | succ k =>
      rw [packCodes, Nat.mul_succ, Nat.add_comm (w * k), Nat.pow_add, ← Nat.div_div_eq_div_mul, Nat.add_mul_div_left _ _ (Nat.two_pow_pos w),
        Nat.div_eq_of_lt (Nat.mod_lt _ (Nat.two_pow_pos w)), Nat.zero_add, ih]
      rfl

theorem packCodes_lt (w : Nat) (l : List Nat) : packCodes w l < 2 ^ (w * l.length) := by
  induction l with
  | nil => simp [packCodes]
  | cons x l ih =>
    have hx : x % 2 ^ w < 2 ^ w := Nat.mod_lt _ (Nat.two_pow_pos w)
    have hpow : 2 ^ (w * (x :: l).length) = 2 ^ w * 2 ^ (w * l.length) := by
      rw [List.length_cons, Nat.mul_succ, Nat.add_comm, Nat.pow_add]
    calc x % 2 ^ w + 2 ^ w * packCodes w l < 2 ^ w + 2 ^ w * packCodes w l := by omega
      _ = 2 ^ w * (packCodes w l + 1) := by ring
      _ ≤ 2 ^ (w * (x :: l).length) := hpow ▸ Nat.mul_le_mul_left _ ih

/-! ### Bytes of a number (R9) -/

/-- The bytes of a number make the number again, as far as they reach. -/
theorem leNat_leBytes (n x : Nat) : leNat (leBytes n x) = x % 256 ^ n := by
  induction n generalizing x with
  | zero => simp [leBytes, leNat, Nat.mod_one]
  | succ n ih =>
    rw [leBytes, leNat, ih, BitVec.toNat_ofNat]
    change x % 256 + 256 * (x / 256 % 256 ^ n) = x % 256 ^ (n + 1)
    rw [Nat.pow_succ', Nat.mod_mul]

/-! ### Blocks at places (R169) -/

section
variable (s : State) (p : Nat) (b : BlockVal)

theorem coatGet_coatPut_self (t : Tbl Coat) (p : Nat) (c : Coat) : coatGet (coatPut t p c) p = c := by
  unfold coatGet coatPut
  split
  · rename_i h
    rw [h]
    exact Tbl.look_del_self ..
  · exact Tbl.look_put_self ..

theorem coatGet_coatPut_other (t : Tbl Coat) {p q : Nat} (c : Coat) (h : q / 64 ≠ p / 64) : coatGet (coatPut t p c) q = coatGet t q := by
  unfold coatGet coatPut
  split
  · exact Tbl.look_del_other _ _ h
  · exact Tbl.look_put_other _ _ _ h

theorem putBlock_memGet_other {a : Nat} (h : a < p ∨ p + 64 ≤ a) : memGet (s.putBlock p b).mem a = memGet s.mem a :=
  memGet_memPutBytes_other _ _ _ _ (by rwa [length_leBytes])

theorem blockAt_putBlock_self : (s.putBlock p b).blockAt p = { b with data := b.data % 256 ^ 64 } := by
  have hbytes : memGetBytes (s.putBlock p b).mem p 64 = leBytes 64 b.data := by
    refine List.ext_getElem (by simp [memGetBytes]) fun i h _ => ?_
    have hi : i < (leBytes 64 b.data).length := by simpa [memGetBytes] using h
    simp only [memGetBytes, List.getElem_map, List.getElem_range]
    exact memGet_memPutBytes_at (leBytes 64 b.data) s.mem p i hi
  have hcoat : coatGet (s.putBlock p b).coats p = b.coat := coatGet_coatPut_self ..
  rw [State.blockAt, hbytes, hcoat, leNat_leBytes]

theorem blockAt_putBlock_other {q : Nat} (h : q + 64 ≤ p ∨ p + 64 ≤ q) : (s.putBlock p b).blockAt q = s.blockAt q := by
  have hbytes : memGetBytes (s.putBlock p b).mem q 64 = memGetBytes s.mem q 64 :=
    List.map_congr_left fun i hi => putBlock_memGet_other _ _ _ (by have := List.mem_range.1 hi; omega)
  have hcoat : coatGet (s.putBlock p b).coats q = coatGet s.coats q := coatGet_coatPut_other _ _ (by omega)
  rw [State.blockAt, hbytes, hcoat]
  rfl

end

end Sys2Proof.Machine
end

section
/-! O54, the layer of collectives: members, receive tiles and planes after each operation on them (R381, R385). -/

namespace Sys2Proof.Machine
open Sys2Proof.Claims

theorem State.coll?_setColl_self (s : State) (k : Nat) (c : Coll) : (s.setColl k c).coll? k = some c := Tbl.find_put_self ..

/-! ### Members -/

section
variable (c : Coll) (m : Nat) (f : Member → Member)

theorem Coll.length_onMember : (c.onMember m f).members.length = c.members.length := by simp [Coll.onMember]

theorem Coll.member_onMember (j : Nat) : (c.onMember m f).member j =
    if j = m ∧ j < c.members.length then f (c.member j) else c.member j := by
  rw [Coll.member, Coll.member, Coll.onMember, List.getD_eq_getElem?_getD, List.getD_eq_getElem?_getD, List.getElem?_map,
    List.getElem?_zipIdx]
  by_cases h : j < c.members.length
  · by_cases hj : j = m <;> simp [h, hj]
    simp [← hj, h]
  · simp [h]

theorem Coll.member_onMember_self (h : m < c.members.length) : (c.onMember m f).member m = f (c.member m) :=
  (c.member_onMember m f m).trans (if_pos ⟨rfl, h⟩)

/-- What the change keeps of every member is kept. -/
theorem Coll.member_onMember_keeps {α : Type} (p : Member → α) (hf : ∀ z, p (f z) = p z) (j : Nat) :
    p ((c.onMember m f).member j) = p (c.member j) := by
  rw [Coll.member_onMember]
  split
  · exact hf _
  · rfl

theorem Coll.sinks_onMember (j t : Nat) : (c.onMember m f).sinks j t = c.sinks j t := by
  simp only [Coll.sinks, Coll.nmem, Coll.length_onMember]
  rfl

end

/-! ### Receive tiles -/

section
variable {c : Coll} {m n : Nat} {r : RTile}

theorem Coll.tile?_eq (h : c.tile? m n = some r) : r.m = m ∧ r.t = n := by
  simpa using List.find?_some h

/-- The tile of a member and number after it has been changed. -/
theorem Coll.tile?_onTile (f : RTile → RTile) (hm : (f r).m = m) (ht : (f r).t = n) (h : c.tile? m n = some r) :
    (c.onTile m n f).tile? m n = some (f r) := by
  unfold Coll.tile? Coll.onTile at *
  generalize c.tiles = l at h
  dsimp only
  induction l with
  | nil => cases h
  | cons z l ih =>
    by_cases hz : z.m = m ∧ z.t = n
    · obtain rfl : z = r := by simpa [List.find?_cons, hz] using h
      simp [hz, hm, ht]
    · have hb : (z.m == m && z.t == n) = false := by simpa using hz
      rw [List.find?_cons, hb] at h
      rw [List.map_cons, if_neg hz, List.find?_cons, hb]
      exact ih h

end

/-! ### Events -/

theorem mem_schedule (s : State) (due src : Nat) (ev : Instr) : { due := due, src := src, ev := ev } ∈ (s.schedule due src ev).agenda := by
  simp

/-- Nothing of the agenda is lost. -/
def AgendaGrows (s t : State) : Prop := ∀ e ∈ s.agenda, e ∈ t.agenda

theorem AgendaGrows.trans {s t u : State} (h : AgendaGrows s t) (h' : AgendaGrows t u) : AgendaGrows s u := fun e he => h' e (h e he)

theorem agendaGrows_foldl {α : Type} (f : State → α → State) (hf : ∀ s a, AgendaGrows s (f s a)) (l : List α) (s : State) :
    AgendaGrows s (l.foldl f s) := by
  induction l generalizing s with
  | nil => exact fun _ he => he
  | cons a l ih => exact (hf s a).trans (ih _)

/-- What one step of a fold puts on the agenda is there in the end. -/
theorem mem_agenda_foldl {α : Type} (f : State → α → State) (hf : ∀ s a, AgendaGrows s (f s a)) {l : List α} {a : α} (ha : a ∈ l)
    {p : Timed → Prop} {i : State → Prop} (hi : ∀ s a, i s → i (f s a)) (hp : ∀ s, i s → ∃ e ∈ (f s a).agenda, p e) (s : State)
    (hs : i s) : ∃ e ∈ (l.foldl f s).agenda, p e := by
  induction l generalizing s with
  | nil => cases ha
  | cons b l ih =>
    rcases List.mem_cons.1 ha with rfl | ha
    · obtain ⟨e, he, hpe⟩ := hp s hs
      exact ⟨e, agendaGrows_foldl f hf l _ e he, hpe⟩
    · exact ih ha _ (hi s b hs)

/-- A field that no step of a fold changes. -/
theorem foldl_keeps {σ α β : Type} (p : σ → β) (f : σ → α → σ) (hf : ∀ s a, p (f s a) = p s) (l : List α) (s : σ) :
    p (l.foldl f s) = p s := by
  induction l generalizing s with
  | nil => rfl
  | cons a l ih => exact (ih _).trans (hf s a)

end Sys2Proof.Machine
end

section
/-! O54, first part: the planes of a sender (R73, R377, R385, R387, R395). -/

namespace Sys2Proof.Machine
open Sys2Proof.Claims

/-! ### The bits of a plane (R73, R387) -/

/-- Element `el` of a send tile: 0 in a silent block, and else its byte. -/
theorem tileElems_getD (bs : List BlockVal) (silent : List Nat) (el : Nat) (h : el < 64 * bs.length) :
    (tileElems bs silent).getD el 0 =
      if silent.contains (el / 64) then 0 else bitsOf (bs.getD (el / 64) zeroBlock).data (8 * (el % 64)) 8 := by
  have hr : el / 64 < bs.length := by omega
  have h1 : bs.zipIdx[el / 64]? = some (bs[el / 64], el / 64) := by simp [hr]
  have h2 := getD_flatMap (n := 64) (fun x : BlockVal × Nat => (List.range 64).map fun k =>
    if silent.contains x.2 then 0 else bitsOf x.1.data (8 * k) 8) bs.zipIdx (by simp) 0 (Nat.mod_lt el (by decide)) _ h1
  rw [show 64 * (el / 64) + el % 64 = el by omega, getD_map_range _ _ (Nat.mod_lt _ (by decide))] at h2
  rw [show tileElems bs silent = bs.zipIdx.flatMap _ from rfl, List.getD_eq_getElem _ _ hr]
  exact h2

theorem planeByte_bit (es : List Nat) (j i b : Nat) (hb : b < 8) : (planeByte es j i).getLsbD b = (es.getD (8 * i + b) 0).testBit j := by
  have hfield := packCodes_field 1 ((List.range 8).map fun b => es.getD (8 * i + b) 0 / 2 ^ j) b
  rw [getD_map_range _ _ hb, Nat.one_mul, Nat.pow_one] at hfield
  rw [planeByte, BitVec.getLsbD_ofNat, Nat.testBit_eq_decide_div_mod_eq, hfield, Nat.testBit_eq_decide_div_mod_eq]
  simp [hb]

/-- The 128 bytes of a plane carry bit `j` of each of the 1,024 elements. -/
theorem plane_bit (es : List Nat) (j el : Nat) (h : el < 1024) :
    (((List.range 128).map (planeByte es j)).getD (el / 8) 0).getLsbD (el % 8) = (es.getD el 0).testBit j := by
  rw [getD_map_range _ _ (by omega), planeByte_bit _ _ _ _ (Nat.mod_lt _ (by decide)), show 8 * (el / 8) + el % 8 = el by omega]

theorem testBit_bitsOf (x lo n j : Nat) (h : j < n) : (bitsOf x lo n).testBit j = x.testBit (lo + j) := by
  simp [bitsOf, Nat.testBit_mod_two_pow, Nat.testBit_div_two_pow, h, Nat.add_comm]

theorem sendBlocks_getD (s : State) (x : Member) (t : Nat) {r : Nat} (h : r < 16) (d : BlockVal) :
    (s.sendBlocks x t).getD r d = s.blockAt (scratchPlace x.pair (x.sbuf % 2 ^ 21 + 1024 * t + 64 * r)) := getD_map_range _ _ h

theorem length_sendBlocks (s : State) (x : Member) (t : Nat) : (s.sendBlocks x t).length = 16 := by simp [State.sendBlocks]

/-! ### Scale and poisoned blocks of a send tile (R387) -/

section
variable (uns : Bool) (bs : List BlockVal)

/-- A block that gives a scale: neither poisoned nor zero, and of the CODE that the collective asks for. -/
def liveBlock (b : BlockVal) : Bool := !coatPoison b.coat && !coatZero b.coat && coatCode b.coat == if uns then 0x09 else 0x08

theorem liveBlock_iff (b : BlockVal) : liveBlock uns b = true ↔
    coatPoison b.coat = false ∧ coatZero b.coat = false ∧ coatCode b.coat = if uns then 0x09 else 0x08 := by
  simp [liveBlock, and_assoc]

theorem tileScale_fst : (tileScale uns bs).1 = ((bs.find? (liveBlock uns)).map fun b => BitVec.ofInt 8 (coatE b.coat)).getD 0 := by
  rw [← List.head?_filter]
  unfold tileScale liveBlock
  rfl

/-- The scale is that of the first live block. -/
theorem tileScale_of_first {r : Nat} (hr : r < bs.length) (hl : liveBlock uns bs[r] = true)
    (hb : ∀ j (h : j < r), liveBlock uns (bs[j]'(h.trans hr)) = false) :
    (tileScale uns bs).1 = BitVec.ofInt 8 (coatE bs[r].coat) := by
  have hfind : bs.find? (liveBlock uns) = some bs[r] :=
    List.find?_eq_some_iff_getElem.2 ⟨hl, r, hr, rfl, fun j h => by simp [hb j h]⟩
  rw [tileScale_fst, hfind]
  rfl

/-- It is 0 where no block is live. -/
theorem tileScale_of_none (h : ∀ b ∈ bs, liveBlock uns b = false) : (tileScale uns bs).1 = 0 := by
  have hfind : bs.find? (liveBlock uns) = none := List.find?_eq_none.2 fun b hb => by simp [h b hb]
  rw [tileScale_fst, hfind]
  rfl

/-- A block of the tile is poisoned where it is itself, or is no zero block and not live with the tile's scale. -/
theorem mem_tileScale {r : Nat} : r ∈ (tileScale uns bs).2 ↔ ∃ h : r < bs.length, coatPoison bs[r].coat = true ∨
    coatZero bs[r].coat = false ∧ ¬ (liveBlock uns bs[r] = true ∧ BitVec.ofInt 8 (coatE bs[r].coat) = (tileScale uns bs).1) := by
  have hb (b : BlockVal) : (coatPoison b.coat || (!coatZero b.coat && (coatCode b.coat != (if uns then 0x09 else 0x08) ||
      BitVec.ofInt 8 (coatE b.coat) != (tileScale uns bs).1))) = true ↔ coatPoison b.coat = true ∨
      coatZero b.coat = false ∧ ¬ (liveBlock uns b = true ∧ BitVec.ofInt 8 (coatE b.coat) = (tileScale uns bs).1) := by
    rw [liveBlock_iff]
    cases coatPoison b.coat <;> cases coatZero b.coat <;> simp [imp_iff_not_or]
  have hmem : r ∈ (tileScale uns bs).2 ↔ ∃ b, bs[r]? = some b ∧ (coatPoison b.coat || (!coatZero b.coat &&
      (coatCode b.coat != (if uns then 0x09 else 0x08) || BitVec.ofInt 8 (coatE b.coat) != (tileScale uns bs).1))) = true := by
    unfold tileScale
    simp only [List.mem_map, List.mem_filter, Prod.exists, List.mem_zipIdx_iff_getElem?]
    constructor
    · rintro ⟨b, i, ⟨h, hp⟩, rfl⟩
      exact ⟨b, h, hp⟩
    · rintro ⟨b, h, hp⟩
      exact ⟨b, r, ⟨h, hp⟩, rfl⟩
  rw [hmem]
  constructor
  · rintro ⟨b, h, hp⟩
    obtain ⟨hr, rfl⟩ := List.getElem?_eq_some_iff.1 h
    exact ⟨hr, (hb _).1 hp⟩
  · rintro ⟨hr, hp⟩
    exact ⟨bs[r], by simp [hr], (hb _).2 hp⟩

theorem silentBlocks_contains {bad : List Nat} {r : Nat} (h : r < bs.length) :
    (silentBlocks bs bad).contains r = (bad.contains r || coatZero bs[r].coat) := by
  rw [Bool.eq_iff_iff]
  simp [silentBlocks, h]

end

/-! ### A sender reads its tiles (R387) -/

section
variable (s : State) (x : Member) (m : Nat)

/-- The scale and the poisoned blocks of tile `t`: those kept from the first plane, or those read now. -/
def Coll.scaleOf (c : Coll) (t : Nat) : Nat × Byte × List Nat :=
  ((c.member m).scales.find? fun e => e.1 == t).getD (t, tileScale c.uns (s.sendBlocks x t))

/-- The silent blocks of tile `t`: those kept from the first plane, or those read now. -/
def Coll.silentOf (c : Coll) (t : Nat) : List Nat :=
  (((c.member m).silent.find? fun e => e.1 == t).map Prod.snd).getD
    (silentBlocks (s.sendBlocks x t) (c.scaleOf s x m t).2.2)

/-- The collective with scale and silent blocks of tile `t` kept. -/
def Coll.keepScale (c : Coll) (t : Nat) : Coll :=
  if (c.member m).scales.any fun e => e.1 == t then c
  else c.onMember m fun z => { z with scales := z.scales ++ [c.scaleOf s x m t], silent := z.silent ++ [(t, c.silentOf s x m t)] }

/-- The bytes of a plane of tile `t`. -/
def Coll.planeBytes (c : Coll) (t : Nat) : List Byte :=
  (List.range 128).map (planeByte (tileElems (s.sendBlocks x t) (c.silentOf s x m t)) (7 - x.planes))

/-- One tile's step of reading a plane. -/
def Coll.readTile (c : Coll) (t : Nat) : Coll :=
  { c.keepScale s x m t with sent := (c.keepScale s x m t).sent ++ [(m, t, x.planes, c.planeBytes s x m t)] }

theorem readPlane_eq (c : Coll) (tiles : List Nat) :
    s.readPlane c m tiles = tiles.foldl (Coll.readTile s (c.member m) m) c := rfl

variable {s x m}

theorem keepScale_sent (c : Coll) (t : Nat) : (c.keepScale s x m t).sent = c.sent := by
  unfold Coll.keepScale
  split <;> rfl

/-- What every member keeps when a tile is read. -/
theorem readTile_member {α : Type} (p : Member → α) (hp : ∀ z sc si, p { z with scales := sc, silent := si } = p z) (c : Coll) (t j : Nat) :
    p ((c.readTile s x m t).member j) = p (c.member j) := by
  have h : (c.readTile s x m t).member j = (c.keepScale s x m t).member j := rfl
  rw [h, Coll.keepScale]
  split
  · rfl
  · exact Coll.member_onMember_keeps _ _ _ p (fun z => hp z _ _) j

theorem readTile_length (c : Coll) (t : Nat) : (c.readTile s x m t).members.length = c.members.length := by
  have h : (c.readTile s x m t).members = (c.keepScale s x m t).members := rfl
  rw [h, Coll.keepScale]
  split
  · rfl
  · exact Coll.length_onMember ..

theorem plane?_readTile (c : Coll) (t j n i : Nat) : (c.readTile s x m t).plane? j n i =
    (c.plane? j n i).or (if m = j ∧ t = n ∧ x.planes = i then some (c.planeBytes s x m t) else none) := by
  have h : (c.readTile s x m t).sent = c.sent ++ [(m, t, x.planes, c.planeBytes s x m t)] :=
    congrArg (· ++ _) (keepScale_sent c t)
  rw [Coll.plane?, Coll.plane?, h, List.find?_append]
  generalize c.sent.find? _ = o
  cases o with
  | some e => rfl
  | none =>
    by_cases he : m = j ∧ t = n ∧ x.planes = i
    · simp [he]
    · have hb : (m == j && t == n && x.planes == i) = false := by simpa [and_assoc] using he
      simp [hb, he]

/-- The scales and silent blocks of a member after one of its tiles has been read. -/
theorem keepScale_kept (c : Coll) (t : Nat) (hm : m < c.members.length) :
    ((c.readTile s x m t).member m).scales =
      (if (c.member m).scales.any fun e => e.1 == t then (c.member m).scales else (c.member m).scales ++ [c.scaleOf s x m t]) ∧
    ((c.readTile s x m t).member m).silent =
      (if (c.member m).scales.any fun e => e.1 == t then (c.member m).silent else (c.member m).silent ++ [(t, c.silentOf s x m t)]) := by
  have h : (c.readTile s x m t).member m = (c.keepScale s x m t).member m := rfl
  rw [h, Coll.keepScale]
  split
  · exact ⟨rfl, rfl⟩
  · rw [Coll.member_onMember_self _ _ _ hm]
    exact ⟨rfl, rfl⟩

theorem scaleOf_fst (c : Coll) (t : Nat) : (c.scaleOf s x m t).1 = t := by
  unfold Coll.scaleOf
  cases h : (c.member m).scales.find? fun e => e.1 == t with
  | none => rfl
  | some e => simpa using List.find?_some h

/-- What a sender knows of tile `n` is the same in both. -/
structure SameTile (m n i : Nat) (c c' : Coll) : Prop where
  plane : c'.plane? m n i = c.plane? m n i
  scale : (c'.member m).scales.find? (fun e => e.1 == n) = (c.member m).scales.find? (fun e => e.1 == n)
  silent : (c'.member m).silent.find? (fun e => e.1 == n) = (c.member m).silent.find? (fun e => e.1 == n)
  uns : c'.uns = c.uns

theorem readTile_uns (c : Coll) (t : Nat) : (c.readTile s x m t).uns = c.uns := by
  have h : (c.readTile s x m t).uns = (c.keepScale s x m t).uns := rfl
  rw [h, Coll.keepScale]
  split <;> rfl

theorem sameTile_readTile (c : Coll) {t n : Nat} (h : t ≠ n) (hm : m < c.members.length) : SameTile m n x.planes c (c.readTile s x m t) := by
  obtain ⟨hsc, hsi⟩ := keepScale_kept (s := s) (x := x) c t hm
  refine ⟨?_, ?_, ?_, readTile_uns c t⟩
  · rw [plane?_readTile, if_neg fun h' => h h'.2.1, Option.or_none]
  · rw [hsc]
    split
    · rfl
    · simp [scaleOf_fst, h]
  · rw [hsi]
    split
    · rfl
    · simp [h]

theorem SameTile.scaleOf {c c' : Coll} {n : Nat} (h : SameTile m n x.planes c c') : c'.scaleOf s x m n = c.scaleOf s x m n := by
  rw [Coll.scaleOf, Coll.scaleOf, h.scale, h.uns]

theorem SameTile.planeBytes {c c' : Coll} {n : Nat} (h : SameTile m n x.planes c c') : c'.planeBytes s x m n = c.planeBytes s x m n := by
  rw [Coll.planeBytes, Coll.planeBytes, Coll.silentOf, Coll.silentOf, h.scaleOf, h.silent]

/-- What has been read of tile `n` stays, whatever is read after it. -/
theorem foldl_readTile_kept (l : List Nat) (c : Coll) (hm : m < c.members.length) {n : Nat} :
    (∀ p, c.plane? m n x.planes = some p → (l.foldl (Coll.readTile s x m) c).plane? m n x.planes = some p) ∧
    ∀ z ∈ (c.member m).scales, z ∈ ((l.foldl (Coll.readTile s x m) c).member m).scales := by
  induction l generalizing c with
  | nil => exact ⟨fun _ h => h, fun _ h => h⟩
  | cons t l ih =>
    obtain ⟨hp, hz⟩ := ih (c.readTile s x m t) (by rwa [readTile_length])
    refine ⟨fun p h => hp p ?_, fun z h => hz z ?_⟩
    · rw [plane?_readTile, h, Option.some_or]
    · rw [(keepScale_kept c t hm).1]
      split
      · exact h
      · exact List.mem_append_left _ h

/-- Each tile that is read, and has not been, gives its plane; and its scale, where it had none. -/
theorem foldl_readTile (l : List Nat) (c : Coll) (hm : m < c.members.length) {n : Nat} (hn : n ∈ l)
    (hp : c.plane? m n x.planes = none) :
    (l.foldl (Coll.readTile s x m) c).plane? m n x.planes = some (c.planeBytes s x m n) ∧
    ((c.member m).scales.find? (fun e => e.1 == n) = none →
      c.scaleOf s x m n ∈ ((l.foldl (Coll.readTile s x m) c).member m).scales) := by
  induction l generalizing c with
  | nil => cases hn
  | cons t l ih =>
    have hm' : m < (c.readTile s x m t).members.length := by rwa [readTile_length]
    by_cases ht : t = n
    · subst ht
      obtain ⟨hkp, hks⟩ := foldl_readTile_kept (s := s) (x := x) (n := t) l _ hm'
      refine ⟨hkp _ ?_, fun h => hks _ ?_⟩
      · rw [plane?_readTile, hp, if_pos ⟨rfl, rfl, rfl⟩, Option.none_or]
      · have hany : ((c.member m).scales.any fun e => e.1 == t) = false := by simpa using h
        rw [(keepScale_kept c t hm).1, hany]
        simp
    · have hsame : SameTile m n x.planes c (c.readTile s x m t) := sameTile_readTile c ht hm
      obtain ⟨hip, his⟩ := ih (c.readTile s x m t) hm' ((List.mem_cons.1 hn).resolve_left (Ne.symm ht)) (hsame.plane.trans hp)
      exact ⟨hip.trans (congrArg some hsame.planeBytes), fun h => hsame.scaleOf (s := s) ▸ his (hsame.scale.trans h)⟩

end

end Sys2Proof.Machine
end

section
/-! O54, second part: the link steps of a sender (R210, R377, R385, R387, R395). -/

namespace Sys2Proof.Machine
open Sys2Proof.Claims

/-! ### What a step does to the rest of the state -/

theorem flitsLeft_sendFlits (s : State) (f row n later : Nat) :
    (s.sendFlits f row n later).flitsLeft f row = s.flitsLeft f row - n := by
  have hlook : Tbl.look ((s.sendFlits f row n later).face f).flits row (0, 0, 0) =
      (s.tick, (s.flitsUsed f row).1 + n, (s.flitsUsed f row).2 + later) := by
    rw [State.sendFlits, State.face_onFace_self]
    exact Tbl.look_put_self ..
  have hused : ((s.sendFlits f row n later).flitsUsed f row).1 = (s.flitsUsed f row).1 + n := by
    rw [State.flitsUsed, hlook]
    exact congrArg Prod.fst (if_pos rfl)
  rw [State.flitsLeft, State.flitsLeft, hused]
  omega

/-- The landing of a receive tile that all its contributors have reached. -/
def State.sendLanding (k : Nat) (c : Coll) (i : Nat) (s : State) (q : Nat × Nat) : State :=
  if (c.member q.1).peer = 0 ∧ c.gathered q.1 q.2 i then
    (s.schedule (s.cycle + 1 + Config.planeTime s.fresh) srcFabric (.planeLanding k q.1 q.2 (7 - i))).bump
  else s

section
variable (s : State) (k : Nat) (c : Coll) (m i : Nat) (tiles : List Nat)

theorem sendLanding_keeps {α : Type} (p : State → α) (hp : ∀ s due src ev, p (State.bump (s.schedule due src ev)) = p s) (q : Nat × Nat) :
    p (s.sendLanding k c i q) = p s := by
  unfold State.sendLanding
  split
  · exact hp ..
  · rfl

theorem sendLandings_keeps {α : Type} (p : State → α) (hp : ∀ s due src ev, p (State.bump (s.schedule due src ev)) = p s) :
    p (s.sendLandings k c m i tiles) = p s :=
  foldl_keeps p _ (fun s q => sendLanding_keeps s k c i p hp q) _ s

theorem agendaGrows_sendLanding (q : Nat × Nat) : AgendaGrows s (s.sendLanding k c i q) := by
  intro e he
  unfold State.sendLanding
  split
  · simp [he]
  · exact he

/-- The landing of each receive tile that is reached comes later. -/
theorem mem_sendLandings {n r u : Nat} (hn : n ∈ tiles) (hr : (r, u) ∈ c.sinks m n) (hp : (c.member r).peer = 0)
    (hg : c.gathered r u i = true) : ∃ due, s.cycle < due ∧
      { due := due, src := srcFabric, ev := .planeLanding k r u (7 - i) } ∈ (s.sendLandings k c m i tiles).agenda := by
  obtain ⟨e, he, due, hdue, rfl⟩ := mem_agenda_foldl (State.sendLanding k c i) (fun s q => agendaGrows_sendLanding s k c i q)
    (List.mem_flatMap.2 ⟨n, hn, hr⟩) (i := fun t => t.cycle = s.cycle)
    (p := fun e => ∃ due, s.cycle < due ∧ e = { due := due, src := srcFabric, ev := .planeLanding k r u (7 - i) })
    (fun t q ht => (sendLanding_keeps t k c i State.cycle (fun _ _ _ _ => rfl) q).trans ht)
    (fun t ht => ⟨_, by
      rw [State.sendLanding, if_pos ⟨hp, hg⟩]
      exact mem_schedule .., _, by omega, rfl⟩) s rfl
  exact ⟨due, hdue, he⟩

end

/-! ### Which step a sender takes (R210, R395) -/

section
variable {s : State} {c : Coll} {m : Nat}

/-- A sender of this package that has a whole plane before it and may start a link step. -/
structure Sender (s : State) (c : Coll) (m : Nat) (tiles : List Nat) : Prop where
  joined : ∀ y ∈ c.members, y.joined = true
  absent : c.absent = false
  peerlost : c.peerlost = false
  peer : (c.member m).peer = 0
  planes : (c.member m).planes < c.q
  stopped : (c.member m).stopped = false
  flits : (c.member m).flits = 0
  next : (c.member m).next ≤ s.cycle
  left : (List.range (c.sends m)).filter (fun t => !(c.member m).heard.contains t) = tiles
  nonempty : tiles ≠ []
  fits : 2 * tiles.length ≤ 272 * (32 - s.cycle % 32) / 32

variable {tiles : List Nat}

theorem Sender.sending (h : Sender s c m tiles) : c.sending m = true := by
  have hsends : c.sends m ≠ 0 := by
    intro h0
    have ht := h.left
    rw [h0] at ht
    exact h.nonempty ht.symm
  have hcomplete : c.complete = true := List.all_eq_true.2 h.joined
  simp [Coll.sending, hcomplete, Coll.lost, h.absent, h.peerlost, h.peer, h.planes, h.stopped, hsends]

theorem Sender.nextTiles (h : Sender s c m tiles) : c.nextTiles m = tiles := (if_pos h.flits).trans h.left

theorem Sender.canStart (h : Sender s c m tiles) :
    (!(c.sending m) || decide (s.cycle < (c.member m).next) || 2 * (c.nextTiles m).length - (c.member m).flits == 0) = false := by
  have hnext := h.next
  rw [h.sending, h.nextTiles, h.flits]
  simp [hnext, h.nonempty]

/-- The step of a whole plane. -/
theorem Sender.step_flits (h : Sender s c m tiles) (hleft : 2 * tiles.length ≤ s.flitsLeft ((c.member m).pair / 8) (rowLink (c.member m).lrow)) :
    min (2 * (c.nextTiles m).length - (c.member m).flits) (s.stepFlits ((c.member m).pair / 8) (rowLink (c.member m).lrow)) =
      2 * tiles.length := by
  have hfits := h.fits
  rw [h.nextTiles, h.flits, State.stepFlits, tickFlits]
  omega

/-- A free sender starts its step where the row is FREE for all of it. -/
theorem Sender.sendStep_free (h : Sender s c m tiles) (hb : s.memberBid (c.member m) = none)
    (hleft : 2 * tiles.length ≤ s.flitsLeft ((c.member m).pair / 8) (rowLink (c.member m).lrow))
    (hfree : (s.face ((c.member m).pair / 8)).freeCycles (rowLink (c.member m).lrow) s.cycle (s.cycle + stepCycles (2 * tiles.length) - 1)
      = true) : s.sendStep c m = .go (2 * tiles.length) := by
  unfold State.sendStep
  simp only [h.canStart, h.step_flits hleft, hb, hfree]
  simp [h.nonempty]

/-- First tick of the plane that a booked sender has before it. -/
theorem planeTick_eq {x : Member} {b : Nat} {y : Booking} (hy : Tbl.find (s.face (x.pair / 8)).bookings b = some y) (i : Nat) :
    s.planeTick x b i = y.start + x.loff + i * x.pticks := by
  rw [State.planeTick, hy]
  rfl

/-- The ticks from `now` to the end `e` all belong to booking `b`. -/
theorem owned_all {f : Face} {row now e b : Nat} :
    ((List.range (e - now)).all fun i => f.owner row (now + i) == .bid b) = true ↔ ∀ u, now ≤ u → u < e → f.owner row u = .bid b := by
  simp only [List.all_eq_true, List.mem_range, beq_iff_eq]
  constructor
  · intro h u hu he
    have := h (u - now) (by omega)
    rwa [show now + (u - now) = u by omega] at this
  · exact fun h i hi => h _ (by omega) (by omega)

/-- A booked sender starts its step where the rest of the plane's ticks are its own. -/
theorem Sender.sendStep_owned (h : Sender s c m tiles) {b t0 : Nat} (hb : s.memberBid (c.member m) = some b)
    (hleft : 2 * tiles.length ≤ s.flitsLeft ((c.member m).pair / 8) (rowLink (c.member m).lrow))
    (ht0 : s.planeTick (c.member m) b (c.member m).planes = t0) (hle : t0 ≤ s.tick) (hlt : s.tick < t0 + (c.member m).pticks)
    (hown : ∀ u, s.tick ≤ u → u < t0 + (c.member m).pticks →
      (s.face ((c.member m).pair / 8)).owner (rowLink (c.member m).lrow) u = .bid b) :
    s.sendStep c m = .go (2 * tiles.length) := by
  have hfits := h.fits
  have hceil : ceilDiv (2 * tiles.length) tickFlits ≤ 1 := by
    rw [ceilDiv, tickFlits]
    omega
  have hall := owned_all.2 hown
  unfold State.sendStep
  simp only [h.canStart, h.step_flits hleft, hb, ht0, max_eq_right hle, hall]
  rw [h.nextTiles, h.flits]
  simp [show ¬ s.tick < t0 by omega, show ¬ t0 + (c.member m).pticks - s.tick < ceilDiv (2 * tiles.length) tickFlits by omega,
    h.nonempty]

/-- One of whose ticks some is not its own owes an OVERRUN. -/
theorem Sender.sendStep_overrun (h : Sender s c m tiles) {b t0 t' : Nat} (hb : s.memberBid (c.member m) = some b)
    (ht0 : s.planeTick (c.member m) b (c.member m).planes = t0) (hle : t0 ≤ s.tick) (hle' : s.tick ≤ t')
    (hlt : t' < t0 + (c.member m).pticks)
    (hown : (s.face ((c.member m).pair / 8)).owner (rowLink (c.member m).lrow) t' ≠ .bid b) :
    s.sendStep c m = .overrun (rowLink (c.member m).lrow) := by
  have hall : ((List.range (t0 + (c.member m).pticks - s.tick)).all fun i =>
      (s.face ((c.member m).pair / 8)).owner (rowLink (c.member m).lrow) (s.tick + i) == .bid b) = false :=
    Bool.eq_false_iff.2 fun hall => hown (owned_all.1 hall t' hle' hlt)
  unfold State.sendStep
  simp only [h.canStart, hb, ht0, max_eq_right hle, hall]
  simp [show ¬ s.tick < t0 by omega]

/-! ### The step of a whole plane -/

/-- First cycle in which the sender may start its next step. -/
def State.nextStep (s : State) (c : Coll) (m n : Nat) : Nat :=
  if (s.memberBid (c.member m)).isSome then 32 * (s.tick + 1) else s.cycle + stepCycles n

/-- The collective after a step that sends a whole plane. -/
def State.stepped (s : State) (c : Coll) (m : Nat) (tiles : List Nat) : Coll :=
  (s.readPlane c m tiles).onMember m fun z =>
    { z with planes := z.planes + 1, flits := 0, going := [], next := s.nextStep c m (2 * tiles.length) }

/-- The state with that collective and the flits of the step. -/
def State.withFlits (s : State) (k : Nat) (c : Coll) (m : Nat) (tiles : List Nat) : State :=
  (s.setColl k (s.stepped c m tiles)).sendFlits ((c.member m).pair / 8) (rowLink (c.member m).lrow) (2 * tiles.length) 0

/-- The state after the step, with the landings on their way. -/
def State.afterStep (s : State) (k : Nat) (c : Coll) (m : Nat) (tiles : List Nat) : State :=
  (s.withFlits k c m tiles).sendLandings k (s.stepped c m tiles) m (c.member m).planes tiles

theorem Sender.exec_go (h : Sender s c m tiles) {k : Nat} (hc : s.coll? k = some c)
    (hgo : s.sendStep c m = .go (2 * tiles.length)) : exec (.planeSend k m) s = .next (s.afterStep k c m tiles) := by
  change execPlaneSend k m s = _
  unfold execPlaneSend
  simp only [hc, hgo, h.nextTiles, h.flits, Nat.zero_add, le_refl, if_true]
  rfl

theorem exec_planeSend_overrun {k row : Nat} (hc : s.coll? k = some c) (hgo : s.sendStep c m = .overrun row) {owner : Nat}
    (howner : 4 * (c.member m).core + (c.member m).ctx = owner) (hb : (s.ctx owner).run = .booked) :
    exec (.planeSend k m) s = .next ((s.setColl k (c.onMember m fun z => { z with bid := none })).owe owner
      { code := 0x10, addr := BitVec.ofNat 64 row, slot := 6 }) := by
  subst howner
  change execPlaneSend k m s = _
  unfold execPlaneSend
  simp only [hc, hgo]
  exact congrArg Host.Outcome.next (if_pos hb)

section
variable (s c m tiles)

/-- Reading planes keeps every field of the collective's members but scales and silent blocks. -/
theorem readPlane_member {α : Type} (p : Member → α) (hp : ∀ z sc si, p { z with scales := sc, silent := si } = p z) (j : Nat) :
    p ((s.readPlane c m tiles).member j) = p (c.member j) := by
  rw [readPlane_eq]
  exact foldl_keeps (fun c => p (c.member j)) _ (fun c t => readTile_member p hp c t j) _ _

theorem readPlane_length : (s.readPlane c m tiles).members.length = c.members.length := by
  rw [readPlane_eq]
  exact foldl_keeps (fun c => c.members.length) _ (fun c t => readTile_length c t) _ _

theorem readPlane_keeps {α : Type} (p : Coll → α) (hp : ∀ c ms se, p { c with members := ms, sent := se } = p c) :
    p (s.readPlane c m tiles) = p c := by
  rw [readPlane_eq]
  refine foldl_keeps p _ (fun c t => ?_) _ _
  unfold Coll.readTile Coll.keepScale
  split
  · exact hp c c.members _
  · exact hp c _ _

theorem stepped_sinks (j t : Nat) : (s.stepped c m tiles).sinks j t = c.sinks j t := by
  rw [State.stepped, Coll.sinks_onMember]
  have h (p : Coll → Nat) (hp : ∀ c ms se, p { c with members := ms, sent := se } = p c) := readPlane_keeps s c m tiles p hp
  rw [Coll.sinks, Coll.sinks, h Coll.op (fun _ _ _ => rfl), h Coll.root (fun _ _ _ => rfl), h Coll.nt (fun _ _ _ => rfl), Coll.nmem,
    Coll.nmem, readPlane_length]

theorem stepped_peer (j : Nat) : ((s.stepped c m tiles).member j).peer = (c.member j).peer := by
  refine (Coll.member_onMember_keeps _ m _ Member.peer ?_ j).trans (readPlane_member s c m tiles Member.peer (fun _ _ _ => rfl) j)
  exact fun _ => rfl

theorem stepped_member (hm : m < c.members.length) :
    ((s.stepped c m tiles).member m).planes = (c.member m).planes + 1 ∧
    ((s.stepped c m tiles).member m).next = s.nextStep c m (2 * tiles.length) ∧
    ((s.stepped c m tiles).member m).scales = ((s.readPlane c m tiles).member m).scales := by
  rw [State.stepped, Coll.member_onMember_self _ _ _ (by rwa [readPlane_length])]
  exact ⟨congrArg (· + 1) (readPlane_member s c m tiles Member.planes (fun _ _ _ => rfl) m), rfl, rfl⟩

theorem afterStep_coll? (k : Nat) : (s.afterStep k c m tiles).coll? k = some (s.stepped c m tiles) := by
  have h : (s.afterStep k c m tiles).colls = (s.setColl k (s.stepped c m tiles)).colls :=
    sendLandings_keeps _ _ _ _ _ _ State.colls fun _ _ _ _ => rfl
  rw [State.coll?, h]
  exact State.coll?_setColl_self s k _

theorem afterStep_mem (k : Nat) : (s.afterStep k c m tiles).mem = s.mem :=
  sendLandings_keeps _ _ _ _ _ _ State.mem fun _ _ _ _ => rfl

theorem afterStep_coats (k : Nat) : (s.afterStep k c m tiles).coats = s.coats :=
  sendLandings_keeps _ _ _ _ _ _ State.coats fun _ _ _ _ => rfl

theorem afterStep_flitsLeft (k : Nat) : (s.afterStep k c m tiles).flitsLeft ((c.member m).pair / 8) (rowLink (c.member m).lrow) =
    s.flitsLeft ((c.member m).pair / 8) (rowLink (c.member m).lrow) - 2 * tiles.length :=
  (sendLandings_keeps _ _ _ _ _ _ (fun t => t.flitsLeft ((c.member m).pair / 8) (rowLink (c.member m).lrow)) fun _ _ _ _ => rfl).trans
    (flitsLeft_sendFlits _ _ _ _ _)

end

end

/-! ### PlanesAreSent -/

section
variable {s : State} {c : Coll} {m : Nat} {tiles : List Nat}

/-- A late trap that falls now comes after those that have fallen. -/
theorem owe_ctx_after (c : Nat) (t : LateTrap) (hrun : (s.ctx c).run = .booked) (hlate : ∀ v ∈ (s.ctx c).late, v.fell < s.cycle) :
    (s.owe c t).ctx c = { s.ctx c with late := (s.ctx c).late ++ [{ t with fell := s.cycle }] } := by
  have hbefore : ∀ v ∈ (s.ctx c).late, v.before { t with fell := s.cycle } = true := fun v hv => by
    simp [LateTrap.before, hlate v hv]
  rw [State.owe, State.ctx_onCtx_self, if_neg (by simp [hrun])]
  dsimp only
  rw [List.filter_eq_self.2 hbefore, List.filter_eq_nil_iff.2 fun v hv => by simp [hbefore v hv]]

/-- The first plane of a tile: its scale and poisoned blocks are read, and its bits of the blocks that are not silent. -/
theorem Sender.first_plane (hm : m < c.members.length) {n : Nat} (hn : n ∈ tiles) (hq : (c.member m).planes ≤ 7)
    (hp : c.plane? m n (c.member m).planes = none) (hsc : (c.member m).scales.find? (fun e => e.1 == n) = none)
    (hsi : (c.member m).silent.find? (fun e => e.1 == n) = none) :
    let e := (tileScale c.uns (s.sendBlocks (c.member m) n)).1
    let bad := (tileScale c.uns (s.sendBlocks (c.member m) n)).2
    ∃ p, (s.stepped c m tiles).plane? m n (c.member m).planes = some p ∧
      (n, e, bad) ∈ ((s.stepped c m tiles).member m).scales ∧ p.length = 128 ∧
      ∀ el, el < 1024 → (p.getD (el / 8) 0).getLsbD (el % 8) =
        (!bad.contains (el / 64) && !coatZero (s.blockAt (scratchPlace (c.member m).pair ((c.member m).sbuf % 2 ^ 21 + 1024 * n +
          64 * (el / 64)))).coat && (s.blockAt (scratchPlace (c.member m).pair ((c.member m).sbuf % 2 ^ 21 + 1024 * n +
          64 * (el / 64)))).data.testBit (8 * (el % 64) + 7 - (c.member m).planes)) := by
  intro e bad
  have hscale : c.scaleOf s (c.member m) m n = (n, e, bad) := by rw [Coll.scaleOf, hsc]; rfl
  have hsilent : c.silentOf s (c.member m) m n = silentBlocks (s.sendBlocks (c.member m) n) bad := by
    rw [Coll.silentOf, hsi, hscale]
    rfl
  obtain ⟨hplane, hscales⟩ := foldl_readTile (s := s) (x := c.member m) tiles c hm hn hp
  refine ⟨_, hplane, ?_, by simp [Coll.planeBytes], fun el hel => ?_⟩
  · rw [(stepped_member s c m tiles hm).2.2, readPlane_eq, ← hscale]
    exact hscales hsc
  · have hr : el / 64 < (s.sendBlocks (c.member m) n).length := by rw [length_sendBlocks]; omega
    have hblock : (s.sendBlocks (c.member m) n)[el / 64] = s.blockAt (scratchPlace (c.member m).pair
        ((c.member m).sbuf % 2 ^ 21 + 1024 * n + 64 * (el / 64))) := by simp [State.sendBlocks]
    rw [Coll.planeBytes, plane_bit _ _ _ hel, tileElems_getD _ _ _ (by rw [length_sendBlocks]; omega), hsilent,
      silentBlocks_contains _ hr, List.getD_eq_getElem _ _ hr, hblock]
    rw [show 8 * (el % 64) + 7 - (c.member m).planes = 8 * (el % 64) + (7 - (c.member m).planes) by omega]
    generalize s.blockAt _ = b
    cases bad.contains (el / 64) <;> cases coatZero b.coat <;> simp [testBit_bitsOf, Nat.lt_succ_of_le (Nat.sub_le 7 _)]

/-- A later plane of a tile: its bits of the blocks that were not silent in the first one. -/
theorem Sender.later_plane (hm : m < c.members.length) {n : Nat} (hn : n ∈ tiles) (hq : (c.member m).planes ≤ 7)
    (hp : c.plane? m n (c.member m).planes = none) {l : List Nat}
    (hsi : (c.member m).silent.find? (fun e => e.1 == n) = some (n, l)) :
    ∃ p, (s.stepped c m tiles).plane? m n (c.member m).planes = some p ∧ p.length = 128 ∧
      ∀ el, el < 1024 → (p.getD (el / 8) 0).getLsbD (el % 8) =
        (!l.contains (el / 64) && (s.blockAt (scratchPlace (c.member m).pair ((c.member m).sbuf % 2 ^ 21 + 1024 * n +
          64 * (el / 64)))).data.testBit (8 * (el % 64) + 7 - (c.member m).planes)) := by
  have hsilent : c.silentOf s (c.member m) m n = l := by rw [Coll.silentOf, hsi]; rfl
  refine ⟨_, (foldl_readTile (s := s) (x := c.member m) tiles c hm hn hp).1, by simp [Coll.planeBytes], fun el hel => ?_⟩
  rw [Coll.planeBytes, plane_bit _ _ _ hel, tileElems_getD _ _ _ (by rw [length_sendBlocks]; omega), hsilent,
    sendBlocks_getD _ _ _ (by omega)]
  rw [show 8 * (el % 64) + 7 - (c.member m).planes = 8 * (el % 64) + (7 - (c.member m).planes) by omega]
  cases l.contains (el / 64) <;> simp [testBit_bitsOf, Nat.lt_succ_of_le (Nat.sub_le 7 _)]

end

theorem planesAreSent : PlanesAreSent := by
  intro s k m c hc hm hq8 x i tiles row f owner block bit poison zero live cycles owned carried
    hjoined habsent hpeerlost hpeer hi hstop hflits hnext htiles hfits
  have hs : Sender s c m tiles := ⟨hjoined, habsent, hpeerlost, hpeer, hi, hstop, hflits, hnext, rfl, htiles, hfits⟩
  have hcycles : stepCycles (2 * tiles.length) = cycles := by
    rw [stepCycles, ceilDiv, tickFlits]
    show _ = max 1 _
    congr 2
    omega
  have hi7 : (c.member m).planes ≤ 7 := by
    have : (c.member m).planes < c.q := hi
    omega
  have hlive (n r : Nat) : live n r ↔ liveBlock c.uns (block n r) = true := (liveBlock_iff _ _).symm
  have hblocks {n r : Nat} (h : r < (s.sendBlocks x n).length) : (s.sendBlocks x n)[r] = block n r := by
    simp only [State.sendBlocks, List.getElem_map, List.getElem_range]
    rfl
  refine ⟨fun hleft hway => ?_, fun b y t' hb hy => ?_⟩
  · have hgo : s.sendStep c m = .go (2 * tiles.length) := by
      rcases hway with ⟨hb, hfree⟩ | ⟨b, y, hb, hy, hle, hlt, hown⟩
      · exact hs.sendStep_free hb hleft (hcycles ▸ hfree)
      · exact hs.sendStep_owned hb hleft (planeTick_eq hy _) hle hlt hown
    obtain ⟨hplanes, hnextY, hscalesY⟩ := stepped_member s c m tiles hm
    refine ⟨_, s.stepped c m tiles, hs.exec_go hc hgo, afterStep_mem s c m tiles k, afterStep_coats s c m tiles k,
      afterStep_coll? s c m tiles k, hplanes, ?next, afterStep_flitsLeft s c m tiles k, ?first, ?later, ?landings⟩
    case next =>
      rw [hnextY, State.nextStep, hcycles]
      show (if (s.memberBid x).isSome then _ else _) = _
      cases s.memberBid x <;> rfl
    case first =>
      intro n hn hp hsc hsi
      obtain ⟨p, hp, hscale, hlen, hbits⟩ := Sender.first_plane (s := s) hm hn hi7 hp
        (by simpa using hsc) (by simpa using hsi)
      refine ⟨p, _, _, hp, hscale, fun r hr hl hfirst => ?_, fun hnone => ?_, fun r => ?_, hlen, hbits⟩
      · have hr' : r < (s.sendBlocks x n).length := by rwa [length_sendBlocks]
        rw [← hblocks hr']
        refine tileScale_of_first c.uns (s.sendBlocks x n) hr' (hblocks hr' ▸ (hlive n r).1 hl) fun j hj => ?_
        rw [hblocks]
        exact Bool.eq_false_iff.2 fun h => hfirst j hj ((hlive n j).2 h)
      · refine tileScale_of_none c.uns (s.sendBlocks x n) fun b hb => ?_
        obtain ⟨r, hr, rfl⟩ := List.mem_iff_getElem.1 hb
        rw [hblocks]
        exact Bool.eq_false_iff.2 fun h => hnone r (by rwa [length_sendBlocks] at hr) ((hlive n r).2 h)
      · have hpoison (hr : r < (s.sendBlocks x n).length) := congrArg (fun b : BlockVal => coatPoison b.coat = true ∨
          coatZero b.coat = false ∧ ¬ (liveBlock c.uns b = true ∧
            BitVec.ofInt 8 (coatE b.coat) = (tileScale c.uns (s.sendBlocks x n)).1)) (hblocks hr)
        rw [hlive]
        refine (mem_tileScale c.uns (s.sendBlocks x n)).trans ⟨fun ⟨hr, hp⟩ => ⟨?_, (hpoison hr).mp hp⟩, fun ⟨hr, hp⟩ => ?_⟩
        · rwa [length_sendBlocks] at hr
        · have hr' : r < (s.sendBlocks x n).length := by rwa [length_sendBlocks]
          exact ⟨hr', (hpoison hr').mpr hp⟩
    case later =>
      intro n hn l e bad hp hsc hsi
      obtain ⟨p, hp, hlen, hbits⟩ := Sender.later_plane (s := s) hm hn hi7 hp hsi
      exact ⟨p, hp, hlen, hbits⟩
    case landings =>
      intro n hn r u hru hpr hg
      exact mem_sendLandings (s.withFlits k c m tiles) k _ m i tiles hn (by rwa [stepped_sinks]) (by rwa [stepped_peer]) hg
  · intro t0 hle hle' hlt hown hrun hlate
    have hover := hs.sendStep_overrun hb (planeTick_eq hy _) hle hle' hlt hown
    refine ⟨_, c.onMember m fun z => { z with bid := none }, exec_planeSend_overrun hc hover rfl hrun, ?_, rfl, ?_, ?_⟩
    · exact State.coll?_setColl_self s k _
    · exact Coll.member_onMember_keeps c m (fun z => { z with bid := none }) Member.planes (fun _ => rfl) m
    · exact owe_ctx_after _ _ hrun hlate

end Sys2Proof.Machine
end

section
/-! O54, third part: planes land in receive tiles (R172, R378, R385 to R388, R392, R400). -/

namespace Sys2Proof.Machine
open Sys2Proof.Claims

/-! ### Blocks written one after the other -/

section
variable {place : Nat → Nat} {val : Nat → BlockVal → BlockVal}

/-- Each block of a list is replaced by a value that depends on what it held. -/
def State.mapBlocks (place : Nat → Nat) (val : Nat → BlockVal → BlockVal) (s : State) (l : List Nat) : State :=
  l.foldl (fun s b => s.putBlock (place b) (val b (s.blockAt (place b)))) s

theorem mapBlocks_memGet (s : State) (l : List Nat) (a : Nat) (h : ∀ b ∈ l, a < place b ∨ place b + 64 ≤ a) :
    memGet (s.mapBlocks place val l).mem a = memGet s.mem a := by
  induction l generalizing s with
  | nil => rfl
  | cons b l ih =>
    exact (ih _ fun b hb => h b (List.mem_cons_of_mem _ hb)).trans (putBlock_memGet_other _ _ _ (h b List.mem_cons_self))

variable (hplace : ∀ a b, a ≠ b → place a + 64 ≤ place b ∨ place b + 64 ≤ place a)
include hplace

theorem mapBlocks_blockAt_other (s : State) (l : List Nat) {b : Nat} (h : b ∉ l) :
    (s.mapBlocks place val l).blockAt (place b) = s.blockAt (place b) := by
  induction l generalizing s with
  | nil => rfl
  | cons a l ih =>
    have ha : b ≠ a := fun hb => h (hb ▸ List.mem_cons_self)
    exact (ih _ fun hb => h (List.mem_cons_of_mem _ hb)).trans (blockAt_putBlock_other _ _ _ (hplace b a ha))

theorem mapBlocks_blockAt (s : State) {l : List Nat} (hl : l.Nodup) {b : Nat} (h : b ∈ l) :
    (s.mapBlocks place val l).blockAt (place b) =
      { val b (s.blockAt (place b)) with data := (val b (s.blockAt (place b))).data % 256 ^ 64 } := by
  induction l generalizing s with
  | nil => cases h
  | cons a l ih =>
    obtain ⟨ha, hl⟩ := List.nodup_cons.1 hl
    rcases List.mem_cons.1 h with rfl | hb
    · exact (mapBlocks_blockAt_other hplace _ l ha).trans (blockAt_putBlock_self _ _ _)
    · have hne : b ≠ a := fun h => ha (h ▸ hb)
      rw [show s.mapBlocks place val (a :: l) = (s.putBlock (place a) (val a (s.blockAt (place a)))).mapBlocks place val l from rfl,
        ih _ hl hb, blockAt_putBlock_other _ _ _ (hplace b a hne)]

end

/-! ### The value of a block that a plane has been added to (R378, R386, R387) -/

theorem length_filter_filterMap {α β : Type} (f : α → Option β) (p : β → Bool) {d : β} (hd : p d = false) (l : List α) :
    ((l.filterMap f).filter p).length = (l.filter fun a => p ((f a).getD d)).length := by
  induction l with
  | nil => rfl
  | cons a l ih =>
    rw [List.filterMap_cons, List.filter_cons]
    cases hf : f a with
    | none => simpa [hd] using ih
    | some b => by_cases hb : p b = true <;> simpa [List.filter_cons, hb] using ih

theorem countBits_filterMap (f : Nat × Nat → Option (List Byte)) (l : List (Nat × Nat)) (e : Nat) :
    countBits (l.filterMap f) e = (l.filter fun q => (((f q).getD []).getD (e / 8) 0).getLsbD (e % 8)).length :=
  length_filter_filterMap f (fun p => (p.getD (e / 8) 0).getLsbD (e % 8)) (d := []) (by simp) l

theorem landBlock_data_lt (ps : List (List Byte)) (w : Int) (b old coat : Nat) : (landBlock ps w b old coat).data < 256 ^ 64 := by
  have h := packCodes_lt 32 ((List.range 16).map fun i => ((bitsOf old (32 * i) 32 + w * countBits ps (16 * b + i)) % 2 ^ 32).toNat)
  rw [List.length_map, List.length_range] at h
  exact h.trans_le (le_of_eq (by rw [show (256 : Nat) = 2 ^ 8 from rfl, ← Nat.pow_mul]))

/-- Element `i` of the block has taken the weight once for each 1. -/
theorem landBlock_elem (ps : List (List Byte)) (w : Int) (b old coat i : Nat) (h : i < 16) :
    ((((landBlock ps w b old coat).data / 2 ^ (32 * i) % 2 ^ 32 : Nat)) : Int) =
      ((old / 2 ^ (32 * i) % 2 ^ 32 : Nat) + w * countBits ps (16 * b + i)) % 2 ^ 32 := by
  have hlt : (((old / 2 ^ (32 * i) % 2 ^ 32 : Nat) : Int) + w * countBits ps (16 * b + i)) % 2 ^ 32 < 2 ^ 32 :=
    Int.emod_lt_of_pos _ (by norm_num)
  have hnn : 0 ≤ (((old / 2 ^ (32 * i) % 2 ^ 32 : Nat) : Int) + w * countBits ps (16 * b + i)) % 2 ^ 32 :=
    Int.emod_nonneg _ (by norm_num)
  rw [show (landBlock ps w b old coat).data = packCodes 32 _ from rfl, packCodes_field, getD_map_range _ _ h]
  change (((((old / 2 ^ (32 * i) % 2 ^ 32 : Nat) : Int) + w * countBits ps (16 * b + i)) % 2 ^ 32).toNat % 2 ^ 32 : Nat) = (_ : Int)
  omega

/-! ### The tile's scale (R387) -/

section
variable {c : Coll} {m n : Nat} {E : Nat × Nat → Byte} {bad : Nat × Nat → List Nat}
  (hE : ∀ q ∈ c.sources m n, (c.member q.1).scales.find? (fun sc => sc.1 == q.2) = some (q.2, E q, bad q))

/-- The scales of a receive tile's contributors. -/
def Coll.scalesOf (c : Coll) (m n : Nat) : List (Nat × Byte × List Nat) :=
  (c.sources m n).filterMap fun q => (c.member q.1).scales.find? fun e => e.1 == q.2

theorem tileInfo_eq : c.tileInfo m n = ((((c.scalesOf m n).head?).map fun x => x.2.1).getD 0,
    (c.scalesOf m n).any (fun x => x.2.1 != (((c.scalesOf m n).head?).map fun x => x.2.1).getD 0),
    ((c.scalesOf m n).flatMap fun x => x.2.2).eraseDups) := rfl

include hE

theorem scalesOf_eq : c.scalesOf m n = (c.sources m n).map fun q => (q.2, E q, bad q) := by
  unfold Coll.scalesOf
  generalize c.sources m n = l at hE
  induction l with
  | nil => rfl
  | cons q l ih =>
    rw [List.filterMap_cons, hE q List.mem_cons_self, List.map_cons]
    exact congrArg _ (ih fun q hq => hE q (List.mem_cons_of_mem _ hq))

theorem tileInfo_bad (r : Nat) : (c.tileInfo m n).2.2.contains r = true ↔ ∃ q ∈ c.sources m n, r ∈ bad q := by
  simp only [tileInfo_eq, scalesOf_eq hE, List.contains_iff_mem, List.mem_eraseDups, List.mem_flatMap, List.mem_map]
  constructor
  · rintro ⟨_, ⟨q, hq, rfl⟩, hr⟩
    exact ⟨q, hq, hr⟩
  · rintro ⟨q, hq, hr⟩
    exact ⟨_, ⟨q, hq, rfl⟩, hr⟩

/-- Where all contributors have one scale it is the tile's. -/
theorem tileInfo_of_same {e : Byte} (he : ∀ q ∈ c.sources m n, E q = e) :
    (c.tileInfo m n).2.1 = false ∧ ∀ q ∈ c.sources m n, (c.tileInfo m n).1 = E q := by
  rw [tileInfo_eq, scalesOf_eq hE]
  cases hl : c.sources m n with
  | nil => simp
  | cons q l =>
    rw [hl] at he
    have hall : ∀ q' ∈ q :: l, E q' = E q := fun q' hq' => (he q' hq').trans (he q List.mem_cons_self).symm
    constructor
    · rw [List.any_eq_false]
      intro x hx
      obtain ⟨q', hq', rfl⟩ := List.mem_map.1 hx
      simp [hall q' hq']
    · exact fun q' hq' => (hall q' hq').symm

/-- Where they disagree the tile is mixed. -/
theorem tileInfo_of_mixed (he : ¬ ∃ e, ∀ q ∈ c.sources m n, E q = e) : (c.tileInfo m n).2.1 = true := by
  rw [tileInfo_eq, scalesOf_eq hE]
  by_contra hany
  refine he ⟨((((c.sources m n).map fun q => (q.2, E q, bad q)).head?).map fun x => x.2.1).getD 0, fun q hq => ?_⟩
  have := List.any_eq_false.1 (Bool.eq_false_iff.2 hany) _ (List.mem_map_of_mem hq)
  simpa using this

end

/-! ### The cells of a tick and their banks (R170, R172, R378) -/

section
variable (x : Member) (t w n : Nat)

/-- Cells of a tile's first bank. -/
def cellSplit : Nat := min 4096 (65536 - (x.rbuf % 2 ^ 21 + 4096 * t) % 65536) / 128

/-- The cells, of `n` from `w` on, that lie in the tile's first bank. -/
def cellsNear : Nat := min (w + n) (cellSplit x t) - min w (cellSplit x t)

theorem cellBanks_eq : cellBanks x t w n =
    (if cellsNear x t w n = 0 then [] else [((x.rbuf % 2 ^ 21 + 4096 * t) / 65536, 0, cellsNear x t w n)]) ++
    if n = cellsNear x t w n then [] else
      [((x.rbuf % 2 ^ 21 + 4096 * t + 4095) / 65536, cellsNear x t w n, n - cellsNear x t w n)] := rfl

theorem cellsNear_le : cellsNear x t w n ≤ n := by
  rw [cellsNear]
  omega

theorem cellBanks_all (p : Nat × Nat × Nat → Bool) : (cellBanks x t w n).all p = true ↔
    (cellsNear x t w n ≠ 0 → p ((x.rbuf % 2 ^ 21 + 4096 * t) / 65536, 0, cellsNear x t w n) = true) ∧
    (cellsNear x t w n ≠ n → p ((x.rbuf % 2 ^ 21 + 4096 * t + 4095) / 65536, cellsNear x t w n, n - cellsNear x t w n) = true) := by
  rw [cellBanks_eq, List.all_append, Bool.and_eq_true]
  refine and_congr ?_ ?_
  · by_cases h0 : cellsNear x t w n = 0 <;> simp [h0]
  · by_cases h0 : n = cellsNear x t w n
    · simp [← h0]
    · simp [h0, Ne.symm h0]

theorem mem_cellBanks : (cellsNear x t w n ≠ 0 → ((x.rbuf % 2 ^ 21 + 4096 * t) / 65536, 0, cellsNear x t w n) ∈ cellBanks x t w n) ∧
    (cellsNear x t w n ≠ n →
      ((x.rbuf % 2 ^ 21 + 4096 * t + 4095) / 65536, cellsNear x t w n, n - cellsNear x t w n) ∈ cellBanks x t w n) := by
  rw [cellBanks_eq]
  exact ⟨fun h => by simp [h], fun h => by simp [Ne.symm h]⟩

theorem cellBanks_pos {b : Nat × Nat × Nat} (hb : b ∈ cellBanks x t w n) : 0 < b.2.2 := by
  have hle := cellsNear_le x t w n
  rw [cellBanks_eq] at hb
  generalize cellsNear x t w n = a at *
  rcases List.mem_append.1 hb with h | h
  · split at h
    · cases h
    · obtain rfl := List.mem_singleton.1 h
      dsimp only
      omega
  · split at h
    · cases h
    · obtain rfl := List.mem_singleton.1 h
      dsimp only
      omega

end

/-- Banks that are held from now on are held until their ends. -/
theorem mem_holdBanks (now : Nat) (l : List (Nat × Nat × Nat)) (p : Pair) (hl : ∀ b ∈ l, 0 < b.2.2) :
    let q := l.foldl (fun p b => p.holdBank now b.1 (now + b.2.1) b.2.2) p
    (∀ u ∈ p.bankBusy, now < u.2.2 → u ∈ q.bankBusy) ∧ ∀ b ∈ l, (b.1, now + b.2.1, now + b.2.1 + b.2.2) ∈ q.bankBusy := by
  induction l generalizing p with
  | nil => exact ⟨fun u hu _ => hu, fun b hb => by cases hb⟩
  | cons b l ih =>
    obtain ⟨hold, hnew⟩ := ih (p.holdBank now b.1 (now + b.2.1) b.2.2) fun b hb => hl b (List.mem_cons_of_mem _ hb)
    have hpos := hl b List.mem_cons_self
    refine ⟨fun u hu hn => hold u ?_ hn, fun b' hb' => ?_⟩
    · exact List.mem_append_left _ (List.mem_filter.2 ⟨hu, by simpa using hn⟩)
    · rcases List.mem_cons.1 hb' with rfl | hb'
      · refine hold _ (List.mem_append_right _ (List.mem_singleton_self _)) ?_
        show now < now + b'.2.1 + b'.2.2
        omega
      · exact hnew b' hb'

section
variable (s : State) (x : Member) (r : RTile)

/-- The member's writes may use a bank row in this tick: it is FREE, or booked to the member's own task. -/
def RowTakes (row : Nat) : Prop := (s.face (x.pair / 8)).owner row s.tick = .free ∨
  ∃ b, s.memberBid x = some b ∧ (s.face (x.pair / 8)).owner row s.tick = .bid b

theorem rowTakes_iff (row : Nat) : (match (s.face (x.pair / 8)).owner row s.tick with
    | .free => true
    | .ctl => false
    | .bid b => s.memberBid x == some b) = true ↔ RowTakes s x row := by
  unfold RowTakes
  cases (s.face (x.pair / 8)).owner row s.tick with
  | free => simp
  | ctl => simp
  | bid b => simp

/-- The banks of this tick's cells take them. -/
def CellsTaken : Prop :=
  (cellsNear x r.t r.wrote (s.cellsNow r) ≠ 0 → RowTakes s x (rowBank x.pair ((x.rbuf % 2 ^ 21 + 4096 * r.t) / 65536))) ∧
  (cellsNear x r.t r.wrote (s.cellsNow r) ≠ s.cellsNow r →
    RowTakes s x (rowBank x.pair ((x.rbuf % 2 ^ 21 + 4096 * r.t + 4095) / 65536)))

theorem banksTake_iff : s.banksTake x r = true ↔ CellsTaken s x r := by
  rw [State.banksTake, State.landingBanks, cellBanks_all]
  exact and_congr (imp_congr_right fun _ => rowTakes_iff s x _) (imp_congr_right fun _ => rowTakes_iff s x _)

/-- No other unit has the banks of this tick's cells. -/
def CellsOpen : Prop :=
  (cellsNear x r.t r.wrote (s.cellsNow r) ≠ 0 → (s.pair x.pair).bankOpen ((x.rbuf % 2 ^ 21 + 4096 * r.t) / 65536) s.cycle
    (cellsNear x r.t r.wrote (s.cellsNow r)) = true) ∧
  (cellsNear x r.t r.wrote (s.cellsNow r) ≠ s.cellsNow r → (s.pair x.pair).bankOpen ((x.rbuf % 2 ^ 21 + 4096 * r.t + 4095) / 65536)
    (s.cycle + cellsNear x r.t r.wrote (s.cellsNow r)) (s.cellsNow r - cellsNear x r.t r.wrote (s.cellsNow r)) = true)

theorem landingMay_iff : s.landingMay x r = true ↔ CellsTaken s x r ∧ CellsOpen s x r := by
  rw [State.landingMay, Bool.and_eq_true, banksTake_iff, State.landingBanks, cellBanks_all]
  rfl

end

/-! ### What the event of a plane does (R378, R385, R388, R392) -/

/-- Plane `i` has come to receive tile `n` of member `m`, which still takes planes. -/
structure PlaneAt (s : State) (k m n i : Nat) (c : Coll) (r : RTile) : Prop where
  coll : s.coll? k = some c
  tile : c.tile? m n = some r
  lt : i < c.q
  le : c.q ≤ 8
  peer : (c.member m).peer = 0
  gathered : c.gathered m n i = true
  alive : c.lost = false ∨ r.wrote ≠ 0
  cancelled : r.cancelled = false
  failed : r.failed = false
  planes : r.planes ≤ i

/-- The plane's event, again at a later cycle. -/
def State.landLater (s : State) (k m n i due : Nat) : State := s.schedule due srcFabric (.planeLanding k m n (7 - i))

section
variable {s : State} {k m n i : Nat} {c : Coll} {r : RTile}

theorem PlaneAt.takes (h : PlaneAt s k m n i c r) : ¬ (7 < 7 - i ∨ (c.member m).peer ≠ 0 ∨ c.q ≤ i ∨
    (!c.gathered m n i) = true ∨ (c.lost = true ∧ r.wrote = 0) ∨ r.cancelled = true ∨ r.failed = true ∨ i < r.planes) := by
  have hlt := h.lt
  have hplanes := h.planes
  have halive : ¬ (c.lost = true ∧ r.wrote = 0) := by
    rcases h.alive with h | h <;> simp [h]
  rw [h.peer, h.gathered, h.cancelled, h.failed]
  simp only [Bool.not_true, halive, false_or, ne_eq, not_true, Bool.false_eq_true]
  omega

theorem PlaneAt.index (h : PlaneAt s k m n i c r) : 7 - (7 - i) = i := by
  have hlt := h.lt
  have hle := h.le
  omega

/-- A plane that comes before its turn is kept for later. -/
theorem PlaneAt.waits (h : PlaneAt s k m n i c r) (hi : r.planes < i) : exec (.planeLanding k m n (7 - i)) s =
    .next (s.setColl k (c.onTile m n fun r => { r with came := r.came ++ [i] })) := by
  change execPlaneLanding k m n (7 - i) s = _
  unfold execPlaneLanding
  simp only [h.coll, h.tile, if_neg h.takes, h.index]
  cases r.busy with
  | none => exact if_pos (by omega)
  | some z => exact if_pos (by omega)

/-- The state in which the next plane of a tile has begun to land. -/
def State.landBegin (s : State) (k m n i : Nat) (c : Coll) : State :=
  ((s.setColl k (c.onTile m n fun r => { r with busy := some (s.cycle + 1 + Config.planeTime s.fresh) })).bump).landLater k m n i
    (s.cycle + 1 + Config.planeTime s.fresh)

theorem PlaneAt.begins (h : PlaneAt s k m n i c r) (hi : r.planes = i) (hb : r.busy = none) :
    exec (.planeLanding k m n (7 - i)) s = .next (s.landBegin k m n i c) := by
  change execPlaneLanding k m n (7 - i) s = _
  unfold execPlaneLanding
  simp only [h.coll, h.tile, if_neg h.takes, h.index, hb]
  exact if_neg (by omega)

section
variable {z : Nat} (hi : r.planes = i) (hb : r.busy = some z) (hz : z ≤ s.cycle)
include hi hb hz

theorem PlaneAt.ends (h : PlaneAt s k m n i c r) (hw : 32 ≤ r.wrote) :
    exec (.planeLanding k m n (7 - i)) s = .next (s.endLanding k c r) := by
  change execPlaneLanding k m n (7 - i) s = _
  unfold execPlaneLanding
  simp only [h.coll, h.tile, if_neg h.takes, h.index, hb]
  rw [if_neg (by omega), if_neg (by omega), if_pos hw]

theorem PlaneAt.banksNot (h : PlaneAt s k m n i c r) (hw : r.wrote < 32) (ht : ¬ CellsTaken s (c.member m) r) :
    exec (.planeLanding k m n (7 - i)) s = .next (s.landLater k m n i (32 * (s.tick + 1))) := by
  have hbanks : s.banksTake (c.member m) r = false := Bool.eq_false_iff.2 fun h => ht ((banksTake_iff s _ r).1 h)
  change execPlaneLanding k m n (7 - i) s = _
  unfold execPlaneLanding
  simp only [h.coll, h.tile, if_neg h.takes, h.index, hb, hbanks]
  rw [if_neg (by omega), if_neg (by omega), if_neg (by omega)]
  rfl

theorem PlaneAt.banksShut (h : PlaneAt s k m n i c r) (hw : r.wrote < 32) (ht : CellsTaken s (c.member m) r)
    (ho : ¬ CellsOpen s (c.member m) r) :
    exec (.planeLanding k m n (7 - i)) s = .next (s.landLater k m n i (s.cycle + 1)) := by
  have hbanks : s.banksTake (c.member m) r = true := (banksTake_iff s _ r).2 ht
  have hmay : s.landingMay (c.member m) r = false := Bool.eq_false_iff.2 fun h => ho ((landingMay_iff s _ r).1 h).2
  change execPlaneLanding k m n (7 - i) s = _
  unfold execPlaneLanding
  simp only [h.coll, h.tile, if_neg h.takes, h.index, hb, hbanks, hmay]
  rw [if_neg (by omega), if_neg (by omega), if_neg (by omega)]
  rfl

theorem PlaneAt.writes (h : PlaneAt s k m n i c r) (hw : r.wrote < 32) (ht : CellsTaken s (c.member m) r)
    (ho : CellsOpen s (c.member m) r) :
    exec (.planeLanding k m n (7 - i)) s = .next ((s.landCells k c r).landLater k m n i (s.cycle + s.cellsNow r)) := by
  have hbanks : s.banksTake (c.member m) r = true := (banksTake_iff s _ r).2 ht
  have hmay : s.landingMay (c.member m) r = true := (landingMay_iff s _ r).2 ⟨ht, ho⟩
  change execPlaneLanding k m n (7 - i) s = _
  unfold execPlaneLanding
  simp only [h.coll, h.tile, if_neg h.takes, h.index, hb, hbanks, hmay]
  rw [if_neg (by omega), if_neg (by omega), if_neg (by omega)]
  rfl

end

/-! ### The cells that a landing writes -/

/-- The place of block `b` of receive tile `n` of member `x`. -/
def tilePlace (x : Member) (n b : Nat) : Nat := scratchPlace x.pair (x.rbuf % 2 ^ 21 + 4096 * n + 64 * b)

theorem tilePlace_apart (x : Member) (n : Nat) (a b : Nat) (h : a ≠ b) :
    tilePlace x n a + 64 ≤ tilePlace x n b ∨ tilePlace x n b + 64 ≤ tilePlace x n a := by
  simp only [tilePlace, scratchPlace]
  omega

/-- A block of the tile with the plane's contributions added. -/
def landedBlock (c : Coll) (r : RTile) (b : Nat) (old : BlockVal) : BlockVal :=
  landBlock ((c.sources r.m r.t).filterMap fun q => c.plane? q.1 q.2 r.planes) (planeWeight c.uns r.planes) b old.data
    (if (c.tileInfo r.m r.t).2.1 || (c.tileInfo r.m r.t).2.2.contains (b / 4) then 0x00FF
      else (c.tileInfo r.m r.t).1.toNat * 256 + 0x06)

/-- The blocks of this tick's cells. -/
def State.blocksNow (s : State) (r : RTile) : List Nat := (List.range (2 * s.cellsNow r)).map (2 * r.wrote + ·)

theorem writeCells_eq (c : Coll) (r : RTile) :
    s.writeCells c r = s.mapBlocks (tilePlace (c.member r.m) r.t) (landedBlock c r) (s.blocksNow r) := rfl

theorem mem_blocksNow {b : Nat} : b ∈ s.blocksNow r ↔ 2 * r.wrote ≤ b ∧ b < 2 * (r.wrote + s.cellsNow r) := by
  simp only [State.blocksNow, List.mem_map, List.mem_range]
  constructor
  · rintro ⟨a, ha, rfl⟩
    omega
  · exact fun h => ⟨b - 2 * r.wrote, by omega, by omega⟩

theorem nodup_blocksNow : (s.blocksNow r).Nodup := List.nodup_range.map fun a b h => by simpa using h

theorem landedBlock_data_mod (b : Nat) (old : BlockVal) : (landedBlock c r b old).data % 256 ^ 64 = (landedBlock c r b old).data :=
  Nat.mod_eq_of_lt (landBlock_data_lt ..)

/-- Outside of the banks' pair and the tile, a landing's writes are those of its cells. -/
theorem landCells_mem (k : Nat) : (s.landCells k c r).mem = (s.writeCells c r).mem ∧ (s.landCells k c r).coats = (s.writeCells c r).coats :=
  ⟨rfl, rfl⟩

theorem landCells_blockAt (k : Nat) {b : Nat} (hb : b ∈ s.blocksNow r) :
    (s.landCells k c r).blockAt (tilePlace (c.member r.m) r.t b) =
      landedBlock c r b (s.blockAt (tilePlace (c.member r.m) r.t b)) := by
  have h := mapBlocks_blockAt (val := landedBlock c r) (tilePlace_apart (c.member r.m) r.t) s nodup_blocksNow hb
  rw [landedBlock_data_mod, ← writeCells_eq] at h
  rw [State.blockAt, (landCells_mem k).1, (landCells_mem k).2]
  exact h

theorem landCells_memGet (k a : Nat)
    (h : ∀ b ∈ s.blocksNow r, a < tilePlace (c.member r.m) r.t b ∨ tilePlace (c.member r.m) r.t b + 64 ≤ a) :
    memGet (s.landCells k c r).mem a = memGet s.mem a := by
  rw [(landCells_mem k).1, writeCells_eq]
  exact mapBlocks_memGet s _ a h

theorem landCells_pair (k : Nat) : (s.landCells k c r).pair (c.member r.m).pair =
    (s.landingBanks (c.member r.m) r).foldl (fun p b => p.holdBank s.cycle b.1 (s.cycle + b.2.1) b.2.2)
      ((s.writeCells c r).pair (c.member r.m).pair) := by
  rw [State.landCells, State.pair, State.setColl_pairs]
  exact Tbl.look_put_self ..

theorem landCells_bankBusy (k : Nat) {b : Nat × Nat × Nat} (hb : b ∈ s.landingBanks (c.member r.m) r) :
    (b.1, s.cycle + b.2.1, s.cycle + b.2.1 + b.2.2) ∈ ((s.landCells k c r).pair (c.member r.m).pair).bankBusy := by
  rw [landCells_pair]
  exact (mem_holdBanks s.cycle _ _ fun b hb => cellBanks_pos _ _ _ _ hb).2 b hb

theorem landCells_coll? (k : Nat) : (s.landCells k c r).coll? k =
    some (c.onTile r.m r.t fun z => { z with busy := some (s.cycle + s.cellsNow r), wrote := z.wrote + s.cellsNow r }) :=
  State.coll?_setColl_self _ k _

end

/-! ### The end of a landing (R388, R392, R400) -/

section
variable {s : State} {c : Coll} {r : RTile}

/-- The tile after the landing of its next plane. -/
def landedTile (c : Coll) (r : RTile) : RTile :=
  { r with planes := r.planes + 1, busy := none, wrote := 0, asked := false, cancelled := r.asked,
           failed := c.lost && decide (r.planes + 1 < c.q), mixed := (c.tileInfo r.m r.t).2.1, poisoned := (c.tileInfo r.m r.t).2.2 }

/-- Its counter. -/
def landedCounter (c : Coll) (r : RTile) : Counter → Counter := fun z =>
  { z with planes := r.planes + 1, done := z.done || c.q ≤ r.planes + 1
           error := z.error || (c.tileInfo r.m r.t).2.1 || (c.lost && decide (r.planes + 1 < c.q)), cancelled := z.cancelled || r.asked }

/-- The state after it, but for the event of a plane that waits. -/
def State.landed (s : State) (k : Nat) (c : Coll) (r : RTile) : State :=
  (s.onCounter c r (landedCounter c r)).setColl k (c.onTile r.m r.t fun _ => landedTile c r)

theorem endLanding_eq (k : Nat) : s.endLanding k c r = if r.asked || !(r.came.contains (r.planes + 1)) then s.landed k c r
    else (s.landed k c r).schedule ((s.landed k c r).cycle + 1) srcFabric (.planeLanding k r.m r.t (7 - (r.planes + 1))) := by
  unfold State.endLanding State.landed landedTile landedCounter
  generalize c.tileInfo r.m r.t = info
  obtain ⟨e, mixed, bad⟩ := info
  rfl

theorem endLanding_keeps {α : Type} (p : State → α) (hp : ∀ t due src ev, p (State.schedule t due src ev) = p t) (k : Nat) :
    p (s.endLanding k c r) = p (s.landed k c r) := by
  rw [endLanding_eq]
  split
  · rfl
  · exact hp ..

theorem onCounter_keeps {α : Type} (p : State → α) (hp : ∀ t n y, p (State.setPair t n y) = p t) (f : Counter → Counter) :
    p (s.onCounter c r f) = p s := by
  unfold State.onCounter
  dsimp only
  split
  · exact hp ..
  · rfl

theorem counter_onCounter (hp : (c.member r.m).peer = 0) (ho : r.owns = true) (f : Counter → Counter) :
    ((s.onCounter c r f).pair (c.member r.m).pair).counter ((c.member r.m).cbase + r.t) =
      f ((s.pair (c.member r.m).pair).counter ((c.member r.m).cbase + r.t)) := by
  unfold State.onCounter
  dsimp only
  rw [if_pos ⟨hp, ho⟩, State.pair_onPair_self]
  exact Tbl.look_put_self ..

theorem endLanding_counter (k : Nat) (hp : (c.member r.m).peer = 0) (ho : r.owns = true) :
    ((s.endLanding k c r).pair (c.member r.m).pair).counter ((c.member r.m).cbase + r.t) =
      landedCounter c r ((s.pair (c.member r.m).pair).counter ((c.member r.m).cbase + r.t)) :=
  (endLanding_keeps (fun t => (t.pair (c.member r.m).pair).counter ((c.member r.m).cbase + r.t)) (fun _ _ _ _ => rfl) k).trans
    (counter_onCounter hp ho _)

theorem endLanding_coll? (k : Nat) : (s.endLanding k c r).coll? k = some (c.onTile r.m r.t fun _ => landedTile c r) :=
  (endLanding_keeps (fun t => t.coll? k) (fun _ _ _ _ => rfl) k).trans (State.coll?_setColl_self _ k _)

theorem endLanding_mem (k : Nat) : (s.endLanding k c r).mem = s.mem ∧ (s.endLanding k c r).coats = s.coats :=
  ⟨(endLanding_keeps State.mem (fun _ _ _ _ => rfl) k).trans (onCounter_keeps State.mem (fun _ _ _ => rfl) _),
    (endLanding_keeps State.coats (fun _ _ _ _ => rfl) k).trans (onCounter_keeps State.coats (fun _ _ _ => rfl) _)⟩

end

theorem planesLandInTiles : PlanesLandInTiles := by
  intro s k m n i c r hc ht hi hq8 hpeer hg halive hcan hfail
  obtain ⟨rfl, rfl⟩ := Coll.tile?_eq ht
  intro x o place mine len split near taken opened now fails w ones run later
  have hland (hle : r.planes ≤ i) : PlaneAt s k r.m r.t i c r := ⟨hc, ht, hi, hq8, hpeer, hg, halive, hcan, hfail, hle⟩
  have htaken : taken ↔ CellsTaken s x r := Iff.rfl
  have hopened : opened ↔ CellsOpen s x r := Iff.rfl
  refine ⟨fun hlt => (hland hlt.le).waits hlt, fun heq hb => ?begins, fun z heq hb hz hw => ⟨fun h => ?banksNot, fun h h' => ?banksShut,
    fun h h' h21 => ?writes⟩, fun z heq hb hz hw => ?ends⟩
  case begins =>
    refine ⟨_, _, (hland heq.le).begins heq hb, rfl, rfl, ?_, mem_schedule .., _, State.coll?_setColl_self s k _, ?_⟩
    · omega
    · exact Coll.tile?_onTile _ rfl rfl ht
  case banksNot => exact ⟨_, (hland heq.le).banksNot heq hb hz hw fun h' => h (htaken.2 h'), rfl⟩
  case banksShut => exact ⟨_, (hland heq.le).banksShut heq hb hz hw (htaken.1 h) fun h'' => h' (hopened.2 h''), rfl⟩
  case writes =>
    have hnow (b : Nat) : now b ↔ b ∈ s.blocksNow r := mem_blocksNow.symm
    have hblock {b : Nat} (hb : now b) : (State.landLater (s.landCells k c r) k r.m r.t i (s.cycle + s.cellsNow r)).blockAt (place b) =
        landedBlock c r b (s.blockAt (place b)) := landCells_blockAt k ((hnow b).1 hb)
    obtain ⟨hnear, hfar⟩ := mem_cellBanks x r.t r.wrote (s.cellsNow r)
    have hle : cellsNear x r.t r.wrote (s.cellsNow r) ≤ s.cellsNow r := cellsNear_le ..
    refine ⟨_, _, (hland heq.le).writes heq hb hz hw (htaken.1 h) (hopened.1 h'), mem_schedule .., landCells_coll? k, ?tile,
      fun h0 => landCells_bankBusy k (hnear h0), fun h0 => ?far, fun el hel hin => ?data, fun E bad hne hE => ⟨?same, ?mixed⟩, fun a ha => ?frame⟩
    case tile => exact Coll.tile?_onTile _ rfl rfl ht
    case far =>
      have hmem := landCells_bankBusy k (hfar h0)
      dsimp only at hmem
      rwa [show s.cycle + cellsNear x r.t r.wrote (s.cellsNow r) + (s.cellsNow r - cellsNear x r.t r.wrote (s.cellsNow r)) =
        s.cycle + len by show _ = s.cycle + s.cellsNow r; omega] at hmem
    case data =>
      have hw : planeWeight c.uns r.planes = w := by rw [heq, planeWeight]; simp only [Bool.not_eq_true']; rfl
      have hones : countBits ((c.sources r.m r.t).filterMap fun q => c.plane? q.1 q.2 r.planes) el = ones el := by
        rw [countBits_filterMap, heq]
      rw [hblock hin, landedBlock, landBlock_elem _ _ _ _ _ _ (Nat.mod_lt el (by decide)), Nat.div_add_mod, hw, hones]
    case same =>
      rintro ⟨e, he⟩ b hb q hq
      obtain ⟨hmixed, hscale⟩ := tileInfo_of_same hE he
      rw [hblock hb, ← hscale q hq]
      show BitVec.ofNat 16 _ = _
      rw [hmixed, Bool.false_or]
      by_cases hbad : ∃ q ∈ c.sources r.m r.t, b / 4 ∈ bad q
      · rw [if_pos hbad, if_pos ((tileInfo_bad hE _).2 hbad)]
        rfl
      · rw [if_neg hbad, if_neg fun h => hbad ((tileInfo_bad hE _).1 h)]
    case mixed =>
      intro he b hb
      rw [hblock hb]
      show BitVec.ofNat 16 _ = _
      rw [tileInfo_of_mixed hE he]
      rfl
    case frame => exact landCells_memGet k a fun b hb => ha b ((hnow b).2 hb)
  case ends =>
    obtain ⟨hmem, hcoats⟩ := endLanding_mem (s := s) (c := c) (r := r) k
    have hcounter (ho : r.owns = true) := endLanding_counter (s := s) k hpeer ho
    refine ⟨_, _, (hland heq.le).ends heq hb hz hw, hmem, hcoats, endLanding_coll? k,
      ⟨landedTile c r, Coll.tile?_onTile _ rfl rfl ht, congrArg (· + 1) heq, rfl, rfl, rfl, ?fails⟩,
      fun ho => ?counter, fun E bad hne ho hE he => ?error⟩
    case fails => subst heq; rfl
    case counter =>
      rw [hcounter ho]
      subst heq
      exact ⟨rfl, fun hq => by simp [landedCounter, hq], fun hf => by show (_ || fails) = true; rw [hf, Bool.or_true],
        fun ha => by simp [landedCounter, ha]⟩
    case error =>
      rw [hcounter ho]
      simp [landedCounter, tileInfo_of_mixed hE he]

end Sys2Proof.Machine
end

section
/-! O54, fourth part: planes are cancelled (R391 to R394). -/

namespace Sys2Proof.Machine
open Sys2Proof.Claims

/-! ### Receive tiles that a cancel reaches (R392, R393) -/

section
variable {s : State} {k : Nat} {c : Coll} {p : RTile → Bool}

/-- The tiles of a collective after a cancel of those that `p` names. -/
def Coll.cancelled (c : Coll) (p : RTile → Bool) : Coll :=
  { c with tiles := c.tiles.map fun r => if p r && r.going c.q then r.cancel else r }

/-- The tiles whose counters show the cancel at once. -/
def Coll.stopped (c : Coll) (p : RTile → Bool) : List RTile := c.tiles.filter fun r => (p r && r.going c.q) && r.busy.isNone

/-- The counter of a tile shows the cancel. -/
def State.markCancelled (c : Coll) (s : State) (r : RTile) : State := s.onCounter c r fun z => { z with cancelled := true }

theorem cancelTiles_eq (hc : s.coll? k = some c) :
    s.cancelTiles k p = (c.stopped p).foldl (State.markCancelled c) (s.setColl k (c.cancelled p)) := by
  unfold State.cancelTiles
  rw [hc]
  rfl

theorem cancelTiles_keeps {α : Type} (f : State → α) (hf : ∀ t n y, f (State.setPair t n y) = f t) (hc : s.coll? k = some c) :
    f (s.cancelTiles k p) = f (s.setColl k (c.cancelled p)) := by
  rw [cancelTiles_eq hc]
  exact foldl_keeps f _ (fun t r => onCounter_keeps f hf _) _ _

theorem cancelTiles_coll? (hc : s.coll? k = some c) : (s.cancelTiles k p).coll? k = some (c.cancelled p) :=
  (cancelTiles_keeps (fun t => t.coll? k) (fun _ _ _ => rfl) hc).trans (State.coll?_setColl_self s k _)

/-- No pair's cancel queue is touched, and no counter loses planes. -/
theorem markCancelled_pair (c : Coll) (s : State) (r : RTile) (q : Nat) : ((s.markCancelled c r).pair q).cancelQ = (s.pair q).cancelQ ∧
    ∀ n, (((s.markCancelled c r).pair q).counter n).planes = ((s.pair q).counter n).planes := by
  unfold State.markCancelled State.onCounter
  dsimp only
  split
  · by_cases hq : q = (c.member r.m).pair
    · subst hq
      rw [State.pair_onPair_self]
      refine ⟨rfl, fun n => ?_⟩
      by_cases hn : n = (c.member r.m).cbase + r.t
      · subst hn
        show Counter.planes (Tbl.look (Tbl.put _ _ _) _ _) = _
        rw [Tbl.look_put_self]
      · exact congrArg Counter.planes (Tbl.look_put_other _ _ _ hn)
    · rw [show (s.onPair (c.member r.m).pair _).pair q = s.pair q from Tbl.look_put_other _ _ _ hq]
      exact ⟨rfl, fun _ => rfl⟩
  · exact ⟨rfl, fun _ => rfl⟩

theorem cancelTiles_pair (hc : s.coll? k = some c) (q : Nat) : ((s.cancelTiles k p).pair q).cancelQ = (s.pair q).cancelQ ∧
    ∀ n, (((s.cancelTiles k p).pair q).counter n).planes = ((s.pair q).counter n).planes := by
  rw [cancelTiles_eq hc]
  exact ⟨foldl_keeps (fun t : State => (t.pair q).cancelQ) _ (fun t r => (markCancelled_pair c t r q).1) _ _,
    fun n => foldl_keeps (fun t : State => ((t.pair q).counter n).planes) _ (fun t r => (markCancelled_pair c t r q).2 n) _ _⟩

end

/-! ### Senders that are told (R394) -/

section
variable {s : State} {k : Nat} {c : Coll}

/-- One sender is told. -/
def State.tellSender (k : Nat) (c : Coll) (s : State) (q : Member × Nat) : State :=
  if q.1.peer = 0 ∧ c.sends q.2 ≠ 0 then
    (s.schedule (s.cycle + 1 + Config.reachTime s.fresh % 255) (srcCopy q.1.eng) (.senderStop k q.2)).bump
  else s

theorem tellSenders_eq (hc : s.coll? k = some c) : s.tellSenders k = c.members.zipIdx.foldl (State.tellSender k c) s := by
  unfold State.tellSenders
  rw [hc]
  rfl

theorem tellSender_keeps {α : Type} (f : State → α) (hf : ∀ s due src ev, f (State.bump (s.schedule due src ev)) = f s)
    (s : State) (q : Member × Nat) : f (s.tellSender k c q) = f s := by
  unfold State.tellSender
  split
  · exact hf ..
  · rfl

theorem tellSenders_keeps {α : Type} (f : State → α) (hf : ∀ s due src ev, f (State.bump (s.schedule due src ev)) = f s)
    (hc : s.coll? k = some c) : f (s.tellSenders k) = f s := by
  rw [tellSenders_eq hc]
  exact foldl_keeps f _ (fun s q => tellSender_keeps f hf s q) _ _

/-- Every sender of this package learns of the cancel within 256 cycles. -/
theorem mem_tellSenders (hc : s.coll? k = some c) {i : Nat} (hi : i < c.members.length) (hp : (c.member i).peer = 0)
    (hs : c.sends i ≠ 0) : ∃ due, s.cycle < due ∧ due ≤ s.cycle + 256 ∧
      { due := due, src := srcCopy (c.member i).eng, ev := .senderStop k i } ∈ (s.tellSenders k).agenda := by
  have hmem : (c.member i, i) ∈ c.members.zipIdx := by
    rw [List.mem_zipIdx_iff_getElem?, Coll.member, List.getD_eq_getElem _ _ hi]
    exact List.getElem?_eq_getElem hi
  rw [tellSenders_eq hc]
  obtain ⟨e, he, due, hlt, hle, rfl⟩ := mem_agenda_foldl (State.tellSender k c) (fun t q e he => by
      unfold State.tellSender
      split
      · simp [he]
      · exact he)
    hmem (i := fun t => t.cycle = s.cycle)
    (p := fun e => ∃ due, s.cycle < due ∧ due ≤ s.cycle + 256 ∧ e = { due := due, src := srcCopy (c.member i).eng, ev := .senderStop k i })
    (fun t q ht => (tellSender_keeps State.cycle (fun _ _ _ _ => rfl) t q).trans ht)
    (fun t ht => ⟨_, by
      rw [State.tellSender, if_pos ⟨hp, hs⟩]
      exact mem_schedule .., _, by omega, by omega, rfl⟩) s rfl
  exact ⟨due, hlt, hle, he⟩

end

/-! ### A sender that stops frees the ticks of its planes not started (R394) -/

/-- What is left of a row's use when ticks `lo` to `hi - 1` of another are released. -/
theorem without_covers (u : RowUse) (row lo hi r t : Nat) : (∃ v ∈ u.without row lo hi, v.covers r t = true) ↔
    u.covers r t = true ∧ ¬ (r = row ∧ u.hold = false ∧ lo ≤ t ∧ t < hi) := by
  have hcovers (v : RowUse) : v.covers r t = true ↔ v.row = r ∧ v.first ≤ t ∧ t < v.first + v.len := by
    simp [RowUse.covers, and_assoc]
  unfold RowUse.without
  split
  · rename_i hout
    simp only [List.mem_singleton, exists_eq_left, hcovers]
    refine ⟨fun h => ⟨h, ?_⟩, And.left⟩
    rintro ⟨rfl, hhold, hlo, hhi⟩
    rcases hout with h' | h' | h' | h'
    · exact h' h.1
    · rw [hhold] at h'; cases h'
    · omega
    · omega
  · rename_i hin
    obtain ⟨hrow, hhold, hlo, hhi⟩ := not_or.1 hin |>.imp_right fun h => not_or.1 h |>.imp_right not_or.1
    have hhold : u.hold = false := Bool.eq_false_iff.2 hhold
    have hrow : u.row = row := not_not.1 hrow
    have hmem (v : RowUse) : (v ∈ (if u.first < lo then [{ u with len := lo - u.first }] else []) ++
        if hi < u.first + u.len then [{ u with first := hi, len := u.first + u.len - hi }] else []) ↔
        (u.first < lo ∧ v = { u with len := lo - u.first }) ∨
          (hi < u.first + u.len ∧ v = { u with first := hi, len := u.first + u.len - hi }) := by
      rw [List.mem_append]
      exact or_congr (by split <;> simp [*]) (by split <;> simp [*])
    simp only [hmem, or_and_right, exists_or, and_assoc, exists_and_left, exists_eq_left, hcovers]
    rw [hhold, hrow]
    constructor
    · rintro (⟨_, h1, h2, h3⟩ | ⟨_, h1, h2, h3⟩)
      · exact ⟨h1, by omega, by omega, fun h => by omega⟩
      · exact ⟨h1, by omega, by omega, fun h => by omega⟩
    · rintro ⟨h1, h2, h3, h4⟩
      have h5 : ¬ (lo ≤ t ∧ t < hi) := fun h => h4 ⟨h1.symm, rfl, h⟩
      by_cases h6 : t < lo
      · exact .inl ⟨by omega, h1, by omega, by omega⟩
      · exact .inr ⟨by omega, h1, by omega, by omega⟩

theorem find_mapKeyed {α : Type} (f : Nat → α → α) (t : List (Nat × α)) (k : Nat) :
    Tbl.find (t.map fun e => (e.1, f e.1 e.2)) k = (Tbl.find t k).map (f k) := by
  induction t with
  | nil => rfl
  | cons e t ih =>
    obtain ⟨j, x⟩ := e
    by_cases h : j = k <;> simp [Tbl.find, h, ih]

/-- A booking that has been looked at by no compaction since the release. -/
def unexamined (y : Booking) : Booking := { y with examined := false }

theorem noteRelease_find (f : Face) (b : Nat) : Tbl.find f.noteRelease.bookings b = (Tbl.find f.bookings b).map unexamined :=
  find_mapKeyed (fun _ y => unexamined y) f.bookings b

section
variable {s : State} {c : Coll} {m : Nat}

/-- First plane of a member that has not been started. -/
def Member.firstLeft (x : Member) : Nat := x.planes + if x.flits = 0 then 0 else 1

/-- The first tick that is freed. -/
def State.freeFrom (s : State) (c : Coll) (m b : Nat) : Nat := max (s.tick + 1) (s.planeTick (c.member m) b (c.member m).firstLeft)

/-- A booking without the ticks of the planes that are not started. -/
def State.cutBooking (s : State) (c : Coll) (m b : Nat) (y : Booking) : Booking :=
  let cut (u : RowUse) : List RowUse := u.without (rowLink (c.member m).lrow) (s.freeFrom c m b) (s.planeTick (c.member m) b c.q)
  { y with rows := y.rows.flatMap cut }

theorem freePlanes_none (hb : s.memberBid (c.member m) = none) : s.freePlanes c m = s := by
  unfold State.freePlanes
  simp only [hb]

theorem freePlanes_some {b : Nat} (hb : s.memberBid (c.member m) = some b) : s.freePlanes c m =
    if (Tbl.find (s.face ((c.member m).pair / 8)).bookings b).any fun y => (s.cutBooking c m b y).rows != y.rows then
      (s.onFace ((c.member m).pair / 8) fun f => Face.noteRelease
        { f with bookings := f.bookings.map fun e => if e.1 = b then (e.1, s.cutBooking c m b e.2) else e }).unblock
        ((c.member m).pair / 32)
    else s := by
  unfold State.freePlanes
  simp only [hb]
  rfl

theorem freePlanes_keeps {α : Type} (p : State → α) (hp : ∀ t n f d, p (State.unblock (t.setFace n f) d) = p t) :
    p (s.freePlanes c m) = p s := by
  cases hb : s.memberBid (c.member m) with
  | none => rw [freePlanes_none hb]
  | some b =>
    rw [freePlanes_some hb]
    split
    · exact hp ..
    · rfl

/-- A tick of a row is still covered where it was, and is not one of those that are freed. -/
theorem cutBooking_covers (b : Nat) (y : Booking) (row t : Nat) : (∃ v ∈ (s.cutBooking c m b y).rows, v.covers row t = true) ↔
    ∃ v ∈ y.rows, v.covers row t = true ∧ ¬ (row = rowLink (c.member m).lrow ∧ v.hold = false ∧ (s.tick + 1 ≤ t ∧
      s.planeTick (c.member m) b (c.member m).firstLeft ≤ t) ∧ t < s.planeTick (c.member m) b c.q) := by
  have hrows : (s.cutBooking c m b y).rows = y.rows.flatMap fun u =>
    u.without (rowLink (c.member m).lrow) (s.freeFrom c m b) (s.planeTick (c.member m) b c.q) := rfl
  have hfrom : s.freeFrom c m b ≤ t ↔ s.tick + 1 ≤ t ∧ s.planeTick (c.member m) b (c.member m).firstLeft ≤ t := max_le_iff
  rw [hrows, ← hfrom]
  constructor
  · rintro ⟨v, hv, hcov⟩
    obtain ⟨u, hu, hvu⟩ := List.mem_flatMap.1 hv
    exact ⟨u, hu, (without_covers u ..).1 ⟨v, hvu, hcov⟩⟩
  · rintro ⟨u, hu, h⟩
    obtain ⟨v, hvu, hcov⟩ := (without_covers u ..).2 h
    exact ⟨v, List.mem_flatMap.2 ⟨u, hu, hvu⟩, hcov⟩

/-- The booking keeps its rows but for those ticks. -/
theorem freePlanes_find {b : Nat} {y : Booking} (hb : s.memberBid (c.member m) = some b)
    (hy : Tbl.find (s.face ((c.member m).pair / 8)).bookings b = some y) :
    ∃ y', Tbl.find ((s.freePlanes c m).face ((c.member m).pair / 8)).bookings b = some y' ∧
      y'.rows = (s.cutBooking c m b y).rows := by
  rw [freePlanes_some hb, hy]
  by_cases hcut : (s.cutBooking c m b y).rows = y.rows
  · exact ⟨y, by simpa [hcut] using hy, hcut.symm⟩
  · refine ⟨unexamined (s.cutBooking c m b y), ?_, rfl⟩
    rw [if_pos (by simpa using hcut)]
    have hface (f : Face → Face) (d : Nat) : ((s.onFace ((c.member m).pair / 8) f).unblock d).face ((c.member m).pair / 8) =
        f (s.face ((c.member m).pair / 8)) := State.face_onFace_self s _ f
    have hmap : ((s.face ((c.member m).pair / 8)).bookings.map fun e => if e.1 = b then (e.1, s.cutBooking c m b e.2) else e) =
        (s.face ((c.member m).pair / 8)).bookings.map fun e => (e.1, if e.1 = b then s.cutBooking c m b e.2 else e.2) :=
      List.map_congr_left fun e _ => by split <;> rfl
    rw [hface, noteRelease_find, hmap, find_mapKeyed (fun j y => if j = b then s.cutBooking c m b y else y), hy, Option.map_some,
      if_pos rfl]
    rfl

end

/-! ### Cancels -/

section
variable {s : State} {k : Nat} {c : Coll} {r : RTile} {p : RTile → Bool}

theorem going_iff (q : Nat) : r.going q = true ↔
    r.planes < q ∧ r.cancelled = false ∧ r.failed = false ∧ r.mixed = false ∧ r.asked = false := by
  simp [RTile.going, and_assoc]

theorem cancel_eq (r : RTile) : r.cancel = if r.busy = none then { r with cancelled := true } else { r with asked := true } := by
  unfold RTile.cancel
  cases r.busy <;> rfl

theorem mem_cancelled (hr : r ∈ c.tiles) (hp : p r = true) (hg : r.going c.q = true) : r.cancel ∈ (c.cancelled p).tiles :=
  List.mem_map.2 ⟨r, hr, if_pos (by rw [hp, hg]; rfl)⟩

theorem mem_cancelled_other (hr : r ∈ c.tiles) (hp : p r = false) : r ∈ (c.cancelled p).tiles :=
  List.mem_map.2 ⟨r, hr, if_neg (by rw [hp]; exact Bool.false_ne_true)⟩

/-- In a table with rising keys, what is listed is found. -/
theorem find_of_mem {α : Type} {t : List (Nat × α)} (ht : t.Pairwise fun a b => a.1 < b.1) {e : Nat × α} (he : e ∈ t) :
    Tbl.find t e.1 = some e.2 := by
  induction t with
  | nil => cases he
  | cons f t ih =>
    obtain ⟨hf, htail⟩ := List.pairwise_cons.1 ht
    obtain ⟨j, x⟩ := f
    rcases List.mem_cons.1 he with rfl | he
    · exact if_pos rfl
    · exact (if_neg (hf e he).ne).trans (ih htail he)

/-- The tile that a counter belongs to. -/
theorem tileOfCounter_spec {q n : Nat} (h : s.tileOfCounter q n = some (k, r)) (hc : s.coll? k = some c)
    (hs : s.colls.Pairwise fun a b => a.1 < b.1) :
    r ∈ c.tiles ∧ r.owns = true ∧ (c.member r.m).peer = 0 ∧ (c.member r.m).pair = q ∧ (c.member r.m).cbase + r.t = n := by
  obtain ⟨e, he, hfind⟩ := List.exists_of_findSome?_eq_some h
  obtain ⟨r', hr', heq⟩ := Option.map_eq_some_iff.1 hfind
  obtain ⟨hk, rfl⟩ := Prod.mk.inj heq
  obtain rfl : e.2 = c := by
    have := find_of_mem hs he
    rw [hk] at this
    exact Option.some.inj (this.symm.trans hc)
  have hp := List.find?_some hr'
  simp only [Bool.and_eq_true, beq_iff_eq] at hp
  obtain ⟨⟨⟨howns, hpeer⟩, hpair⟩, hn⟩ := hp
  exact ⟨List.mem_of_find?_eq_some hr', howns, hpeer, hpair, hn⟩

/-- Where the cancel names one tile alone, and it is not being written, its counter shows the cancel. -/
theorem cancelTiles_counter (hc : s.coll? k = some c) (hone : c.tiles.filter p = [r]) (hg : r.going c.q = true) (hb : r.busy = none)
    (hpeer : (c.member r.m).peer = 0) (ho : r.owns = true) :
    (((s.cancelTiles k p).pair (c.member r.m).pair).counter ((c.member r.m).cbase + r.t)).cancelled = true := by
  have hstop : c.stopped p = [r] := by
    have h : c.stopped p = (c.tiles.filter p).filter fun r => r.going c.q && r.busy.isNone := by
      rw [List.filter_filter]
      exact List.filter_congr fun r _ => by rw [Bool.and_assoc, Bool.and_comm]
    rw [h, hone]
    simp [hg, hb]
  rw [cancelTiles_eq hc, hstop]
  show (((State.markCancelled c (s.setColl k (c.cancelled p)) r).pair _).counter _).cancelled = true
  rw [State.markCancelled, counter_onCounter hpeer ho]

theorem exec_cancelProcess {q : Nat} {z : CancelEntry} {rest : List CancelEntry} (hq : (s.pair q).cancelQ = z :: rest) :
    let u := s.onPair q fun y => { y with cancelQ := rest }
    (∀ n, z = .tile n → s.tileOfCounter q n = none → exec (.cancelProcess q) s = .next u) ∧
    (∀ n, z = .tile n → s.tileOfCounter q n = some (k, r) → exec (.cancelProcess q) s =
      .next ((u.cancelTiles k fun x => x.m == r.m && x.t == r.t).tellSenders k)) ∧
    (∀ core tag, z = .tag core tag → s.collTag core tag = none → exec (.cancelProcess q) s = .next u) ∧
    (∀ core tag e c, z = .tag core tag → s.collTag core tag = some (e, c) → s.joinedBy c = none → exec (.cancelProcess q) s =
      .next (u.onCopy e c.id fun x => { x with cancelled := true })) ∧
    (∀ core tag e c, z = .tag core tag → s.collTag core tag = some (e, c) → s.joinedBy c = some k → exec (.cancelProcess q) s =
      .next (u.cancelColl k)) := by
  intro u
  have htile (n : Nat) : u.tileOfCounter q n = s.tileOfCounter q n := rfl
  have htag (core tag : Nat) : u.collTag core tag = s.collTag core tag := rfl
  have hjoined (c : CopyCmd) : u.joinedBy c = s.joinedBy c := rfl
  have hexec : exec (.cancelProcess q) s = execCancelProcess q s := rfl
  rw [hexec]
  unfold execCancelProcess
  simp only [hq]
  refine ⟨?_, ?_, ?_, ?_, ?_⟩
  · rintro n rfl h
    simp only [htile, h, u]
  · rintro n rfl h
    simp only [htile, h, u]
  · rintro core tag rfl h
    simp only [htag, h, u]
  · rintro core tag e c rfl h hj
    simp only [htag, h, hjoined, hj, u]
  · rintro core tag e c rfl h hj
    simp only [htag, h, hjoined, hj, u]

end

theorem cancelColl_eq {s : State} {k : Nat} {c : Coll} (hc : s.coll? k = some c) :
    s.cancelColl k = ((s.setColl k { c with cancel := true }).cancelTiles k fun _ => true).tellSenders k := by
  unfold State.cancelColl
  rw [hc]

/-- A sender that learns of a cancel: what it has heard of, and, with nothing left to send, that it stops. -/
theorem exec_senderStop {s : State} {k m : Nat} {c : Coll} (hc : s.coll? k = some c) (hp : (c.member m).peer = 0)
    (hs : (c.member m).stopped = false) (hl : (c.member m).planes < c.q) :
    let hears (z : Member) : Member := { z with heard := (List.range (c.sends m)).filter fun t => !c.wanted m t }
    ((∀ t, t < c.sends m → c.wanted m t = false) → exec (.senderStop k m) s =
      .next ((s.freePlanes c m).setColl k (c.onMember m fun z => { hears z with stopped := true }))) ∧
    ∀ t, t < c.sends m → c.wanted m t = true → exec (.senderStop k m) s = .next (s.setColl k (c.onMember m hears)) := by
  intro hears
  have hstops : c.stops m = true ↔ ∀ t, t < c.sends m → c.wanted m t = false := by
    simp [Coll.stops, hp, hs, hl]
  have hexec : exec (.senderStop k m) s = execSenderStop k m s := rfl
  rw [hexec]
  unfold execSenderStop
  simp only [hc]
  exact ⟨fun h => if_pos (hstops.2 h), fun t ht hw => if_neg fun h => by simp [hstops.1 h t ht] at hw⟩

theorem cancels : Cancels := by
  intro s p k m c rest u run told frozen going
  have hgoing (r : RTile) : going r ↔ r.going c.q = true := (going_iff c.q).symm
  have hfrozen (r : RTile) : frozen r = r.cancel := (cancel_eq r).symm
  -- the senders of a collective whose tiles have been cancelled are told
  have htold {v : State} {y : Coll} (hv : v.coll? k = some y) (hcycle : v.cycle = s.cycle) (hm : y.members = c.members)
      (hy : ∀ i, y.sends i = c.sends i) : told (v.tellSenders k) c := by
    intro i hi hpeer hsends
    have hmember : y.member i = c.member i := by rw [Coll.member, hm]; rfl
    have h := mem_tellSenders hv (hm ▸ hi) (hmember ▸ hpeer) (hy i ▸ hsends)
    rwa [hcycle, hmember] at h
  refine ⟨fun hq => ?empty, fun n hq h => ?noTile, fun n r hq h hc hsorted hone hg => ?tile, fun core tag hq h => ?noTag,
    fun core tag e z hq h hj => ?waiting, fun core tag e z hq h hj hc => ?coll, fun hc hm hpeer hstop hleft => ?stop⟩
  case empty =>
    show execCancelProcess p s = _
    unfold execCancelProcess
    rw [hq]
  case noTile => exact (exec_cancelProcess (k := k) (r := { m := 0, t := 0 }) hq).1 n rfl h
  case noTag => exact (exec_cancelProcess (k := k) (r := { m := 0, t := 0 }) hq).2.2.1 core tag rfl h
  case waiting => exact (exec_cancelProcess (k := k) (r := { m := 0, t := 0 }) hq).2.2.2.1 core tag e z rfl h hj
  case tile =>
    obtain ⟨hr, howns, hpeer, hpair, hn⟩ := tileOfCounter_spec h hc hsorted
    have hcu : u.coll? k = some c := hc
    have hg' := (hgoing r).1 hg
    have htell {α : Type} (f : State → α) (hf : ∀ s due src ev, f (State.bump (s.schedule due src ev)) = f s) :=
      tellSenders_keeps f hf (cancelTiles_coll? (p := fun x => x.m == r.m && x.t == r.t) hcu)
    obtain ⟨hqueue, hplanes⟩ := cancelTiles_pair (p := fun x => x.m == r.m && x.t == r.t) hcu p
    have hpu : u.pair p = { s.pair p with cancelQ := rest } := State.pair_onPair_self ..
    refine ⟨_, c.cancelled fun x => x.m == r.m && x.t == r.t, (exec_cancelProcess hq).2.1 n rfl h, ?_, ?_, ?_, fun q hq hne => ?_,
      ?_, ?_, fun hb => ?_, ?_⟩
    · rw [htell (fun t => (t.pair p).cancelQ) fun _ _ _ _ => rfl, hqueue, hpu]
    · exact (htell (fun t => t.coll? k) fun _ _ _ _ => rfl).trans (cancelTiles_coll? hcu)
    · exact hfrozen r ▸ mem_cancelled hr (by simp) hg'
    · refine mem_cancelled_other hq (Bool.eq_false_iff.2 fun h => hne ?_)
      have hmem : q ∈ c.tiles.filter fun x => x.m == r.m && x.t == r.t := List.mem_filter.2 ⟨hq, h⟩
      rw [hone] at hmem
      exact List.mem_singleton.1 hmem
    · exact htold (cancelTiles_coll? hcu) (cancelTiles_keeps State.cycle (fun _ _ _ => rfl) hcu) rfl fun _ => rfl
    · exact (htell State.mem fun _ _ _ _ => rfl).trans (cancelTiles_keeps State.mem (fun _ _ _ => rfl) hcu)
    · have hcounter := cancelTiles_counter (k := k) hcu hone hg' hb hpeer howns
      rw [hpair, hn] at hcounter
      exact (htell (fun t => ((t.pair p).counter n).cancelled) fun _ _ _ _ => rfl).trans hcounter
    · exact (htell (fun t => ((t.pair p).counter n).planes) fun _ _ _ _ => rfl).trans ((hplanes n).trans (by rw [hpu]; rfl))
  case coll =>
    have hcu : (u.setColl k { c with cancel := true }).coll? k = some { c with cancel := true } := State.coll?_setColl_self ..
    have hexec := (exec_cancelProcess (r := { m := 0, t := 0 }) hq).2.2.2.2 core tag e z rfl h hj
    rw [cancelColl_eq (show u.coll? k = some c from hc)] at hexec
    have htell {α : Type} (f : State → α) (hf : ∀ s due src ev, f (State.bump (s.schedule due src ev)) = f s) :=
      tellSenders_keeps f hf (cancelTiles_coll? (p := fun _ => true) hcu)
    have hpu : u.pair p = { s.pair p with cancelQ := rest } := State.pair_onPair_self ..
    refine ⟨_, _, hexec, ?_, (htell (fun t => t.coll? k) fun _ _ _ _ => rfl).trans (cancelTiles_coll? hcu), rfl, ?_, ?_,
      fun r hr hg => ?_⟩
    · rw [htell (fun t => (t.pair p).cancelQ) fun _ _ _ _ => rfl, (cancelTiles_pair hcu p).1]
      exact congrArg Pair.cancelQ hpu
    · exact htold (cancelTiles_coll? hcu) (cancelTiles_keeps State.cycle (fun _ _ _ => rfl) hcu) rfl fun _ => rfl
    · exact (htell State.mem fun _ _ _ _ => rfl).trans (cancelTiles_keeps State.mem (fun _ _ _ => rfl) hcu)
    · exact hfrozen r ▸ mem_cancelled (c := { c with cancel := true }) hr rfl ((hgoing r).1 hg)
  case stop =>
    intro x heard
    obtain ⟨hall, hsome⟩ := exec_senderStop hc hpeer hstop hleft
    refine ⟨fun h => ⟨_, hall h, State.coll?_setColl_self .., ?_, ?_, fun hb => ?_, fun b y hb hy => ?_⟩, hsome⟩
    · exact freePlanes_keeps State.mem fun _ _ _ _ => rfl
    · exact freePlanes_keeps State.ctxs fun _ _ _ _ => rfl
    · rw [State.setColl_faces, freePlanes_none hb]
    · obtain ⟨y', hy', hrows⟩ := freePlanes_find hb hy
      refine ⟨y', hy', fun row t => ?_⟩
      rw [hrows, cutBooking_covers, planeTick_eq hy, planeTick_eq hy]
      refine exists_congr fun v => and_congr_right fun _ => and_congr_right fun _ => not_congr ?_
      exact and_congr_right fun _ => and_congr_right fun _ => and_assoc

/-- Settles O54, by its parts: planes sent, planes landed and planes cancelled. -/
theorem planeStreams : Obligations.PlaneStreams := ⟨planesAreSent, planesLandInTiles, cancels⟩

end Sys2Proof.Machine
end

section
/-! O16, first part: the lanes that a tile load forms (R61, R65 to R69, R193). -/

namespace Sys2Proof.Machine
open Sys2Proof.Claims

/-! ### Widths of formats (R60, R61, R62) -/

section
variable {n : Word} {f w : Nat}

theorem fmtWidth_cases (h : FmtWidth n f w) : f = 1 ∧ w = 32 ∨ f = 2 ∧ w = 16 ∨ f = 3 ∧ w = 16 ∨ f = 4 ∧ w = 8 ∨ f = 5 ∧ w = 8 ∨
    f = 6 ∧ w = 32 ∨ f = 7 ∧ w = 16 ∨ f = 8 ∧ w = 8 ∨ f = 9 ∧ w = 8 ∨ f = 10 ∧ w = 4 ∨ f = 11 ∧ w = 4 ∨ f = 14 ∧ w = 32 ∨
    f = 13 ∧ w = n.toNat % 16 ∧ 1 ≤ w ∧ w ≤ 8 := h

theorem fmtWidth_bits (h : FmtWidth n f w) : elemBits n f = w := by
  rcases fmtWidth_cases h with ⟨rfl, rfl⟩ | ⟨rfl, rfl⟩ | ⟨rfl, rfl⟩ | ⟨rfl, rfl⟩ | ⟨rfl, rfl⟩ | ⟨rfl, rfl⟩ | ⟨rfl, rfl⟩ | ⟨rfl, rfl⟩ | ⟨rfl, rfl⟩ |
    ⟨rfl, rfl⟩ | ⟨rfl, rfl⟩ | ⟨rfl, rfl⟩ | ⟨rfl, rfl, _⟩
  all_goals rfl

theorem fmtWidth_width (h : FmtWidth n f w) : 1 ≤ w ∧ w ≤ 8 ∨ w = 16 ∨ w = 32 := by
  have h := fmtWidth_cases h
  omega

/-- Elements of a row that lie in one block. -/
def elemsPer (w : Nat) : Nat := if 8 * w < 64 then 64 else 512 / w

/-- Where element `c` of a row lies: its block, and its first bit in the block when the row starts the block. -/
theorem elem_place (h : 1 ≤ w ∧ w ≤ 8 ∨ w = 16 ∨ w = 32) {c : Nat} (hc : c < 64) :
    c / elemsPer w = w * c / 512 ∧ w * (c % elemsPer w) = w * c % 512 := by
  unfold elemsPer
  by_cases h8 : w < 8
  · have hwc : w * c < 512 := by nlinarith
    rw [if_pos (by omega), Nat.div_eq_of_lt hc, Nat.mod_eq_of_lt hc, Nat.div_eq_of_lt hwc, Nat.mod_eq_of_lt hwc]
    exact ⟨rfl, rfl⟩
  · have hw : w = 8 ∨ w = 16 ∨ w = 32 := by omega
    rw [if_neg (by omega)]
    rcases hw with rfl | rfl | rfl
    all_goals
      simp only [Nat.reduceDiv]
      omega

theorem elemsPer_mul (h : 1 ≤ w ∧ w ≤ 8 ∨ w = 16 ∨ w = 32) : elemsPer w * (if 8 ≤ w then w / 8 else 1) = 64 := by
  have hw : w = 1 ∨ w = 2 ∨ w = 3 ∨ w = 4 ∨ w = 5 ∨ w = 6 ∨ w = 7 ∨ w = 8 ∨ w = 16 ∨ w = 32 := by omega
  rcases hw with rfl | rfl | rfl | rfl | rfl | rfl | rfl | rfl | rfl | rfl
  all_goals rfl

theorem rowOf_length {x : Span × List BlockVal} (h : RowOf w x) : x.2.length = if 8 ≤ w then w / 8 else 1 := by
  unfold RowOf at h
  split at h
  · rename_i h8; rw [if_pos h8]; exact h.2
  · rename_i h8; rw [if_neg h8]; exact h.2

end

/-! ### Rows of lanes -/

/-- Lanes that blocks of `per` each form, one after the other. -/
theorem getD_flatten_blocks {per : Nat} (g : BlockVal → Nat → List Lane) (hg : ∀ b i, (g b i).length = per) (bs : List BlockVal)
    {c : Nat} {b : BlockVal} (hper : 0 < per) (hb : bs[c / per]? = some b) :
    ((bs.zipIdx.map fun x => g x.1 x.2).flatten).getD c 0 = (g b (c / per)).getD (c % per) 0 := by
  have h := getD_flatMap (n := per) (fun x : BlockVal × Nat => g x.1 x.2) bs.zipIdx (fun x _ => hg _ _) 0
    (Nat.mod_lt c hper) (k := c / per) (b, c / per) (by simp [hb])
  rw [Nat.div_add_mod] at h
  rw [← h, List.flatMap_def]

theorem length_flatten_blocks {per : Nat} (g : BlockVal → Nat → List Lane) (hg : ∀ b i, (g b i).length = per) (bs : List BlockVal) :
    ((bs.zipIdx.map fun x => g x.1 x.2).flatten).length = per * bs.length := by
  rw [List.length_flatten, List.map_map]
  simp [Function.comp_def, hg, Nat.mul_comm]

section
variable (n pc : Word) (f : Nat) (b : BlockVal)

/-- One lane of a block under an explicit fmt. -/
def explicitLane (lo lane : Nat) : Lane :=
  if coatPoison b.coat then poisonLane n pc f lane
  else if coatZero b.coat then 0
  else elemLane n f (bitsOf b.data lo (elemBits n f))

/-- One lane of a block under COAT, in a row of CODE `f`. -/
def coatedLane (lo lane : Nat) : Lane :=
  if coatPoison b.coat then originNaN pc lane
  else if coatZero b.coat then 0
  else if coatCode b.coat != f then originNaN pc lane
  else coatLane n f (bitsOf b.data lo (elemBits n (codeFmt f))) (coatE b.coat)

theorem length_explicitLanes (lo lane k : Nat) : (explicitLanes n pc f b lo lane k).length = k := by
  induction k generalizing lo lane with
  | zero => rfl
  | succ k ih => rw [explicitLanes, List.length_cons, ih]

theorem length_coatedLanes (lo lane k : Nat) : (coatedLanes n pc f b lo lane k).length = k := by
  induction k generalizing lo lane with
  | zero => rfl
  | succ k ih => rw [coatedLanes, List.length_cons, ih]

theorem explicitLanes_getD (lo lane : Nat) {k j : Nat} (h : j < k) :
    (explicitLanes n pc f b lo lane k).getD j 0 = explicitLane n pc f b (lo + elemBits n f * j) (lane + j) := by
  induction k generalizing lo lane j with
  | zero => cases h
  | succ k ih =>
    cases j with
    | zero => rfl
    | succ j =>
      have := ih (lo + elemBits n f) (lane + 1) (Nat.lt_of_succ_lt_succ h)
      rw [explicitLanes, List.getD_cons_succ, this, Nat.mul_succ]
      congr 1 <;> omega

theorem coatedLanes_getD (lo lane : Nat) {k j : Nat} (h : j < k) :
    (coatedLanes n pc f b lo lane k).getD j 0 = coatedLane n pc f b (lo + elemBits n (codeFmt f) * j) (lane + j) := by
  induction k generalizing lo lane j with
  | zero => cases h
  | succ k ih =>
    cases j with
    | zero => rfl
    | succ j =>
      have := ih (lo + elemBits n (codeFmt f)) (lane + 1) (Nat.lt_of_succ_lt_succ h)
      rw [coatedLanes, List.getD_cons_succ, this, Nat.mul_succ]
      congr 1 <;> omega

end

section
variable {n : Word} {f w : Nat} {bs : List BlockVal} (pc : Word) (off lane : Nat)

theorem elemsPer_pos (h : 1 ≤ w ∧ w ≤ 8 ∨ w = 16 ∨ w = 32) : 0 < elemsPer w :=
  Nat.pos_of_ne_zero fun h0 => by
    have := elemsPer_mul h
    rw [h0] at this
    omega

theorem explicitRow_eq (hw : FmtWidth n f w) : explicitRow n pc f bs off lane = (bs.zipIdx.map fun x =>
    explicitLanes n pc f x.1 (8 * off) (lane + elemsPer w * x.2) (elemsPer w)).flatten := by
  rw [explicitRow, rowBytes, fmtWidth_bits hw]
  rfl

theorem length_explicitRow (hw : FmtWidth n f w) (hbs : bs.length = if 8 ≤ w then w / 8 else 1) :
    (explicitRow n pc f bs off lane).length = 64 := by
  rw [explicitRow_eq pc off lane hw, length_flatten_blocks (fun b i => explicitLanes n pc f b (8 * off) (lane + elemsPer w * i) (elemsPer w))
    (fun _ _ => length_explicitLanes ..), hbs, elemsPer_mul (fmtWidth_width hw)]

/-- Element `c` of a row under an explicit fmt. -/
theorem explicitRow_getD (hw : FmtWidth n f w) {c : Nat} (hc : c < 64) {b : BlockVal} (hb : bs[w * c / 512]? = some b) :
    (explicitRow n pc f bs off lane).getD c 0 = explicitLane n pc f b (8 * off + w * c % 512) (lane + c) := by
  obtain ⟨hblock, hbit⟩ := elem_place (fmtWidth_width hw) hc
  have hpos := elemsPer_pos (fmtWidth_width hw)
  rw [explicitRow_eq pc off lane hw, getD_flatten_blocks (fun b i => explicitLanes n pc f b (8 * off) (lane + elemsPer w * i) (elemsPer w))
    (fun _ _ => length_explicitLanes ..) bs hpos (hblock ▸ hb),
    explicitLanes_getD _ _ _ _ _ _ (Nat.mod_lt _ hpos), fmtWidth_bits hw, hbit, Nat.add_assoc, Nat.div_add_mod]

/-- The CODE of a row's first block gives the row a format. -/
theorem coatRow_eq {b0 : BlockVal} (h1 : 1 ≤ coatCode b0.coat) (h12 : coatCode b0.coat ≤ 12) (hw : FmtWidth n (codeFmt (coatCode b0.coat)) w) :
    coatRow n pc (b0 :: bs) off lane = ((b0 :: bs).zipIdx.map fun x =>
      coatedLanes n pc (coatCode b0.coat) x.1 (8 * off) (lane + elemsPer w * x.2) (elemsPer w)).flatten := by
  rw [coatRow, fmtWidth_bits hw]
  dsimp only
  rw [if_pos (by simp [h1, h12])]
  rfl

/-- Or none. -/
theorem coatRow_none {b0 : BlockVal} (h : coatCode b0.coat = 0 ∨ 12 < coatCode b0.coat) : coatRow n pc (b0 :: bs) off lane =
    if coatZero b0.coat then List.replicate 64 0 else (List.range 64).map fun c => originNaN pc (lane + c) := by
  have hcode : (decide (1 ≤ coatCode b0.coat) && decide (coatCode b0.coat ≤ 0x0C)) = false := by
    simp only [Bool.and_eq_false_iff, decide_eq_false_iff_not]
    omega
  rw [coatRow]
  dsimp only
  rw [hcode]
  rfl

theorem coatRow_getD {b0 : BlockVal} (h1 : 1 ≤ coatCode b0.coat) (h12 : coatCode b0.coat ≤ 12)
    (hw : FmtWidth n (codeFmt (coatCode b0.coat)) w) {c : Nat} (hc : c < 64) {b : BlockVal} (hb : (b0 :: bs)[w * c / 512]? = some b) :
    (coatRow n pc (b0 :: bs) off lane).getD c 0 = coatedLane n pc (coatCode b0.coat) b (8 * off + w * c % 512) (lane + c) := by
  obtain ⟨hblock, hbit⟩ := elem_place (fmtWidth_width hw) hc
  have hpos := elemsPer_pos (fmtWidth_width hw)
  rw [coatRow_eq pc off lane h1 h12 hw,
    getD_flatten_blocks (fun b i => coatedLanes n pc (coatCode b0.coat) b (8 * off) (lane + elemsPer w * i) (elemsPer w))
      (fun _ _ => length_coatedLanes ..) (b0 :: bs) hpos (hblock ▸ hb),
    coatedLanes_getD _ _ _ _ _ _ (Nat.mod_lt _ hpos), fmtWidth_bits hw, hbit, Nat.add_assoc, Nat.div_add_mod]

end

/-! ### The value of an element (R60, R65, R66, R68, R69) -/

/-- SUB as a lane of a signed format. -/
theorem ofInt_sext (w x : Nat) : BitVec.ofInt 32 (sext w x) = (BitVec.ofNat w x).signExtend 32 := by
  rw [sext_eq_toInt]
  rfl

theorem ofInt_nfrSubVal (n : Word) : BitVec.ofInt 32 (nfrSubVal n) =
    if n.getLsbD 4 then (n.extractLsb' 8 8).signExtend 32 else (n.extractLsb' 8 8).zeroExtend 32 := by
  cases h : n.getLsbD 4 with
  | true =>
    rw [nfrSubVal_signed h]
    rfl
  | false =>
    rw [nfrSubVal, show nfrSigned n = false from h, nfrSub]
    apply BitVec.eq_of_toNat_eq
    simp [Nat.shiftRight_eq_div_pow]
    omega

theorem poisonLane_int {n pc : Word} {f : Nat} (h6 : 6 ≤ f) (h14 : f ≠ 14) (l : Nat) : poisonLane n pc f l =
    if n.getLsbD 5 then (if n.getLsbD 4 then (n.extractLsb' 8 8).signExtend 32 else (n.extractLsb' 8 8).zeroExtend 32) else 0 := by
  have hflt : fmtIsFloat f = false := decide_eq_false (by omega)
  rw [poisonLane, hflt, if_neg Bool.false_ne_true, if_neg (by simpa using h14), ofInt_nfrSubVal]
  rfl

/-- A code read as two's complement: less 2^w where its top bit is 1. -/
theorem sext_of_lt {w code : Nat} (hw : 1 ≤ w) (h : code < 2 ^ w) :
    sext w code = if 2 ^ (w - 1) ≤ code then (code : Int) - 2 ^ w else code := by
  have hpow : 2 ^ w = 2 * 2 ^ (w - 1) := by rw [← Nat.pow_succ']; congr 1; omega
  rw [sext, Nat.mod_eq_of_lt h]
  exact if_congr (by omega) rfl rfl

/-- The value of a NARROW code. -/
theorem narrowVal_eq {n : Word} {w code : Nat} (hn : w = n.toNat % 16) (hw : 1 ≤ w) (h : code < 2 ^ w) : narrowVal n code =
    if n.getLsbD 4 = false then (code : Int)
    else if n.getLsbD 5 = true ∧ code = 2 ^ (w - 1) then (n.extractLsb' 8 8).toInt
    else if 2 ^ (w - 1) ≤ code then (code : Int) - 2 ^ w else code := by
  have hwidth : nfrWidth n = w := hn.symm
  rw [narrowVal, hwidth, nfrReserves, sext_of_lt hw h]
  cases h4 : n.getLsbD 4 with
  | false =>
    rw [show nfrSigned n = false from h4]
    rfl
  | true =>
    rw [nfrSubVal_signed h4, show nfrSigned n = true from h4]
    simp [nfrSubOn]

section
variable {n : Word} {f w code : Nat}

theorem elemLane_float (h2 : 2 ≤ f) (h5 : f ≤ 5) : elemLane n f code = widen (floatFmt f) code := by
  have hflt : fmtIsFloat f = true := decide_eq_true h5
  rw [elemLane, if_neg (by simp; omega), hflt, if_pos rfl]

theorem elemLane_int (h6 : 6 ≤ f) (h14 : f ≠ 14) : elemLane n f code = BitVec.ofInt 32 (intVal n f code) := by
  have hflt : fmtIsFloat f = false := decide_eq_false (by omega)
  rw [elemLane, if_neg (by simp; omega), hflt, if_neg Bool.false_ne_true]

end

/-! ### ExplicitLanes -/

/-- The lanes of row `r` of a tile load. -/
def TileReq.rowLanes (q : TileReq) (x : Span × List BlockVal) (r : Nat) : List Lane :=
  if q.fmt = 0 then coatRow q.nfr q.pc x.2 (x.1.va % 64) (64 * r) else explicitRow q.nfr q.pc q.fmt x.2 (x.1.va % 64) (64 * r)

/-- A tile's lane is that of its row. -/
theorem lane_tile_row {q : TileReq} {rows : List (Span × List BlockVal)} (hc : q.coats = false) (hf : q.fmt ≠ 12)
    (hlen : ∀ x ∈ rows, ∀ r, (q.rowLanes x r).length = 64) {r c : Nat} (h : c < 64) {x : Span × List BlockVal}
    (hx : rows[r]? = some x) : lane (q.tile rows) (64 * r + c) = (q.rowLanes x r).getD c 0 := by
  have htile : q.tile rows = rows.zipIdx.flatMap fun y => q.rowLanes y.1 y.2 := by
    rw [TileReq.tile, hc, if_neg Bool.false_ne_true, if_neg hf]
    rfl
  rw [htile, lane]
  refine getD_flatMap (n := 64) (fun y : (Span × List BlockVal) × Nat => q.rowLanes y.1 y.2) rows.zipIdx (fun y hy => ?_) 0 h (x, r)
    (by simp [hx])
  exact hlen _ (List.fst_mem_of_mem_zipIdx hy) _

theorem explicitLanes_holds : ExplicitLanes := by
  intro q rows w hcoats hw hrows r c sp bs b hr hc hsp hb code x sub
  obtain ⟨hlen, hrow⟩ := hrows
  have hfmt := fmtWidth_cases hw
  have h0 : q.fmt ≠ 0 := by omega
  have h12 : q.fmt ≠ 12 := by omega
  have hlanes (y : Span × List BlockVal) (r : Nat) : q.rowLanes y r = explicitRow q.nfr q.pc q.fmt y.2 (y.1.va % 64) (64 * r) := if_neg h0
  have hx : x = explicitLane q.nfr q.pc q.fmt b (8 * (sp.va % 64) + w * c % 512) (64 * r + c) := by
    show lane (q.tile rows) (64 * r + c) = _
    rw [lane_tile_row hcoats h12 (fun y hy r => ?_) hc hsp, hlanes, explicitRow_getD _ _ _ hw hc hb]
    rw [hlanes]
    exact length_explicitRow _ _ _ hw (rowOf_length (hrow y hy))
  have hbits := fmtWidth_bits hw
  have hlt : code < 2 ^ w := Nat.mod_lt _ (Nat.two_pow_pos w)
  have hcode : bitsOf b.data (8 * (sp.va % 64) + w * c % 512) (elemBits q.nfr q.fmt) = code := by rw [hbits]; rfl
  rw [hx, explicitLane, hcode]
  clear_value code x
  refine ⟨fun hp h5 => ?_, fun hp h14 => ?_, fun hp h6 h14 => ?_, fun hp hz => ?_, fun hp hz => ?_⟩
  · rw [if_pos hp, poisonLane, show fmtIsFloat q.fmt = true from decide_eq_true h5, if_pos rfl]
  · rw [if_pos hp, h14]
    rfl
  · rw [if_pos hp, poisonLane_int h6 h14]
  · rw [if_neg (by simp [hp]), if_pos (by simp [coatZero, hp, hz])]
  · rw [if_neg (by simp [hp]), if_neg (by simp [coatZero, hp, hz])]
    have hint (f : Nat) (h6 : 6 ≤ f) (h14 : f ≠ 14) (h : q.fmt = f) : elemLane q.nfr q.fmt code = BitVec.ofInt 32 (intVal q.nfr f code) :=
      h ▸ elemLane_int (h ▸ h6) (h ▸ h14)
    have hflt (f : Nat) (h2 : 2 ≤ f) (h5 : f ≤ 5) (h : q.fmt = f) : elemLane q.nfr q.fmt code = widen (floatFmt f) code :=
      h ▸ elemLane_float (h ▸ h2) (h ▸ h5)
    refine ⟨fun h => ?_, hflt 2 (by decide) (by decide), hflt 3 (by decide) (by decide), hflt 4 (by decide) (by decide),
      hflt 5 (by decide) (by decide), fun h => ?_, fun h => ?_, fun h => ?_, fun h => ?_, fun h => ?_⟩
    · rcases h with h | h | h
      · rw [h]; rfl
      · rw [h]; rfl
      · rw [hint 6 (by decide) (by decide) h, intVal, ofInt_sext, BitVec.signExtend_eq]
    · exact (hint 7 (by decide) (by decide) h).trans (ofInt_sext 16 code)
    · exact (hint 8 (by decide) (by decide) h).trans (ofInt_sext 8 code)
    · exact (hint 10 (by decide) (by decide) h).trans (ofInt_sext 4 code)
    · rcases h with h | h
      · rw [hint 9 (by decide) (by decide) h]
        exact BitVec.ofInt_natCast ..
      · rw [hint 11 (by decide) (by decide) h]
        exact BitVec.ofInt_natCast ..
    · have h13 : w = q.nfr.toNat % 16 ∧ 1 ≤ w := by omega
      rw [hint 13 (by decide) (by decide) h, intVal, narrowVal_eq h13.1 h13.2 hlt]
      simp only [apply_ite (BitVec.ofInt 32), BitVec.ofInt_natCast]
      rfl

/-! ### CoatedLanes -/

theorem length_coatRow {n pc : Word} {off lane : Nat} {x : Span × List BlockVal} {b : BlockVal} {l : List BlockVal} (hx : x.2 = b :: l)
    (hk : 1 ≤ coatCode b.coat ∧ coatCode b.coat ≤ 12 → ∃ w, FmtWidth n (codeFmt (coatCode b.coat)) w ∧ RowOf w x) :
    (coatRow n pc x.2 off lane).length = 64 := by
  by_cases h : 1 ≤ coatCode b.coat ∧ coatCode b.coat ≤ 12
  · obtain ⟨w, hw, hrow⟩ := hk h
    have hlen := rowOf_length hrow
    rw [hx] at hlen ⊢
    rw [coatRow_eq pc off lane h.1 h.2 hw, length_flatten_blocks
      (fun b' i => coatedLanes n pc (coatCode b.coat) b' (8 * off) (lane + elemsPer w * i) (elemsPer w))
      (fun _ _ => length_coatedLanes ..), hlen, elemsPer_mul (fmtWidth_width hw)]
  · rw [hx, coatRow_none pc off lane (by omega)]
    split <;> simp

section
variable {n : Word} {k w code : Nat} {e : Int}

/-- An element of a float CODE, scaled and rounded once. -/
theorem coatLane_float (f : FFmt) (h5 : k ≤ 5) (hf : floatFmt k = f) :
    (∀ neg m j, f.decode code = .fin neg m j → coatLane n k code e = rne32 neg m (j + e)) ∧
    (∀ neg, f.decode code = .inf neg → coatLane n k code e = if neg then 0xFF800000 else 0x7F800000) ∧
    (f.decode code = .nan → coatLane n k code e = quiet (widen f code)) := by
  have hcode : codeFmt k = k := if_neg (by simp; omega)
  have hflt : fmtIsFloat k = true := decide_eq_true h5
  subst hf
  unfold coatLane
  simp only [hcode, hflt, if_true]
  exact ⟨fun neg m j h => by rw [h], fun neg h => by rw [h], fun h => by rw [h]⟩

/-- One of an integer CODE. -/
theorem coatLane_int (f : Nat) (hf : codeFmt k = f) (h6 : 6 ≤ f) : coatLane n k code e = rneInt (intVal n f code) e := by
  have hflt : fmtIsFloat f = false := decide_eq_false (by omega)
  rw [coatLane, hf, hflt, if_neg Bool.false_ne_true]

theorem coatLane_signed (m : Nat) (hf : codeFmt k = k) (h6 : 6 ≤ k) (hv : intVal n k code = sext m code) (hm : 1 ≤ m) (hlt : code < 2 ^ m) :
    coatLane n k code e = rneInt (if 2 ^ (m - 1) ≤ code then (code : Int) - 2 ^ m else code) e := by
  rw [coatLane_int k hf h6, hv, sext_of_lt hm hlt]

/-- The lane of an element under COAT. -/
theorem coatLane_value (hw : FmtWidth n (codeFmt k) w) (hlt : code < 2 ^ w) (e : Int) : CoatValue n k w code e (coatLane n k code e) := by
  have hwidth (f m : Nat) (h : codeFmt k = f) (hm : FmtWidth n f w → w = m) : code < 2 ^ m := hm (h ▸ hw) ▸ hlt
  refine ⟨?_, ?_, ?_, ?_, ?_, ?_, ?_, ?_, ?_, ?_, ?_⟩
  · rintro rfl; exact coatLane_float fmtF32 (by decide) rfl
  · rintro rfl; exact coatLane_float fmtBF16 (by decide) rfl
  · rintro rfl; exact coatLane_float fmtF16 (by decide) rfl
  · rintro rfl; exact coatLane_float fmtE4M3 (by decide) rfl
  · rintro rfl; exact coatLane_float fmtE5M2 (by decide) rfl
  · rintro rfl
    exact coatLane_signed 32 rfl (by decide) rfl (by decide) (hwidth 6 32 rfl fun h => by have := fmtWidth_cases h; omega)
  · rintro rfl
    exact coatLane_signed 16 rfl (by decide) rfl (by decide) (hwidth 7 16 rfl fun h => by have := fmtWidth_cases h; omega)
  · rintro rfl
    exact coatLane_signed 8 rfl (by decide) rfl (by decide) (hwidth 8 8 rfl fun h => by have := fmtWidth_cases h; omega)
  · rintro rfl
    exact coatLane_signed 4 rfl (by decide) rfl (by decide) (hwidth 10 4 rfl fun h => by have := fmtWidth_cases h; omega)
  · rintro (rfl | rfl)
    · exact coatLane_int 9 rfl (by decide)
    · exact coatLane_int 11 rfl (by decide)
  · rintro rfl
    have h13 : w = n.toNat % 16 ∧ 1 ≤ w := by
      have := fmtWidth_cases (show FmtWidth n 13 w from hw)
      omega
    exact (coatLane_int 13 rfl (by decide)).trans (congrArg (rneInt · e) (narrowVal_eq h13.1 h13.2 hlt))

end

theorem coatedLanes_holds : CoatedLanes := by
  intro q rows hcoats hf hlen hrows r c sp b0 bs hr hc hsp x nan k
  have hlanes (y : Span × List BlockVal) (r : Nat) : q.rowLanes y r = coatRow q.nfr q.pc y.2 (y.1.va % 64) (64 * r) := if_pos hf
  have hx : x = (coatRow q.nfr q.pc (b0 :: bs) (sp.va % 64) (64 * r)).getD c 0 := by
    show lane (q.tile rows) (64 * r + c) = _
    rw [lane_tile_row hcoats (by omega) (fun y hy r => ?_) hc hsp, hlanes]
    obtain ⟨b, l, hb, hk, _⟩ := hrows y hy
    rw [hlanes]
    exact length_coatRow hb hk
  refine ⟨fun h => ?_, fun w b h1 h12 hw hb => ?_⟩
  · have hzero : (coatPoison b0.coat = false ∧ coatE b0.coat = -128) ↔ coatZero b0.coat = true := by simp [coatZero]
    rw [hx, coatRow_none _ _ _ h]
    by_cases hz : coatZero b0.coat = true
    · rw [if_pos hz, if_pos (hzero.2 hz)]
      exact List.getD_replicate _ hc
    · rw [if_neg hz, if_neg fun h => hz (hzero.1 h), getD_map_range _ _ hc]
  · intro code e
    have hlt : code < 2 ^ w := Nat.mod_lt _ (Nat.two_pow_pos w)
    have hcode : bitsOf b.data (8 * (sp.va % 64) + w * c % 512) (elemBits q.nfr (codeFmt (coatCode b0.coat))) = code := by
      rw [fmtWidth_bits hw]
      rfl
    rw [hx, coatRow_getD _ _ _ h1 h12 hw hc hb, coatedLane, hcode]
    clear_value code
    refine ⟨fun hp => if_pos hp, fun hp hz => ?_, fun hp hz hk => ?_, fun hk hz => ?_⟩
    · rw [if_neg (by simp [hp]), if_pos (by rw [coatZero, hp, show coatE b.coat = -128 from hz]; rfl)]
    · rw [if_neg (by simp [hp]), if_neg (by rw [coatZero, hp]; simpa using hz), if_pos (by simpa using hk)]
    · have hp : coatPoison b.coat = false := by
        have h12 : coatCode b.coat ≤ 12 := hk ▸ h12
        simp [coatPoison, codeAssigned, h12]
      rw [if_neg (by simp [hp]), if_neg (by rw [coatZero, hp]; simpa using hz), if_neg (by simpa using hk)]
      exact coatLane_value hw hlt e

end Sys2Proof.Machine
end

section
/-! O16, second part: the lanes of a PLANE load (R65, R73 to R75, R193). -/

namespace Sys2Proof.Machine
open Sys2Proof.Claims

/-! ### A code from its top planes (R73, R74) -/

/-- The code whose top `q` bits are given, the rest 0. -/
def topCode (b : Nat → Bool) (q : Nat) : Nat := ((List.range q).map fun i => if b i then 2 ^ (7 - i) else 0).sum

theorem topCode_succ (b : Nat → Bool) (q : Nat) : topCode b (q + 1) = topCode b q + if b q then 2 ^ (7 - q) else 0 := by
  simp [topCode, List.range_succ]

/-- The first plane is the top bit; the others lie below it, in steps of the last. -/
theorem topCode_eq (b : Nat → Bool) {q : Nat} (h1 : 1 ≤ q) (h8 : q ≤ 8) :
    ∃ k, k < 2 ^ (q - 1) ∧ topCode b q = (if b 0 then 128 else 0) + k * 2 ^ (8 - q) := by
  induction q, h1 using Nat.le_induction with
  | base => exact ⟨0, by decide, by simp [topCode]⟩
  | succ q h1 ih =>
    obtain ⟨k, hk, heq⟩ := ih (by omega)
    have hpow : 2 ^ (8 - q) = 2 * 2 ^ (8 - (q + 1)) := by rw [← Nat.pow_succ']; congr 1; omega
    have hpow' : 2 ^ (q + 1 - 1) = 2 * 2 ^ (q - 1) := by rw [← Nat.pow_succ']; congr 1; omega
    refine ⟨2 * k + (b q).toNat, ?_, ?_⟩
    · have : (b q).toNat ≤ 1 := Bool.toNat_le _
      omega
    · rw [topCode_succ, heq, hpow, show 7 - q = 8 - (q + 1) by omega]
      cases b q
      · simp only [Bool.false_eq_true, if_false, Bool.toNat_false]
        ring
      · simp only [if_true, Bool.toNat_true]
        ring

theorem topCode_lt (b : Nat → Bool) {q : Nat} (h1 : 1 ≤ q) (h8 : q ≤ 8) : topCode b q < (if b 0 then 128 else 0) + 128 := by
  obtain ⟨k, hk, heq⟩ := topCode_eq b h1 h8
  have hpow : 2 ^ (q - 1) * 2 ^ (8 - q) = 128 := by rw [← Nat.pow_add, show q - 1 + (8 - q) = 7 by omega]
  have := Nat.mul_lt_mul_of_pos_right hk (Nat.two_pow_pos (8 - q))
  omega

/-- Read as two's complement, the first plane counts -128. -/
theorem sext_topCode (b : Nat → Bool) {q : Nat} (h1 : 1 ≤ q) (h8 : q ≤ 8) :
    sext 8 (topCode b q) = topCode b q - if b 0 then 256 else 0 := by
  obtain ⟨k, hk, heq⟩ := topCode_eq b h1 h8
  have hlt := topCode_lt b h1 h8
  rw [sext_of_lt (by decide) (by split at hlt <;> omega)]
  cases h : b 0
  · rw [h] at hlt
    rw [if_neg (by simpa using hlt)]
    simp
  · rw [h] at heq
    rw [if_pos (by rw [heq]; simp)]
    rfl

/-- The reading of a code's top planes: the sum of its bits' weights, and half a step where it is centred. -/
theorem planeReading_topCode (uns cen : Bool) (b : Nat → Bool) {q : Nat} (h1 : 1 ≤ q) (h8 : q ≤ 8) :
    planeReading uns cen q (topCode b q) = (if cen = true ∧ q < 8 then (2 : Int) ^ (7 - q) else 0) +
      ((topCode b q : Int) - if uns = false ∧ b 0 = true then 256 else 0) := by
  have hs : (2 : Int) ^ (8 - q) ∣ (topCode b q : Int) - if uns = false ∧ b 0 = true then 256 else 0 := by
    obtain ⟨k, hk, heq⟩ := topCode_eq b h1 h8
    have h128 : (128 : Int) = 2 ^ (q - 1) * 2 ^ (8 - q) := by rw [← pow_add, show q - 1 + (8 - q) = 7 by omega]; rfl
    have hd : (2 : Int) ^ (8 - q) ∣ 128 := Dvd.intro_left _ h128.symm
    rw [heq]
    push_cast
    refine dvd_sub (dvd_add ?_ (Dvd.intro_left _ rfl)) ?_
    · split
      · exact hd
      · exact dvd_zero _
    · split
      · exact hd.trans ⟨2, rfl⟩
      · exact dvd_zero _
  have hv : (if uns then (topCode b q : Int) else sext 8 (topCode b q)) =
      (topCode b q : Int) - if uns = false ∧ b 0 = true then 256 else 0 := by
    rw [sext_topCode b h1 h8]
    cases uns <;> simp
  rw [planeReading, hv, Int.mul_ediv_cancel' hs]
  by_cases hc : cen = true ∧ q < 8
  · have hhalf : (2 : Int) ^ (8 - q) / 2 = 2 ^ (7 - q) := by
      rw [show 8 - q = 7 - q + 1 by omega, pow_succ, Int.mul_ediv_cancel _ (by decide)]
    rw [if_pos (by simpa using hc), if_pos hc, hhalf, add_comm]
  · rw [if_neg (by simpa using hc), if_neg hc, zero_add]

/-- The same sum with the first plane's weight in its place. -/
theorem topCode_weights (uns : Bool) (b : Nat → Bool) {q : Nat} (h1 : 1 ≤ q) :
    ((List.range q).map fun i => if b i then (if i = 0 ∧ uns = false then -128 else (2 : Int) ^ (7 - i)) else 0).sum =
      (topCode b q : Int) - if uns = false ∧ b 0 = true then 256 else 0 := by
  induction q, h1 using Nat.le_induction with
  | base => cases uns <;> cases h : b 0 <;> simp [topCode, h]
  | succ q h1 ih =>
    rw [topCode_succ, List.range_succ, List.map_append, List.sum_append, ih]
    have h0 : ¬ (q = 0 ∧ uns = false) := by omega
    simp only [List.map_cons, List.map_nil, List.sum_cons, List.sum_nil, h0, if_false, add_zero]
    push_cast
    ring

/-! ### One lane of a patch (R73, R75) -/

theorem zipIdx_map_range {α : Type} (f : Nat → α) (n : Nat) : ((List.range n).map f).zipIdx = (List.range n).map fun i => (f i, i) :=
  List.ext_getElem (by simp) fun i _ _ => by simp

theorem foldl_add {α : Type} (f : α → Nat) (l : List α) (a : Nat) : l.foldl (fun acc x => acc + f x) a = a + (l.map f).sum := by
  induction l generalizing a with
  | nil => rfl
  | cons x l ih => rw [List.foldl_cons, ih, List.map_cons, List.sum_cons, Nat.add_assoc]

section
variable {n : Word} {uns cen : Bool} {bs : Nat → BlockVal} {q r c : Nat}

/-- Plane `i` from the top has the CODE of its place. -/
def RightPlane (uns : Bool) (bs : Nat → BlockVal) (i : Nat) : Prop := coatCode (bs i).coat = (if uns then 0x20 else 0x10) + i

theorem rightPlane_not_poison (h8 : q ≤ 8) {i : Nat} (hi : i < q) (h : RightPlane uns bs i) : coatPoison (bs i).coat = false := by
  unfold RightPlane at h
  have : 0x10 ≤ coatCode (bs i).coat ∧ coatCode (bs i).coat ≤ 0x2F := by split at h <;> omega
  simp [coatPoison, codeAssigned, this]

theorem rightPlane_zero (h8 : q ≤ 8) {i : Nat} (hi : i < q) (h : RightPlane uns bs i) :
    coatZero (bs i).coat = decide (coatE (bs i).coat = -128) := by
  rw [coatZero, rightPlane_not_poison h8 hi h]
  rfl

/-- A lane with a plane that is not its place's is poisoned. -/
theorem planeLane_bad (h8 : q ≤ 8) : ((List.range q).map bs).zipIdx.any (fun x => coatPoison x.1.coat || coatCode x.1.coat !=
    patchCode uns (7 - x.2)) = true ↔ ∃ i, i < q ∧ ¬ RightPlane uns bs i := by
  rw [zipIdx_map_range, List.any_map, List.any_eq_true]
  simp only [List.mem_range, Function.comp_apply, Bool.or_eq_true, bne_iff_ne]
  refine exists_congr fun i => and_congr_right fun hi => ?_
  have hcode : patchCode uns (7 - i) = (if uns then 0x20 else 0x10) + i := by rw [patchCode]; omega
  rw [hcode]
  constructor
  · rintro (h | h) hright
    · rw [rightPlane_not_poison h8 hi hright] at h
      cases h
    · exact h hright
  · exact fun h => .inr h

theorem planeLane_poison (h8 : q ≤ 8) (h : ∃ i, i < q ∧ ¬ RightPlane uns bs i) : planeLane n uns cen ((List.range q).map bs) r c =
    if n.getLsbD 5 then (if n.getLsbD 4 then (n.extractLsb' 8 8).signExtend 32 else (n.extractLsb' 8 8).zeroExtend 32) else 0 := by
  have hbad := (planeLane_bad (uns := uns) h8).2 h
  unfold planeLane
  dsimp only
  rw [if_pos hbad, ofInt_nfrSubVal]
  rfl

theorem planeLane_zeros (h8 : q ≤ 8) (h : ∀ i, i < q → RightPlane uns bs i) (hz : ∀ i, i < q → coatE (bs i).coat = -128) :
    planeLane n uns cen ((List.range q).map bs) r c = 0 := by
  have hbad := mt (planeLane_bad (uns := uns) h8).1 fun ⟨i, hi, h'⟩ => h' (h i hi)
  have hall : (((List.range q).map bs).all fun b => coatZero b.coat) = true := by
    rw [List.all_map, List.all_eq_true]
    exact fun i hi => (rightPlane_zero h8 (List.mem_range.1 hi) (h i (List.mem_range.1 hi))).trans (decide_eq_true (hz i (List.mem_range.1 hi)))
  unfold planeLane
  dsimp only
  rw [if_neg hbad, if_pos hall]

/-- The bit that plane `i` gives to an element. -/
def planeBit (bs : Nat → BlockVal) (r c i : Nat) : Bool :=
  decide (coatE (bs i).coat ≠ -128) && (bs i).data.testBit (8 * (8 * (r % 8) + c / 8) + c % 8)

theorem planeLane_live (h8 : q ≤ 8) (h : ∀ i, i < q → RightPlane uns bs i) (hl : ∃ i, i < q ∧ coatE (bs i).coat ≠ -128) :
    planeLane n uns cen ((List.range q).map bs) r c =
      BitVec.ofInt 32 (planeReading uns cen q (topCode (planeBit bs r c) q)) := by
  have hbad := mt (planeLane_bad (uns := uns) h8).1 fun ⟨i, hi, h'⟩ => h' (h i hi)
  have hall : ¬ (((List.range q).map bs).all fun b => coatZero b.coat) = true := by
    obtain ⟨i, hi, hne⟩ := hl
    rw [List.all_map, List.all_eq_true]
    intro h'
    have := (rightPlane_zero h8 hi (h i hi)).symm.trans (h' i (List.mem_range.2 hi))
    exact hne (of_decide_eq_true this)
  have hcode : ((List.range q).map bs).zipIdx.foldl
      (fun acc x => acc + (if coatZero x.1.coat then 0 else patchBit x.1.data r c) * 2 ^ (7 - x.2)) 0 = topCode (planeBit bs r c) q := by
    rw [foldl_add (fun x : BlockVal × Nat => (if coatZero x.1.coat then 0 else patchBit x.1.data r c) * 2 ^ (7 - x.2)), zipIdx_map_range,
      List.map_map, Nat.zero_add, topCode]
    congr 1
    refine List.map_congr_left fun i hi => ?_
    have hi := List.mem_range.1 hi
    show (if coatZero (bs i).coat then 0 else patchBit (bs i).data r c) * 2 ^ (7 - i) = _
    rw [rightPlane_zero h8 hi (h i hi), patchBit, bitsOf_one, planeBit, show (r % 8 * 8 + c / 8) * 8 + c % 8 = 8 * (8 * (r % 8) + c / 8) + c % 8 by ring]
    by_cases hz : coatE (bs i).coat = -128
    · simp [hz]
    · cases (bs i).data.testBit (8 * (8 * (r % 8) + c / 8) + c % 8) <;> simp [hz]
  unfold planeLane
  dsimp only
  rw [if_neg hbad, if_neg hall, List.length_map, List.length_range]
  exact congrArg (fun k => BitVec.ofInt 32 (planeReading uns cen q k)) hcode

end

/-! ### PlaneLanes -/

/-- The blocks of the planes of a patch, the top one first. -/
theorem patch_blocks {rows : List (Span × List BlockVal)} {bs : Nat → BlockVal} {q p : Nat}
    (h : ∀ i, i < q → ∃ sp, rows[p * q + i]? = some (sp, [bs i])) :
    ((rows.drop (p * q)).take q).flatMap Prod.snd = (List.range q).map bs := by
  have hsnd : ((rows.drop (p * q)).take q).map Prod.snd = (List.range q).map fun i => [bs i] := by
    refine List.ext_getElem? fun i => ?_
    by_cases hi : i < q
    · obtain ⟨sp, hsp⟩ := h i hi
      simp [hi, hsp]
    · simp [hi]
  rw [List.flatMap_def, hsnd, ← List.flatMap_def]
  exact List.map_eq_flatMap.symm

theorem planeLanes_holds : PlaneLanes := by
  intro q rows planes uns hcoats hfmt hpq hlen hone r c hr hc x bs hbs right bit
  obtain ⟨h1, h8, _⟩ := hpq
  have hx : x = planeLane q.nfr uns (q.pq.getLsbD 4) ((List.range planes).map bs) (r % 8) c := by
    have htile : q.tile rows = [0, 1].flatMap fun p => (List.range 512).map fun i => planeLane q.nfr (pqUns q.pq) (pqCen q.pq)
        (((rows.drop (p * pqQ q.pq)).take (pqQ q.pq)).flatMap Prod.snd) (i / 64) (i % 64) := by
      rw [TileReq.tile, hcoats, if_neg Bool.false_ne_true, if_pos hfmt]
    have hpatch : [0, 1][r / 8]? = some (r / 8) := by
      have : r / 8 = 0 ∨ r / 8 = 1 := by omega
      rcases this with h | h <;> rw [h] <;> rfl
    have hi : 64 * (r % 8) + c < 512 := by omega
    show lane (q.tile rows) (64 * r + c) = _
    rw [htile, lane, show 64 * r + c = 512 * (r / 8) + (64 * (r % 8) + c) by omega,
      getD_flatMap (n := 512) _ _ (by simp) 0 hi (r / 8) hpatch, getD_map_range _ _ hi, show pqQ q.pq = planes from rfl, patch_blocks hbs,
      show (64 * (r % 8) + c) / 64 = r % 8 by omega, show (64 * (r % 8) + c) % 64 = c by omega]
    rfl
  have hbit : planeBit bs (r % 8) c = bit := by
    funext i
    simp only [planeBit, Nat.mod_mod]
    rfl
  refine ⟨fun h => hx.trans (planeLane_poison h8 h), fun h => hx.trans (planeLane_zeros h8 (fun i hi => (h i hi).1) fun i hi => (h i hi).2),
    fun h hl => ?_⟩
  rw [hx, planeLane_live h8 h hl, planeReading_topCode _ _ _ h1 h8, hbit, ← topCode_weights _ _ h1]

end Sys2Proof.Machine
end

section
/-! O16, third part: scales and codes that a store chooses (R57, R69 to R71). -/

namespace Sys2Proof.Machine
open Sys2Proof.Claims

/-! ### Narrow floats fit their width (R56, R69) -/

section
variable {f : FFmt} {m : Nat} {e : Int}

theorem pow_eb (h : 1 ≤ f.eb) : 2 ^ f.eb = 2 * f.bias + 2 := by
  have hpow : 2 ^ f.eb = 2 * 2 ^ (f.eb - 1) := by rw [← Nat.pow_succ']; congr 1; omega
  have hpos := Nat.two_pow_pos (f.eb - 1)
  rw [hpow, FFmt.bias]
  omega

theorem infBits_lt : f.infBits < 2 ^ (f.eb + f.fb) := by
  rw [FFmt.infBits, Nat.pow_add]
  exact Nat.mul_lt_mul_of_pos_right (Nat.sub_lt (Nat.two_pow_pos _) Nat.one_pos) (Nat.two_pow_pos _)

theorem maxBits_lt : f.maxBits < 2 ^ (f.eb + f.fb) := by
  have := infBits_lt (f := f)
  have := Nat.two_pow_pos (f.eb + f.fb)
  unfold FFmt.maxBits
  split <;> omega

theorem overBits_lt : f.overBits < 2 ^ (f.eb + f.fb) := by
  unfold FFmt.overBits
  split
  · exact maxBits_lt
  · exact infBits_lt

/-- A subnormal magnitude lies below the first normal one. -/
theorem subnormal_lt (he : f.qmin ≤ e) (hex : e + m.log2 < f.emin) : m * 2 ^ (e - f.qmin).toNat < 2 ^ f.fb := by
  have hq : f.qmin = f.emin - f.fb := rfl
  calc m * 2 ^ (e - f.qmin).toNat < 2 ^ (m.log2 + 1) * 2 ^ (e - f.qmin).toNat :=
        Nat.mul_lt_mul_of_pos_right Nat.lt_log2_self (Nat.two_pow_pos _)
    _ = 2 ^ (m.log2 + 1 + (e - f.qmin).toNat) := (Nat.pow_add ..).symm
    _ ≤ 2 ^ f.fb := Nat.pow_le_pow_right (by decide) (by omega)

/-- A mantissa has one bit more than the fraction. -/
theorem mantissa_lt : (if m.log2 ≤ f.fb then m <<< (f.fb - m.log2) else m >>> (m.log2 - f.fb)) < 2 ^ (f.fb + 1) := by
  have hm : m < 2 ^ (m.log2 + 1) := Nat.lt_log2_self
  split
  · rw [Nat.shiftLeft_eq]
    calc m * 2 ^ (f.fb - m.log2) < 2 ^ (m.log2 + 1) * 2 ^ (f.fb - m.log2) := Nat.mul_lt_mul_of_pos_right hm (Nat.two_pow_pos _)
      _ = 2 ^ (f.fb + 1) := by rw [← Nat.pow_add]; congr 1; omega
  · rw [Nat.shiftRight_eq_div_pow, Nat.div_lt_iff_lt_mul (Nat.two_pow_pos _), ← Nat.pow_add]
    exact hm.trans_le (Nat.pow_le_pow_right (by decide) (by omega))

/-- A packed magnitude leaves the sign bit free. -/
theorem pack_lt (heb : 1 ≤ f.eb) (he : f.qmin ≤ e) {big : Nat} (hbig : big < 2 ^ (f.eb + f.fb)) :
    f.pack false m e big < 2 ^ (f.eb + f.fb) := by
  have hpow : 2 ^ (f.eb + f.fb) = (2 * f.bias + 2) * 2 ^ f.fb := by rw [Nat.pow_add, pow_eb heb]
  have hle : 2 ^ f.fb ≤ 2 ^ (f.eb + f.fb) := Nat.pow_le_pow_right (by decide) (by omega)
  have hmant := mantissa_lt (f := f) (m := m)
  have htop : (if f.ieee then (f.bias : Int) else f.bias + 1) ≤ f.bias + 1 := by split <;> omega
  unfold FFmt.pack
  simp only [Bool.false_eq_true, if_false, Nat.zero_add]
  generalize (if m.log2 ≤ f.fb then m <<< (f.fb - m.log2) else m >>> (m.log2 - f.fb)) = mant at hmant ⊢
  generalize (if f.ieee then (f.bias : Int) else f.bias + 1) = top at htop ⊢
  by_cases hm : m = 0
  · rw [if_pos hm]
    exact Nat.two_pow_pos _
  rw [if_neg hm]
  by_cases hex : top < e + m.log2
  · rwa [if_pos hex]
  rw [if_neg hex]
  by_cases hsub : e + m.log2 < f.emin
  · rw [if_pos hsub]
    exact (subnormal_lt he hsub).trans_le hle
  · rw [if_neg hsub]
    have hfield : (e + m.log2 + f.bias).toNat * 2 ^ f.fb ≤ (2 * f.bias + 1) * 2 ^ f.fb := Nat.mul_le_mul_right _ (by omega)
    have hdist : (2 * f.bias + 2) * 2 ^ f.fb = (2 * f.bias + 1) * 2 ^ f.fb + 2 ^ f.fb := by ring
    rw [Nat.pow_succ] at hmant
    omega

theorem roundMag_exp (p : Nat) (q : Int) : q ≤ (roundMag false p q m e).2 := by
  unfold roundMag
  dsimp only
  generalize (if m = 0 then (0 : Int) else m.log2 + 1) = len
  have hk : q - e ≤ max (len - p) (q - e) := le_max_right _ _
  generalize max (len - p) (q - e) = k at hk ⊢
  by_cases h0 : k ≤ 0
  · rw [if_pos h0]
    dsimp only
    omega
  rw [if_neg h0]
  split <;> (dsimp only; omega)

theorem round_lt (heb : 1 ≤ f.eb) (neg : Bool) : f.round neg m e < 2 ^ (f.eb + f.fb + 1) := by
  have hpack := pack_lt (m := (roundMag false (f.fb + 1) f.qmin m e).1) heb (roundMag_exp (m := m) (e := e) (f.fb + 1) f.qmin)
    (overBits_lt (f := f))
  have hmax := maxBits_lt (f := f)
  rw [Nat.pow_succ]
  unfold FFmt.round
  dsimp only
  have hcap : (if (decide (f.eb + f.fb < 8) && decide (f.maxBits < f.pack false (roundMag false (f.fb + 1) f.qmin m e).1
      (roundMag false (f.fb + 1) f.qmin m e).2 f.overBits)) = true then f.maxBits else f.pack false
      (roundMag false (f.fb + 1) f.qmin m e).1 (roundMag false (f.fb + 1) f.qmin m e).2 f.overBits) < 2 ^ (f.eb + f.fb) := by
    split
    · exact hmax
    · exact hpack
  cases neg <;> simp only [Bool.false_eq_true, if_false, if_true] <;> omega

theorem nanBits_lt (hfb : 1 ≤ f.fb) (h8 : f.eb + f.fb < 8 → f.eb + f.fb = 7) (x : Lane) (hfb' : f.fb ≤ 23) :
    f.nanBits x < 2 ^ (f.eb + f.fb + 1) := by
  unfold FFmt.nanBits
  split
  · rename_i h
    rw [h8 h]
    split <;> decide
  · have hneg : x.toNat / 2 ^ 31 ≤ 1 := by omega
    have hfr : x.toNat % 2 ^ 23 / 2 ^ (23 - f.fb) < 2 ^ f.fb := by
      rw [Nat.div_lt_iff_lt_mul (Nat.two_pow_pos _), ← Nat.pow_add, show f.fb + (23 - f.fb) = 23 by omega]
      exact Nat.mod_lt _ (by decide)
    have hor : (x.toNat % 2 ^ 23 / 2 ^ (23 - f.fb) ||| 2 ^ (f.fb - 1)) < 2 ^ f.fb :=
      Nat.or_lt_two_pow hfr (Nat.pow_lt_pow_right (by decide) (by omega))
    have hinf : f.infBits + 2 ^ f.fb = 2 ^ (f.eb + f.fb) := by
      rw [FFmt.infBits, Nat.pow_add, ← Nat.succ_mul, Nat.succ_eq_add_one, Nat.sub_add_cancel (Nat.two_pow_pos _)]
    have hmul : x.toNat / 2 ^ 31 * 2 ^ (f.eb + f.fb) ≤ 1 * 2 ^ (f.eb + f.fb) := Nat.mul_le_mul_right _ hneg
    have hsum : 2 ^ (f.eb + f.fb + 1) = 2 * 2 ^ (f.eb + f.fb) := Nat.pow_succ'
    rw [hsum]
    dsimp only
    omega

/-- A lane stored to a narrow format has the format's bits. -/
theorem narrow_lt (heb : 1 ≤ f.eb) (hfb : 1 ≤ f.fb) (hfb' : f.fb ≤ 23) (h8 : f.eb + f.fb < 8 → f.eb + f.fb = 7) (x : Lane) (s : Int) :
    narrow f x s < 2 ^ (f.eb + f.fb + 1) := by
  have hover := overBits_lt (f := f)
  unfold narrow
  split
  · exact nanBits_lt hfb h8 x hfb'
  · rw [Nat.pow_succ]
    split <;> omega
  · exact round_lt heb _

end

/-! ### Rounding to integers (R57, R69, R71) -/

theorem nearestEven_not_lt {x v w : Int} {e : Nat} (hv : NearestEven x e v) (hw : NearestEven x e w) : ¬ v < w := by
  intro h
  obtain ⟨hv1, hv2⟩ := hv
  obtain ⟨hw1, hw2⟩ := hw
  have hpos : (0 : Int) < 2 ^ e := by positivity
  generalize (2 : Int) ^ e = p at *
  have hle := le_abs_self (x - v * p)
  have hge := neg_abs_le (x - w * p)
  have hstep : (w - v) * p ≤ p := by nlinarith
  have hone : w - v = 1 := by nlinarith
  obtain rfl : w = v + 1 := by omega
  have hsum : (v + 1) * p = v * p + p := by ring
  have h1 := hv2 (by omega)
  have h2 := hw2 (by omega)
  omega

theorem nearestEven_unique {x v w : Int} {e : Nat} (hv : NearestEven x e v) (hw : NearestEven x e w) : v = w :=
  le_antisymm (not_lt.1 (nearestEven_not_lt hw hv)) (not_lt.1 (nearestEven_not_lt hv hw))

/-- The value of an integer lane over 2^e, as a store rounds it. -/
def rndLane (x : Lane) (e : Int) : Int := toInt false x.msb x.toInt.natAbs (0 - e)

theorem toInt_eq_natAbs (x : Lane) : x.toInt = if x.msb then -(x.toInt.natAbs : Int) else x.toInt.natAbs := by
  have h : x.msb = true ↔ x.toInt < 0 := by rw [BitVec.msb_eq_toInt]; exact decide_eq_true_iff
  split
  · rename_i hm
    have := h.1 hm
    omega
  · rename_i hm
    have : ¬ x.toInt < 0 := fun h' => hm (h.2 h')
    omega

theorem rndLane_nearestEven (x : Lane) (e : Nat) : NearestEven x.toInt e (rndLane x e) := by
  have hmag : NearestEven (x.toInt.natAbs : Int) e
      ((if 0 ≤ (0 - e : Int) then x.toInt.natAbs <<< (0 - e : Int).toNat
        else if (x.toInt.natAbs.log2 : Int) + 2 < -(0 - e : Int) then 0
        else shrRne x.toInt.natAbs (-(0 - e : Int)).toNat : Nat) : Int) := by
    split
    · obtain rfl : e = 0 := by omega
      exact nearestEven_self _
    · split
      · rename_i h
        have hlt : x.toInt.natAbs < 2 ^ (x.toInt.natAbs.log2 + 1) := Nat.lt_log2_self
        have hle : 2 ^ (x.toInt.natAbs.log2 + 2) ≤ 2 ^ e := Nat.pow_le_pow_right (by decide) (by omega)
        exact nearestEven_zero (by rw [Nat.pow_succ] at hle; omega)
      · rw [show (-(0 - e : Int)).toNat = e by omega]
        exact shrRne_nearestEven _ _
  have hval := toInt_eq_natAbs x
  unfold rndLane toInt
  simp only [Bool.false_eq_true, if_false]
  generalize (if 0 ≤ (0 - e : Int) then x.toInt.natAbs <<< (0 - e : Int).toNat
    else if (x.toInt.natAbs.log2 : Int) + 2 < -(0 - e : Int) then 0 else shrRne x.toInt.natAbs (-(0 - e : Int)).toNat) = v at hmag ⊢
  cases hm : x.msb with
  | false =>
    rw [hm] at hval
    exact hval ▸ hmag
  | true =>
    rw [hm] at hval
    exact hval ▸ NearestEven.neg hmag

/-- At a negative scale only a zero is stored. -/
theorem rndLane_zero (e : Int) : rndLane 0 e = 0 := by
  simp [rndLane, toInt, shrRne]

theorem sat_eq {x lo hi : Int} (h : lo ≤ hi) : sat x lo hi = max lo (min hi x) := by
  unfold sat
  split
  · omega
  · split <;> omega

/-! ### The scale of a store (R71) -/

/-- A lane fits an integer target at scale `g`, as the model asks it. -/
theorem fitsAt_int {lo hi : Int} {bits : Nat} (x : Lane) {g : Int} (hg : 0 ≤ g) :
    fitsAt (.int lo hi bits) g (laneVal false x) = true ↔
      (lo = 0 ∧ 0 < hi ∧ x.toInt < 0) ∨ ∃ v, NearestEven x.toInt g.toNat v ∧ lo ≤ v ∧ v ≤ hi := by
  have hneg : x.msb = true ↔ x.toInt < 0 := by rw [BitVec.msb_eq_toInt]; exact decide_eq_true_iff
  have hnear := rndLane_nearestEven x g.toNat
  rw [Int.toNat_of_nonneg hg] at hnear
  have hfits : fitsAt (.int lo hi bits) g (laneVal false x) =
      if (x.msb && decide (lo = 0 ∧ 0 < hi)) = true then true else decide (lo ≤ rndLane x g) && decide (rndLane x g ≤ hi) := rfl
  have hex : (∃ v, NearestEven x.toInt g.toNat v ∧ lo ≤ v ∧ v ≤ hi) ↔ lo ≤ rndLane x g ∧ rndLane x g ≤ hi :=
    ⟨fun ⟨v, hv, h⟩ => nearestEven_unique hv hnear ▸ h, fun h => ⟨_, hnear, h⟩⟩
  rw [hfits, hex, ← hneg]
  by_cases h : (x.msb && decide (lo = 0 ∧ 0 < hi)) = true
  · rw [if_pos h]
    simp only [Bool.and_eq_true, decide_eq_true_eq] at h
    exact iff_of_true rfl (.inl ⟨h.2.1, h.2.2, h.1⟩)
  · rw [if_neg h, Bool.and_eq_true, decide_eq_true_eq, decide_eq_true_eq]
    refine (or_iff_right fun h' => h ?_).symm
    simp [h'.1, h'.2.1, h'.2.2]

/-- The least scale that a target may take. -/
def Target.least : Target → Int
  | .flt _ => -127
  | .int _ _ _ => 0

theorem coatScale_eq (t : Target) (vals : List Fv) : coatScale t vals = if vals.all Fv.isZero then -128 else
    match (List.range (127 - t.least + 1).toNat).find? fun (i : Nat) => vals.all (fitsAt t (t.least + (i : Int))) with
    | some i => t.least + (i : Int)
    | none => 127 := by
  cases t <;> rfl

/-- The scale is -128 where all lanes are zero, and else the least at which they fit. -/
theorem coatScale_is (t : Target) (vals : List Fv) {fits : Int → Prop} {zero : Prop} (hz : vals.all Fv.isZero = true ↔ zero)
    (hf : ∀ g, t.least ≤ g → (vals.all (fitsAt t g) = true ↔ fits g)) : ScaleIs t.least fits zero (coatScale t vals) := by
  have hleast : t.least ≤ 0 := by cases t <;> simp [Target.least]
  rw [coatScale_eq]
  by_cases h : zero
  · rw [if_pos (hz.2 h)]
    exact ⟨fun _ => rfl, fun h' => absurd h h'⟩
  · rw [if_neg fun h' => h (hz.1 h')]
    refine ⟨fun h' => absurd h' h, fun _ => ?_⟩
    cases hfind : (List.range (127 - t.least + 1).toNat).find? fun (i : Nat) => vals.all (fitsAt t (t.least + (i : Int))) with
    | some i =>
      obtain ⟨hi, hlt, hbefore⟩ := List.find?_range_eq_some.1 hfind
      have hlt : (i : Int) < 127 - t.least + 1 := by
        have := List.mem_range.1 hlt
        omega
      change t.least ≤ t.least + (i : Int) ∧ t.least + (i : Int) ≤ 127 ∧ (∀ g, t.least ≤ g → g < t.least + (i : Int) → ¬ fits g) ∧ _
      refine ⟨by omega, by omega, fun g hg hge hfit => ?_, .inl ((hf (t.least + (i : Int)) (by omega)).1 hi)⟩
      have hnot := hbefore (g - t.least).toNat (by omega)
      rw [show t.least + ((g - t.least).toNat : Int) = g by omega, (hf g hg).2 hfit] at hnot
      cases hnot
    | none =>
      refine ⟨by dsimp only; omega, le_refl _, fun g hg hge hfit => ?_, .inr rfl⟩
      have hnot := List.find?_eq_none.1 hfind (g - t.least).toNat (List.mem_range.2 (by dsimp only at hge; omega))
      rw [show t.least + ((g - t.least).toNat : Int) = g by omega] at hnot
      exact hnot ((hf g hg).2 hfit)

/-- A float lane is zero where both its fields are. -/
theorem isZero_fv (x : Lane) : (fv x).isZero = true ↔ x = 0 ∨ x = 0x80000000 := by
  have hx : x = 0 ∨ x = 0x80000000 ↔ x.toNat / 2 ^ 23 % 256 = 0 ∧ x.toNat % 2 ^ 23 = 0 := by
    rw [← BitVec.toNat_inj, ← BitVec.toNat_inj]
    have hlt := x.isLt
    show x.toNat = 0 ∨ x.toNat = 2147483648 ↔ _
    omega
  rw [hx, fv_eq, f32Value]
  generalize x.toNat / 2 ^ 23 % 256 = ex
  generalize x.toNat % 2 ^ 23 = fr
  by_cases h255 : ex = 255
  · rw [if_pos h255]
    split <;> simp [Fv.isZero, h255]
  rw [if_neg h255]
  by_cases h0 : ex = 0
  · simp [Fv.isZero, h0]
  · simp [Fv.isZero, h0]

theorem isZero_laneVal (x : Lane) : (laneVal false x).isZero = true ↔ x = 0 := by
  show (x.toInt.natAbs == 0) = true ↔ _
  rw [beq_iff_eq, Int.natAbs_eq_zero]
  exact ⟨fun h => BitVec.eq_of_toInt_eq h, fun h => by rw [h]; rfl⟩

/-! ### The stored code of a lane (R71) -/

/-- The code of an integer lane: its rounded value, saturated, in the target's bits. -/
theorem storeCode_int {lo hi : Int} {bits : Nat} (h : lo ≤ hi) (e : Int) (x : Lane) :
    (storeCode (.int lo hi bits) e false x : Int) = (max lo (min hi (rndLane x e))) % 2 ^ bits := by
  have hcode : storeCode (.int lo hi bits) e false x = (sat (rndLane x e) lo hi % (2 ^ bits : Int)).toNat := rfl
  rw [hcode, sat_eq h, Int.toNat_of_nonneg (Int.emod_nonneg _ (by positivity))]

theorem storeCode_int_lt {lo hi : Int} {bits : Nat} (h : lo ≤ hi) (e : Int) (x : Lane) : storeCode (.int lo hi bits) e false x < 2 ^ bits := by
  have h1 := storeCode_int (bits := bits) h e x
  have h2 : (max lo (min hi (rndLane x e))) % 2 ^ bits < 2 ^ bits := Int.emod_lt_of_pos _ (by positivity)
  have h3 : (storeCode (.int lo hi bits) e false x : Int) < ((2 ^ bits : Nat) : Int) := by rw [h1]; exact_mod_cast h2
  exact_mod_cast h3

end Sys2Proof.Machine
end

section
/-! O16, fourth part: the blocks that tile stores write (R70 to R75, R194). -/

namespace Sys2Proof.Machine
open Sys2Proof.Claims

/-! ### Lists -/

/-- An element of rows of `n` laid one after the other, where it lies. -/
theorem getElem?_flatMap {α β : Type} (f : α → List β) {n : Nat} (l : List α) (hf : ∀ a ∈ l, (f a).length = n)
    {k c : Nat} (hc : c < n) {a : α} (hk : l[k]? = some a) : (l.flatMap f)[n * k + c]? = (f a)[c]? := by
  induction l generalizing k with
  | nil => simp at hk
  | cons x xs ih =>
    have hx : (f x).length = n := hf x (by simp)
    rw [List.flatMap_cons]
    cases k with
    | zero =>
      obtain rfl : x = a := by simpa using hk
      rw [Nat.mul_zero, Nat.zero_add, List.getElem?_append_left (by omega)]
    | succ k =>
      rw [List.getElem?_append_right (by rw [hx, Nat.mul_succ]; omega), hx, show n * (k + 1) + c - n = n * k + c by rw [Nat.mul_succ]; omega]
      exact ih (fun y hy => hf y (by simp [hy])) (by simpa using hk)

theorem flatMap_range_map {α : Type} (f : Nat → α) (m n : Nat) :
    ((List.range m).flatMap fun r => (List.range n).map fun c => f (n * r + c)) = (List.range (n * m)).map f := by
  induction m with
  | zero => rfl
  | succ m ih => rw [List.range_succ, List.flatMap_append, ih, Nat.mul_succ, List.range_add, List.map_append, List.map_map]; simp

theorem getD_map_map_range {α : Type} (g : Nat → α) (f : α → Nat) {n k : Nat} (h : k < n) : (((List.range n).map g).map f).getD k 0 = f (g k) := by
  rw [List.map_map, getD_map_range _ _ h]
  rfl

theorem range_slice {α : Type} (f : Nat → α) {n m k : Nat} (h : k + m ≤ n) :
    (((List.range n).map f).drop k).take m = (List.range m).map fun j => f (k + j) := by
  refine List.ext_getElem (by simp; omega) fun i _ _ => ?_
  simp

/-! ### Codes of a block (R71) -/

section
variable {n : Word} {uns : Bool} {f w per : Nat} {x : Nat → Lane} {lo hi e : Int} {bits j : Nat}

/-- The target of a scaled integer format. -/
theorem storeTarget_int (hw : FmtWidth n f w) (h : IntRange n f w lo hi) :
    storeTarget n uns f = .int lo hi w ∧ fmtIsFloat f = false ∧ lo ≤ hi := by
  have hw := fmtWidth_cases hw
  rcases h with ⟨rfl, rfl, rfl⟩ | ⟨rfl, rfl, rfl⟩ | ⟨rfl, rfl, rfl⟩ | ⟨rfl, rfl, rfl⟩ | ⟨rfl, rfl, rfl⟩ | ⟨rfl, hr⟩
  · obtain rfl : w = 16 := by omega
    exact ⟨rfl, rfl, by decide⟩
  · obtain rfl : w = 8 := by omega
    exact ⟨rfl, rfl, by decide⟩
  · obtain rfl : w = 8 := by omega
    exact ⟨rfl, rfl, by decide⟩
  · obtain rfl : w = 4 := by omega
    exact ⟨rfl, rfl, by decide⟩
  · obtain rfl : w = 4 := by omega
    exact ⟨rfl, rfl, by decide⟩
  · obtain ⟨hn, h1⟩ : nfrWidth n = w ∧ 1 ≤ w := by rw [nfrWidth]; omega
    have hpos : (1 : Int) ≤ 2 ^ (w - 1) := by exact_mod_cast Nat.two_pow_pos (w - 1)
    have hpos' : (1 : Int) ≤ 2 ^ w := by exact_mod_cast Nat.two_pow_pos w
    have hrange : narrowRange n = (lo, hi) ∧ lo ≤ hi := by
      unfold narrowRange nfrSigned nfrSubOn
      rw [hn]
      by_cases hs : n.getLsbD 4 = true
      · rw [if_pos hs] at hr ⊢
        obtain ⟨rfl, rfl⟩ := hr
        exact ⟨rfl, by split <;> omega⟩
      · rw [if_neg hs] at hr ⊢
        obtain ⟨rfl, rfl⟩ := hr
        exact ⟨rfl, by omega⟩
    have htgt : storeTarget n uns 13 = .int (narrowRange n).1 (narrowRange n).2 (nfrWidth n) := rfl
    rw [htgt, hrange.1, hn]
    exact ⟨rfl, rfl, hrange.2⟩

/-- The scale of a block of integer lanes. -/
theorem scaleIs_int : ScaleIs 0 (fun g => ∀ j, j < per → (lo = 0 ∧ 0 < hi ∧ (x j).toInt < 0) ∨
      ∃ v, NearestEven (x j).toInt g.toNat v ∧ lo ≤ v ∧ v ≤ hi) (∀ j, j < per → x j = 0)
    (coatScale (.int lo hi bits) (((List.range per).map x).map (laneVal false))) := by
  refine coatScale_is (.int lo hi bits) _ ?_ fun g hg => ?_
  · rw [List.map_map, List.all_map, List.all_eq_true]
    exact forall_congr' fun j => imp_congr List.mem_range (isZero_laneVal _)
  · rw [List.map_map, List.all_map, List.all_eq_true]
    exact forall_congr' fun j => imp_congr List.mem_range (fitsAt_int _ hg)

/-- The scale of a block of float lanes. -/
theorem scaleIs_float (t : FFmt) : ScaleIs (-127) (fun g => ∀ j, j < per → fitsAt (.flt t) g (fv (x j)) = true)
      (∀ j, j < per → x j = 0 ∨ x j = 0x80000000)
    (coatScale (.flt t) (((List.range per).map x).map (laneVal true))) := by
  refine coatScale_is (.flt t) _ ?_ fun g _ => ?_
  · rw [List.map_map, List.all_map, List.all_eq_true]
    exact forall_congr' fun j => imp_congr List.mem_range (isZero_fv _)
  · rw [List.map_map, List.all_map, List.all_eq_true]
    exact forall_congr' fun j => imp_congr List.mem_range Iff.rfl

/-- A lane of a block of integer lanes is stored rounded and saturated. -/
theorem storeCode_rounded {fits : Int → Prop} (hs : ScaleIs 0 fits (∀ j, j < per → x j = 0) e) (h : lo ≤ hi) (hj : j < per) :
    ∃ v, NearestEven (x j).toInt e.toNat v ∧ (storeCode (.int lo hi bits) e false (x j) : Int) = (max lo (min hi v)) % 2 ^ bits := by
  refine ⟨rndLane (x j) e, ?_, storeCode_int h e _⟩
  obtain ⟨hzero, hlive⟩ := hs
  by_cases hz : ∀ j, j < per → x j = 0
  · rw [hzero hz, hz j hj, rndLane_zero]
    exact nearestEven_self 0
  · obtain ⟨hpos, _⟩ := hlive hz
    have hnear := rndLane_nearestEven (x j) e.toNat
    rwa [Int.toNat_of_nonneg hpos] at hnear

/-- What a block of a scaled format stores. -/
theorem storeBlock_scaled (h : f = 4 ∨ f = 5 ∨ 7 ≤ f) (h14 : f ≠ 14) (lanes : List Lane) : storeBlock n uns f lanes =
    (coatScale (storeTarget n uns f) (lanes.map (laneVal (fmtIsFloat f))), lanes.map
      (storeCode (storeTarget n uns f) (coatScale (storeTarget n uns f) (lanes.map (laneVal (fmtIsFloat f)))) (fmtIsFloat f))) := by
  unfold storeBlock
  split
  case h_6 => rfl
  all_goals omega

/-- The float format of a scaled store. -/
def scaledFloat (f : Nat) : FFmt := if f = 4 then fmtE4M3 else fmtE5M2

theorem storeBlock_float (h : f = 4 ∨ f = 5) (lanes : List Lane) : storeBlock n uns f lanes =
    (coatScale (.flt (scaledFloat f)) (lanes.map (laneVal true)),
      lanes.map fun a => narrow (scaledFloat f) a (-coatScale (.flt (scaledFloat f)) (lanes.map (laneVal true)))) := by
  rcases h with rfl | rfl
  all_goals rfl

theorem narrow_scaledFloat_lt (h : f = 4 ∨ f = 5) (a : Lane) (s : Int) : narrow (scaledFloat f) a s < 2 ^ 8 := by
  rcases h with rfl | rfl
  · exact narrow_lt (f := fmtE4M3) (by decide) (by decide) (by decide) (by decide) a s
  · exact narrow_lt (f := fmtE5M2) (by decide) (by decide) (by decide) (by decide) a s

theorem storeTarget_plane : storeTarget n uns 12 = .int (if uns then 0 else -128) (if uns then 255 else 127) 8 := by
  cases uns
  all_goals rfl

theorem storeBlock_int (hw : FmtWidth n f w) (h : IntRange n f w lo hi) (lanes : List Lane) : storeBlock n uns f lanes =
    (coatScale (.int lo hi w) (lanes.map (laneVal false)), lanes.map (storeCode (.int lo hi w) (coatScale (.int lo hi w) (lanes.map (laneVal false))) false)) := by
  have hf : 7 ≤ f ∧ f ≠ 14 := by unfold IntRange at h; omega
  obtain ⟨ht, hflt, _⟩ := storeTarget_int (uns := uns) hw h
  rw [storeBlock_scaled (.inr (.inr hf.1)) hf.2, ht, hflt]

end

/-! ### Blocks of a row (R62, R194) -/

/-- The blocks of a row of elements of `w` bits. -/
def rowBlocks (w : Nat) : Nat := if w < 8 then 1 else w / 8

section
variable {w : Nat} {sp : Span}

theorem elemsPer_eq (h : 1 ≤ w ∧ w ≤ 8 ∨ w = 16 ∨ w = 32) : elemsPer w = 64 / rowBlocks w ∧ elemsPer w * rowBlocks w = 64 ∧
    w * elemsPer w = 8 * min 64 (8 * w) := by
  have hw : w = 1 ∨ w = 2 ∨ w = 3 ∨ w = 4 ∨ w = 5 ∨ w = 6 ∨ w = 7 ∨ w = 8 ∨ w = 16 ∨ w = 32 := by omega
  rcases hw with rfl | rfl | rfl | rfl | rfl | rfl | rfl | rfl | rfl | rfl
  all_goals decide

/-- A row of elements of `w` bits that lies as R62 asks. -/
def RowSpan (w : Nat) (sp : Span) : Prop :=
  sp.len = 8 * w ∧ sp.va + 8 * w ≤ 2 ^ 64 ∧ (if 8 ≤ w then sp.va % 64 = 0 else sp.va % 64 + 8 * w ≤ 64)

theorem span_blocks (hw : 1 ≤ w ∧ w ≤ 8 ∨ w = 16 ∨ w = 32) (h : RowSpan w sp) :
    sp.blocks = (List.range (rowBlocks w)).map fun i => { va := sp.va + 64 * i, len := min 64 (8 * w) } := by
  obtain ⟨hlen, hend, hal⟩ := h
  have hcount : (sp.va % 2 ^ 6 + sp.len + (2 ^ 6 - 1)) / 2 ^ 6 = rowBlocks w := by
    unfold rowBlocks
    rw [hlen]
    split at hal <;> split <;> omega
  unfold Span.blocks Span.cells
  dsimp only
  rw [hcount]
  refine List.map_congr_left fun i hi => ?_
  have hi := List.mem_range.1 hi
  unfold rowBlocks at hi
  rw [hlen, Span.mk.injEq]
  by_cases h8 : 8 ≤ w
  · rw [if_pos h8] at hal
    rw [if_neg (by omega)] at hi
    have hlo : (if i = 0 then sp.va else sp.va / 2 ^ 6 * 2 ^ 6 + 2 ^ 6 * i) = sp.va + 64 * i := by split <;> omega
    rw [hlo]
    constructor <;> omega
  · rw [if_neg h8] at hal
    rw [if_pos (by omega)] at hi
    obtain rfl : i = 0 := by omega
    rw [if_pos rfl]
    constructor <;> omega

end

theorem byteMask_testBit (off n j : Nat) : (byteMask off n).testBit j = decide (8 * off ≤ j ∧ j < 8 * off + 8 * n) := by
  rw [byteMask, Nat.testBit_mul_two_pow, Nat.testBit_two_pow_sub_one, ← Bool.decide_and, decide_eq_decide]
  omega

/-- The write of one block of a row, from its lanes. -/
def TileReq.blockWrite (q : TileReq) (b : Span) (lanes : List Lane) : VWrite :=
  let r := storeBlock q.nfr (pqUns q.pq) q.fmt lanes
  { va := b.va
    w := { mask := byteMask (b.va % 64) b.len, data := packCodes (elemBits q.nfr q.fmt) r.2 * 2 ^ (8 * (b.va % 64))
           coat := some (mkCoat r.1 (fmtCode q.fmt)) } }

section
variable {q : TileReq} {t : Tile} {sp : Span} {w r k : Nat} {spans : List Span}

theorem storeRow_eq (hw : FmtWidth q.nfr q.fmt w) (h : RowSpan w sp) (lanes : List Lane) : q.storeRow sp lanes =
    (List.range (rowBlocks w)).map fun i => q.blockWrite { va := sp.va + 64 * i, len := min 64 (8 * w) }
      ((lanes.drop (elemsPer w * i)).take (elemsPer w)) := by
  have hper : (if sp.len < 64 then 64 else 512 / elemBits q.nfr q.fmt) = elemsPer w := by rw [h.1, fmtWidth_bits hw]; rfl
  have hrow : q.storeRow sp lanes = sp.blocks.zipIdx.map fun x => q.blockWrite x.1
      ((lanes.drop ((if sp.len < 64 then 64 else 512 / elemBits q.nfr q.fmt) * x.2)).take
        (if sp.len < 64 then 64 else 512 / elemBits q.nfr q.fmt)) := rfl
  rw [hrow, hper, span_blocks (fmtWidth_width hw) h, zipIdx_map_range, List.map_map]
  rfl

/-- The write of block `k` of row `r` of a store. -/
theorem storeWrites_row (hf : q.fmt ≠ 12) (hw : FmtWidth q.nfr q.fmt w) (hs : ∀ sp ∈ spans, RowSpan w sp) (hk : k < rowBlocks w)
    (hsp : spans[r]? = some sp) : (q.storeWrites spans t)[rowBlocks w * r + k]? =
      some (q.blockWrite { va := sp.va + 64 * k, len := min 64 (8 * w) } ((List.range (elemsPer w)).map fun j =>
        lane t (64 * r + elemsPer w * k + j))) := by
  have hwidth := fmtWidth_width hw
  obtain ⟨_, hmul, _⟩ := elemsPer_eq hwidth
  have hwrites : q.storeWrites spans t = spans.zipIdx.flatMap fun x => q.storeRow x.1 ((List.range 64).map fun c => lane t (64 * x.2 + c)) := by
    rw [TileReq.storeWrites, if_neg hf]
  rw [hwrites, getElem?_flatMap (n := rowBlocks w) _ _ _ hk (a := (sp, r)) (by simp [hsp])]
  · rw [storeRow_eq hw (hs sp (List.mem_of_getElem? hsp)), List.getElem?_map, List.getElem?_range hk, Option.map_some,
      range_slice _ (by
        have : elemsPer w * k + elemsPer w ≤ elemsPer w * rowBlocks w := by rw [← Nat.mul_succ]; exact Nat.mul_le_mul_left _ hk
        omega)]
    simp only [Nat.add_assoc]
  · intro x hx
    rw [storeRow_eq hw (hs x.1 (List.fst_mem_of_mem_zipIdx hx))]
    simp

/-- The stored bits of element `j` of a block. -/
theorem blockWrite_field (hw : FmtWidth q.nfr q.fmt w) (b : Span) (lanes : List Lane) (j : Nat) :
    (q.blockWrite b lanes).w.data / 2 ^ (8 * (b.va % 64) + w * j) % 2 ^ w =
      (storeBlock q.nfr (pqUns q.pq) q.fmt lanes).2.getD j 0 % 2 ^ w := by
  unfold TileReq.blockWrite
  dsimp only
  rw [fmtWidth_bits hw, Nat.pow_add, ← Nat.div_div_eq_div_mul, Nat.mul_div_cancel _ (Nat.two_pow_pos _), packCodes_field]

end

/-! ### StoredBlocks -/

theorem storedBlocks_hold : StoredBlocks := by
  intro q t spans w hf hw hlen hs blocks per r k sp hr hk hsp
  have hwidth := fmtWidth_width hw
  obtain ⟨hper, _, hbits⟩ := elemsPer_eq hwidth
  have hper : per = elemsPer w := hper.symm
  have hk : k < rowBlocks w := hk
  let x (j : Nat) : Lane := lane t (64 * r + per * k + j)
  let xs : List Lane := (List.range per).map x
  let y : VWrite := q.blockWrite { va := sp.va + 64 * k, len := min 64 (8 * w) } xs
  have hva : (sp.va + 64 * k) % 64 = sp.va % 64 := by omega
  have hy : (q.storeWrites spans t)[r * blocks + k]? = some y := by
    rw [Nat.mul_comm]
    have := storeWrites_row (t := t) hf hw hs hk hsp
    rwa [← hper] at this
  have hfield (j : Nat) : y.w.data / 2 ^ (8 * (sp.va % 64) + w * j) % 2 ^ w = (storeBlock q.nfr (pqUns q.pq) q.fmt xs).2.getD j 0 % 2 ^ w := by
    rw [← hva]
    exact blockWrite_field hw _ xs j
  /- A code of `w` bits is stored as it is. -/
  have hstored {e : Int} {g : Lane → Nat} (hg : storeBlock q.nfr (pqUns q.pq) q.fmt xs = (e, xs.map g)) (hlt : ∀ a, g a < 2 ^ w) :
      (storeBlock q.nfr (pqUns q.pq) q.fmt xs).1 = e ∧
      ∀ j, j < per → y.w.data / 2 ^ (8 * (sp.va % 64) + w * j) % 2 ^ w = g (x j) := by
    refine ⟨by rw [hg], fun j hj => ?_⟩
    rw [hfield, hg, getD_map_map_range _ _ hj]
    exact Nat.mod_eq_of_lt (hlt _)
  refine ⟨y, _, _, hy, rfl, fun j _ => ?_, rfl, ?_, ?_, ?_, ?_, ?_, ?_⟩
  · show (byteMask ((sp.va + 64 * k) % 64) (min 64 (8 * w))).testBit j = _
    rw [hva, byteMask_testBit, hper, hbits]
  · show fmtCode q.fmt = _
    simp [fmtCode]
  · intro h
    obtain rfl : w = 32 := by have := fmtWidth_cases hw; omega
    exact hstored (by rcases h with h | h | h <;> rw [h] <;> rfl) fun a => a.isLt
  · intro h
    obtain rfl : w = 16 := by have := fmtWidth_cases hw; omega
    exact hstored (by rw [h]; rfl) fun a => narrow_lt (f := fmtBF16) (by decide) (by decide) (by decide) (by decide) a 0
  · intro h
    obtain rfl : w = 16 := by have := fmtWidth_cases hw; omega
    exact hstored (by rw [h]; rfl) fun a => narrow_lt (f := fmtF16) (by decide) (by decide) (by decide) (by decide) a 0
  · intro h f
    obtain rfl : w = 8 := by have := fmtWidth_cases hw; omega
    obtain ⟨he, hcodes⟩ := hstored (storeBlock_float h xs) fun a => narrow_scaledFloat_lt h a _
    rw [he]
    exact ⟨scaleIs_float f, hcodes⟩
  · intro lo hi h
    have hle := (storeTarget_int (uns := pqUns q.pq) hw h).2.2
    obtain ⟨he, hcodes⟩ := hstored (storeBlock_int hw h xs) (storeCode_int_lt hle _)
    rw [he]
    refine ⟨scaleIs_int, fun j hj => ?_⟩
    dsimp only
    rw [hcodes j hj]
    exact storeCode_rounded (x := x) scaleIs_int hle hj

/-! ### StoredPlanes -/

section
variable {q : TileReq} {t : Tile} {spans : List Span} {p i : Nat}

/-- The lanes of patch `p` of a tile. -/
def patchLanes (t : Tile) (p : Nat) : List Lane := (List.range 512).map fun j => lane t (512 * p + j)

theorem patchLanes_rows : ((List.range 8).flatMap fun r => (List.range 64).map fun c => lane t (64 * (8 * p + r) + c)) = patchLanes t p := by
  rw [patchLanes, ← flatMap_range_map (fun j => lane t (512 * p + j)) 8 64]
  congr 1
  funext r
  congr 1
  funext c
  congr 1
  omega

/-- The write of plane `i` from the top of patch `p`, whose lanes are stored as `b`. -/
def TileReq.planeWrite (q : TileReq) (p i : Nat) (b : Int × List Nat) : VWrite :=
  { va := q.planeVa p i / 64 * 64
    w := { mask := 2 ^ 512 - 1, data := packCodes 1 (b.2.map fun c => c / 2 ^ (7 - i))
           coat := some (mkCoat b.1 (patchCode (pqUns q.pq) (7 - i))) } }

theorem packCodes_bit (l : List Nat) (i k : Nat) : (packCodes 1 (l.map fun c => c / 2 ^ i)).testBit k = (l.getD k 0).testBit i := by
  have hfield := packCodes_field 1 (l.map fun c => c / 2 ^ i) k
  have hget : (l.map fun c => c / 2 ^ i).getD k 0 = l.getD k 0 / 2 ^ i := by
    rw [List.getD_eq_getElem?_getD, List.getD_eq_getElem?_getD, List.getElem?_map]
    cases l[k]? <;> simp
  rw [hget, Nat.one_mul] at hfield
  rw [Nat.testBit_eq_decide_div_mod_eq, Nat.testBit_eq_decide_div_mod_eq]
  exact congrArg (fun v => decide (v = 1)) hfield

theorem wrap64_eq (x : Int) : (wrap64 x : Int) = x % 2 ^ 64 := Int.toNat_of_nonneg (Int.emod_nonneg _ (by decide))

theorem planeWrite_data (b : Int × List Nat) : (q.planeWrite p i b).w.data = packCodes 1 (b.2.map fun c => c / 2 ^ (7 - i)) := rfl

theorem storeWrites_plane (hf : q.fmt = 12) (hp : p < 2) (hi : i < pqQ q.pq) : (q.storeWrites spans t)[p * pqQ q.pq + i]? =
    some (q.planeWrite p i (storeBlock q.nfr (pqUns q.pq) 12 (patchLanes t p))) := by
  have hwrites : q.storeWrites spans t = [0, 1].flatMap fun p => (List.range (pqQ q.pq)).map fun i => q.planeWrite p i
      (storeBlock q.nfr (pqUns q.pq) 12 ((List.range 8).flatMap fun r => (List.range 64).map fun c => lane t (64 * (8 * p + r) + c))) := by
    rw [TileReq.storeWrites, if_pos hf]
    rfl
  have hpatch : [0, 1][p]? = some p := by
    have : p = 0 ∨ p = 1 := by omega
    rcases this with rfl | rfl <;> rfl
  rw [hwrites, Nat.mul_comm, getElem?_flatMap (n := pqQ q.pq) _ _ (by simp) hi hpatch, List.getElem?_map, List.getElem?_range hi, patchLanes_rows]
  rfl

end

theorem storedPlanes_hold : StoredPlanes := by
  intro q t spans hf hpq planes uns lo hi' p hp
  obtain ⟨h1, h8, _⟩ := hpq
  let x (j : Nat) : Lane := lane t (512 * p + j)
  let xs : List Lane := patchLanes t p
  have hle : lo ≤ hi' := by
    show (if uns then (0 : Int) else -128) ≤ if uns then 255 else 127
    cases uns <;> decide
  let e := coatScale (.int lo hi' 8) (xs.map (laneVal false))
  have hblock : storeBlock q.nfr uns 12 xs = (e, xs.map (storeCode (.int lo hi' 8) e false)) := by
    rw [storeBlock_scaled (by decide) (by decide), storeTarget_plane]
    rfl
  have hhi : 0 < hi' := by
    show (0 : Int) < if uns then 255 else 127
    cases uns <;> decide
  have hscale := scaleIs_int (per := 512) (x := x) (lo := lo) (hi := hi') (bits := 8)
  have hxs : xs = (List.range 512).map x := by
    show patchLanes t p = _
    rw [patchLanes]
  refine ⟨e, ?_, fun i hi => ?_⟩
  · have h := hscale
    simp only [hhi, true_and] at h
    exact h
  · refine ⟨q.planeWrite p i (storeBlock q.nfr uns 12 xs), storeWrites_plane hf hp hi, ?_, rfl, ?_, fun r c hr hc => ?_⟩
    · show ((q.planeVa p i / 64 * 64 : Nat) : Int) = (q.base.toNat + i * (pqStride q.pq : Int) + p * q.stride.toInt) % 2 ^ 64 / 64 * 64
      rw [← wrap64_eq, Nat.cast_mul, Int.natCast_ediv]
      rfl
    · show some (mkCoat _ (patchCode uns (7 - i))) = _
      rw [hblock, patchCode, show 7 - (7 - i) = i by omega]
    · have hlane : 64 * r + c < 512 := by omega
      have hplace : 8 * (8 * r + c / 8) + c % 8 = 64 * r + c := by omega
      obtain ⟨v, hv, hcode⟩ := storeCode_rounded (x := x) (bits := 8) hscale hle hlane
      refine ⟨v, by rw [Nat.add_assoc]; exact hv, ?_⟩
      have hstored : (storeBlock q.nfr uns 12 xs).2.getD (64 * r + c) 0 = storeCode (.int lo hi' 8) e false (x (64 * r + c)) := by
        rw [hblock]
        dsimp only
        rw [hxs, getD_map_map_range x _ hlane]
      rw [hplace, planeWrite_data, packCodes_bit, hstored]
      exact congrArg (fun v => v.toNat.testBit (7 - i)) hcode

end Sys2Proof.Machine
end

section
/-! O16, fifth part: a stored tile loads back (R69, R70, R193, R194). -/

namespace Sys2Proof.Machine
open Sys2Proof.Claims

/-- The blocks of runs of `n` blocks each. -/
theorem chunkBlocks_getElem? {n : Nat} {spans : List Span} (h : ∀ sp ∈ spans, sp.blocks.length = n) (bs : List BlockVal) (r : Nat) :
    (chunkBlocks spans bs)[r]? = spans[r]?.map fun sp => (sp, (bs.drop (n * r)).take n) := by
  induction spans generalizing bs r with
  | nil => rfl
  | cons sp spans ih =>
    have hsp : sp.blocks.length = n := h sp (by simp)
    rw [chunkBlocks, hsp]
    cases r with
    | zero => rfl
    | succ r =>
      rw [List.getElem?_cons_succ, List.getElem?_cons_succ, ih (fun x hx => h x (by simp [hx])), List.drop_drop, Nat.mul_succ, Nat.add_comm n]

theorem chunkBlocks_length (spans : List Span) (bs : List BlockVal) : (chunkBlocks spans bs).length = spans.length := by
  induction spans generalizing bs with
  | nil => rfl
  | cons sp spans ih => rw [chunkBlocks, List.length_cons, List.length_cons, ih]

/-- What a write's mask covers reads as written. -/
theorem apply_field {y : BWrite} {b : BlockVal} {k n : Nat} (h : ∀ i, i < n → y.mask.testBit (k + i) = true) :
    (y.apply b).data / 2 ^ k % 2 ^ n = y.data / 2 ^ k % 2 ^ n := by
  refine Nat.eq_of_testBit_eq fun i => ?_
  rw [Nat.testBit_mod_two_pow, Nat.testBit_mod_two_pow, Nat.testBit_div_two_pow, Nat.testBit_div_two_pow, BWrite.testBit_apply]
  by_cases hi : i < n
  · rw [Nat.add_comm i, if_pos (h i hi)]
  · simp [hi]

/-- The coats of F32, I32 and PACK8 blocks are no poison and no zero. -/
theorem storedCoat_live {code : Nat} (h : code = 1 ∨ code = 6 ∨ code = 8) : coatPoison (mkCoat 0 code) = false ∧ coatE (mkCoat 0 code) ≠ -128 := by
  rcases h with rfl | rfl | rfl
  all_goals decide

theorem storedTilesLoadBack_holds : StoredTilesLoadBack := by
  intro q t spans hf hcoats hlen hs blocks j hj
  have hw : FmtWidth q.nfr q.fmt 32 := by
    rcases hf with h | h | h
    all_goals simp [FmtWidth, h]
  have hrow (sp : Span) (h : sp ∈ spans) : RowSpan 32 sp := by
    obtain ⟨hl, hva, hend⟩ := hs sp h
    exact ⟨by omega, by omega, by simpa using hva⟩
  have hblocks (sp : Span) (h : sp ∈ spans) : sp.blocks.length = 4 := by
    rw [span_blocks (fmtWidth_width hw) (hrow sp h)]
    simp [rowBlocks]
  let r := j / 64
  let c := j % 64
  have hr : r < 16 := by omega
  have hc : c < 64 := by omega
  obtain ⟨sp, hsp⟩ : ∃ sp, spans[r]? = some sp := ⟨_, List.getElem?_eq_getElem (by omega)⟩
  obtain ⟨y, e, code, hy, hva, hmask, hcoat, hcode, hplain, _⟩ := storedBlocks_hold q t spans 32 (by omega) hw hlen
    hrow r (c / 16) sp hr (show c / 16 < 4 by omega) hsp
  obtain ⟨rfl, hstored⟩ := hplain (by omega)
  have hva0 : sp.va % 64 = 0 := (hs sp (List.mem_of_getElem? hsp)).2.1
  let rows := chunkBlocks spans blocks
  have hrows (r : Nat) : rows[r]? = spans[r]?.map fun sp => (sp, (blocks.drop (4 * r)).take 4) := chunkBlocks_getElem? hblocks blocks r
  have hx : rows[r]? = some (sp, (blocks.drop (4 * r)).take 4) := by rw [hrows, hsp]; rfl
  have hb : ((blocks.drop (4 * r)).take 4)[32 * c / 512]? = some (y.w.apply { data := 0, coat := 0 }) := by
    rw [List.getElem?_take_of_lt (by omega), List.getElem?_drop, show 4 * r + 32 * c / 512 = r * 4 + c / 16 by omega, List.getElem?_map]
    exact congrArg (Option.map fun x : VWrite => x.w.apply { data := 0, coat := 0 }) hy
  have hrowsOf : RowsOf 32 rows := by
    refine ⟨(chunkBlocks_length ..).trans hlen, fun x hx => ?_⟩
    obtain ⟨i, hi⟩ := List.mem_iff_getElem?.1 hx
    rw [hrows] at hi
    obtain ⟨sp, hsp, rfl⟩ := Option.map_eq_some_iff.1 hi
    have hlast := storeWrites_row (t := t) (k := 3) (by omega) hw hrow (by decide) hsp
    have hlt : 4 * i + 3 < blocks.length := by
      rw [List.length_map]
      exact (List.getElem?_eq_some_iff.1 hlast).1
    refine ⟨(hs sp (List.mem_of_getElem? hsp)).2.1, ?_⟩
    rw [List.length_take, List.length_drop]
    omega
  have hfmt : q.fmt = 1 ∨ q.fmt = 14 ∨ q.fmt = 6 := by omega
  obtain ⟨_, _, _, _, hlive⟩ := explicitLanes_holds q rows 32 hcoats hw hrowsOf r c sp _ _ hr hc hx hb
  have hlivecoat : (y.w.apply { data := 0, coat := 0 }).coat = mkCoat 0 code := by rw [BWrite.apply, hcoat]; rfl
  obtain ⟨hpoison, hzero⟩ := storedCoat_live (code := code) (by rcases hf with h | h | h <;> simp [hcode, h])
  have hlane := (hlive (hlivecoat ▸ hpoison) (hlivecoat ▸ hzero)).1 hfmt
  have hplace : 8 * (sp.va % 64) + 32 * c % 512 = 32 * (c % 16) := by omega
  have hcover (i : Nat) (hi : i < 32) : y.w.mask.testBit (32 * (c % 16) + i) = true := by
    rw [hmask _ (by omega), hva0]
    exact decide_eq_true ⟨by omega, show 32 * (c % 16) + i < 8 * 0 + 32 * (64 / 4) by omega⟩
  have hfield : y.w.data / 2 ^ (8 * (sp.va % 64) + 32 * (c % 16)) % 2 ^ 32 = (lane t (64 * r + 64 / 4 * (c / 16) + c % 16)).toNat :=
    hstored (c % 16) (show c % 16 < 64 / 4 by omega)
  rw [hplace, apply_field hcover] at hlane
  rw [hva0, Nat.mul_zero, Nat.zero_add] at hfield
  have hj' : 64 * r + 64 / 4 * (c / 16) + c % 16 = j := by omega
  calc lane (q.tile rows) j = lane (q.tile rows) (64 * r + c) := by rw [show 64 * r + c = j by omega]
    _ = BitVec.ofNat 32 (y.w.data / 2 ^ (32 * (c % 16)) % 2 ^ 32) := hlane
    _ = BitVec.ofNat 32 (lane t (64 * r + 64 / 4 * (c / 16) + c % 16)).toNat := congrArg (BitVec.ofNat 32) hfield
    _ = lane t j := by rw [BitVec.ofNat_toNat, BitVec.setWidth_eq, hj']

end Sys2Proof.Machine
end

section
/-! O16, sixth part: tiles in a core's own scratchpad and weight bank (R169, R192 to R196, R251). -/

namespace Sys2Proof.Machine
open Sys2Proof.Claims

/-! ### Blocks of a core's own memory (R169, R251) -/

section
variable {s : State} {w : Window} {core : Nat}

theorem effIa_scratch (hk : w.kind = 1) (va : Nat) : s.effIa core w va = 0xA * 2 ^ 48 + pairOf core * 2 ^ 21 + w.toIa va % 2 ^ 21 := by
  rw [State.effIa, hk]
  rfl

theorem effIa_wbank (hk : w.kind = 2) (va : Nat) : s.effIa core w va =
    0xB * 2 ^ 48 + pairOf core * 2 ^ 25 + (s.pair (pairOf core)).active.toNat * 2 ^ 24 + w.toIa va % 2 ^ 24 := by
  rw [State.effIa, hk]
  rfl

theorem devicePlace_scratch {ia : Nat} (h : iaRegion ia = 0xA) : devicePlace ia = scratchPlace (bitsOf ia 21 8) (bitsOf (ia / 64 * 64) 0 21) := by
  rw [devicePlace, h]
  rfl

theorem devicePlace_wbank {ia : Nat} (h : iaRegion ia = 0xB) : devicePlace ia =
    wbankPlace (bitsOf ia 25 8) (bitsOf ia 24 1 == 1) (bitsOf (ia / 64 * 64) 0 24) := by
  rw [devicePlace, h]
  rfl

/-- The block of a core's scratchpad that an access through a SCRATCH window reaches. -/
theorem scratch_place (hc : core < 512) (hk : w.kind = 1) (va : Nat) : iaRegion (s.effIa core w va / 64 * 64) = 0xA ∧
    devicePlace (s.effIa core w va / 64 * 64) = scratchPlace (pairOf core) (w.toIa va % 2 ^ 21) / 64 * 64 := by
  have hp : pairOf core < 256 := by rw [pairOf]; omega
  have hregion : iaRegion (s.effIa core w va / 64 * 64) = 0xA := by
    rw [effIa_scratch hk, iaRegion]
    omega
  refine ⟨hregion, ?_⟩
  rw [devicePlace_scratch hregion, effIa_scratch hk]
  simp only [scratchPlace, bitsOf]
  omega

/-- The block of the active half of a core's weight bank that an access through a WBANK window reaches. -/
theorem wbank_place (hc : core < 512) (hk : w.kind = 2) (va : Nat) : iaRegion (s.effIa core w va / 64 * 64) = 0xB ∧
    devicePlace (s.effIa core w va / 64 * 64) =
      wbankPlace (pairOf core) (s.pair (pairOf core)).active (w.toIa va % 2 ^ 24) / 64 * 64 := by
  have hp : pairOf core < 256 := by rw [pairOf]; omega
  cases ha : (s.pair (pairOf core)).active
  all_goals
    have hregion : iaRegion (s.effIa core w va / 64 * 64) = 0xB := by
      rw [effIa_wbank hk, iaRegion, ha]
      simp only [Bool.toNat_false, Bool.toNat_true]
      omega
    refine ⟨hregion, ?_⟩
    rw [devicePlace_wbank hregion, effIa_wbank hk, ha]
    simp only [wbankPlace, bitsOf, Bool.toNat_false, Bool.toNat_true]
  · have hhalf : (0xB * 2 ^ 48 + pairOf core * 2 ^ 25 + 0 * 2 ^ 24 + w.toIa va % 2 ^ 24) / 64 * 64 / 2 ^ 24 % 2 ^ 1 = 0 := by omega
    rw [hhalf]
    simp only [Nat.reduceBEq, Bool.toNat_false]
    omega
  · have hhalf : (0xB * 2 ^ 48 + pairOf core * 2 ^ 25 + 1 * 2 ^ 24 + w.toIa va % 2 ^ 24) / 64 * 64 / 2 ^ 24 % 2 ^ 1 = 1 := by omega
    rw [hhalf]
    simp only [BEq.rfl, Bool.toNat_true]
    omega

/-- A core reads its own memory at once. -/
theorem readVa_own (hc : s.iss.core < 512) (hk : w.kind = 1 ∨ w.kind = 2) (q : Req) (va : Nat) :
    s.readVa s.iss.core q w va = (.ok (s.blockAt (ownPlace s w va / 64 * 64)), s) := by
  rcases hk with hk | hk
  · obtain ⟨hr, hp⟩ := scratch_place (s := s) hc hk va
    have hown : ownPlace s w va = scratchPlace (pairOf s.iss.core) (w.toIa va % 2 ^ 21) := if_pos hk
    rw [State.readVa, State.iaRead, hr, if_neg (by decide), if_pos (by decide), hp, hown]
  · obtain ⟨hr, hp⟩ := wbank_place (s := s) hc hk va
    have hown : ownPlace s w va = wbankPlace (pairOf s.iss.core) (s.pair (pairOf s.iss.core)).active (w.toIa va % 2 ^ 24) :=
      if_neg (by omega)
    rw [State.readVa, State.iaRead, hr, if_neg (by decide), if_pos (by decide), hp, hown]

theorem readVas_own (hc : s.iss.core < 512) (hk : w.kind = 1 ∨ w.kind = 2) (q : Req) (vas : List Nat) :
    s.readVas s.iss.core q w vas = (.blocks (vas.map fun va => s.blockAt (ownPlace s w va / 64 * 64)), s) := by
  induction vas with
  | nil => rfl
  | cons va vas ih =>
    rw [State.readVas, readVa_own hc hk]
    dsimp only
    rw [ih]
    rfl

/-- A core writes its own scratchpad at once. -/
theorem writeEach_scratch (hc : core < 512) (hk : w.kind = 1) (q : Req) (l : List VWrite) (s : State) : s.writeEach core q w l =
    (none, l.foldl (fun t x => t.writeAt (scratchPlace (pairOf core) (w.toIa x.va % 2 ^ 21) / 64 * 64) x.w) s) := by
  induction l generalizing s with
  | nil => rfl
  | cons x l ih =>
    obtain ⟨hr, hp⟩ := scratch_place (s := s) hc hk x.va
    have hwrite : s.iaWrite q (s.effIa core w x.va / 64 * 64) x.w =
        (none, s.writeAt (scratchPlace (pairOf core) (w.toIa x.va % 2 ^ 21) / 64 * 64) x.w) := by
      rw [State.iaWrite, hr, if_neg (by decide), if_neg (by simp), if_pos (by decide), hp]
    rw [State.writeEach, hwrite, List.foldl_cons, ← ih]

end

/-! ### Loads (R193, R195) -/

section
variable {s : State} {a b : BitVec 5} {f : BitVec 4} {w : Window} {coats : Bool}

theorem tileAcc_win (h : findWindow s.cx.windows (s.cx.sreg a).toNat = some w) : (s.tileAcc a b f coats).win = some w := h

theorem fixed_own {t : TileAcc} (hw : t.win = some w) (hk : w.kind = 1 ∨ w.kind = 2) :
    t.fixed = some ((if w.kind = 1 then 10 else 14) + portOcc t.ports) := by
  rw [TileAcc.fixed, hw]
  rcases hk with hk | hk
  · rw [Option.map_some, hk]; rfl
  · rw [Option.map_some, hk]; rfl

theorem doLoad_own (hc : s.iss.core < 512) (hk : w.kind = 1 ∨ w.kind = 2)
    (hw : findWindow s.cx.windows (s.cx.sreg a).toNat = some w) (d : BitVec 6) :
    s.doLoad (s.tileAcc a b f coats) d =
      let acc := s.tileAcc a b f coats
      let rows := chunkBlocks acc.spans (acc.vas.map fun va => s.blockAt (ownPlace s w va / 64 * 64))
      let lat := (if w.kind = 1 then 10 else 14) + portOcc acc.ports
      (((s.takePorts acc.ports).result lat (.tile (s.cx.phys d.toNat) (fullTile (acc.q.tile rows)))).latePoison s.cs
        (s.cycle + lat) (acc.q.poisonVa rows)) := by
  have hwin := tileAcc_win (b := b) (f := f) (coats := coats) hw
  have hload : s.loadTile s.iss.core (s.winReq (some w)) w (s.tileAcc a b f coats).q =
      (.tile ((s.tileAcc a b f coats).q.tile (chunkBlocks (s.tileAcc a b f coats).spans
          ((s.tileAcc a b f coats).vas.map fun va => s.blockAt (ownPlace s w va / 64 * 64))))
        ((s.tileAcc a b f coats).q.poisonVa (chunkBlocks (s.tileAcc a b f coats).spans
          ((s.tileAcc a b f coats).vas.map fun va => s.blockAt (ownPlace s w va / 64 * 64)))), s) := by
    have hspans : s.tileSpans s.iss.core (s.winReq (some w)) (some w) (s.tileAcc a b f coats).q = (s.tileAcc a b f coats).spans := by
      rw [← hwin]; rfl
    rw [State.loadTile, readVas_own hc hk, hspans]
    rfl
  unfold State.doLoad
  rw [hwin]
  dsimp only
  rw [hload, fixed_own hwin hk]
  rfl

/-- A tile load from a core's own memory. -/
theorem tileLoad_own {i : Instr} {p : BitVec 4} {d : BitVec 6} {t : State} (he : exec i s = tileLoad i p d a f b coats s)
    (hp : some p = predOf i) (hv : d ∈ vregsOf i) (ht : s.doLoad (s.tileAcc a b f coats) d = t) :
    DoesIf (s.portWait (s.tileAcc a b f coats).ports = false ∧ s.tileCauses (s.tileAcc a b f coats) .read loadKinds = []) i s t := by
  unfold tileLoad at he
  refine doesIf_slotOp he hp (fun n hn => ?_) (fun h => ?_) (fun h => h.2) ht
  · obtain rfl : n = d := by simpa [loadUses] using hn
    exact hv
  · simp [waitIf, h.1]

theorem ownMemoryTileLoads : OwnMemoryTileLoads := fun _ _ _ _ _ _ _ hc hk hw =>
  ⟨tileLoad_own rfl rfl (by simp [vregsOf]) (doLoad_own hc hk hw _), tileLoad_own rfl rfl (by simp [vregsOf]) (doLoad_own hc hk hw _)⟩

end

end Sys2Proof.Machine
end

section
/-! O16, seventh part: tiles stored in a core's own scratchpad, and what they leave unchanged (R169, R194, R196). -/

namespace Sys2Proof.Machine
open Sys2Proof.Claims

/-! ### Bytes that a write leaves -/

theorem leNat_eq_packCodes (bs : List Byte) : leNat bs = packCodes 8 (bs.map BitVec.toNat) := by
  induction bs with
  | nil => rfl
  | cons b bs ih => rw [leNat, ih, List.map_cons, packCodes, Nat.mod_eq_of_lt b.isLt]; rfl

/-- The bits of a block are those of its bytes. -/
theorem blockAt_testBit (s : State) (p : Nat) {i k : Nat} (hi : i < 64) (hk : k < 8) :
    (s.blockAt p).data.testBit (8 * i + k) = (memGet s.mem (p + i)).getLsbD k := by
  have hfield := packCodes_field 8 ((memGetBytes s.mem p 64).map BitVec.toNat) i
  have hbyte : ((memGetBytes s.mem p 64).map BitVec.toNat).getD i 0 = (memGet s.mem (p + i)).toNat := getD_map_map_range _ _ hi
  rw [hbyte, Nat.mod_eq_of_lt (memGet s.mem (p + i)).isLt, ← leNat_eq_packCodes] at hfield
  rw [BitVec.getLsbD, ← hfield, Nat.testBit_mod_two_pow, Nat.testBit_div_two_pow, decide_eq_true hk, Bool.true_and, Nat.add_comm]
  rfl

theorem testBit_mod_bytes (x n j : Nat) : (x % 256 ^ n).testBit j = (decide (j < 8 * n) && x.testBit j) := by
  rw [show (256 : Nat) ^ n = 2 ^ (8 * n) from (Nat.pow_mul 2 8 n).symm, Nat.testBit_mod_two_pow]

/-- A byte that no bit of a write's mask covers stays. -/
theorem writeAt_memGet {s : State} {p A : Nat} {x : BWrite}
    (h : ∀ i, i < 64 → A = p + i → ∀ k, k < 8 → x.mask.testBit (8 * i + k) = false) : memGet (s.writeAt p x).mem A = memGet s.mem A := by
  by_cases hA : A < p ∨ p + 64 ≤ A
  · exact s.writeAt_frame p A x hA
  obtain ⟨i, hi, rfl⟩ : ∃ i, i < 64 ∧ A = p + i := ⟨A - p, by omega, by omega⟩
  refine BitVec.eq_of_getLsbD_eq fun k hk => ?_
  rw [← blockAt_testBit _ p hi hk, ← blockAt_testBit _ p hi hk, State.writeAt, blockAt_putBlock_self]
  dsimp only
  rw [testBit_mod_bytes, BWrite.testBit_apply, h i hi rfl k hk, decide_eq_true (by omega)]
  rfl

/-- The state that block writes in a core's scratchpad leave. -/
def State.scratchWrites (s : State) (w : Window) (ws : List VWrite) : State :=
  ws.foldl (fun t x => t.writeAt (ownPlace s w x.va / 64 * 64) x.w) s

theorem scratchWrites_memGet {s : State} {w : Window} {A : Nat} {ws : List VWrite} (h : ∀ x ∈ ws, ∀ i, i < 64 →
    A = ownPlace s w x.va / 64 * 64 + i → ∀ k, k < 8 → x.w.mask.testBit (8 * i + k) = false) :
    memGet (s.scratchWrites w ws).mem A = memGet s.mem A := by
  unfold State.scratchWrites
  suffices hall : ∀ t : State, memGet (ws.foldl (fun t x => t.writeAt (ownPlace s w x.va / 64 * 64) x.w) t).mem A = memGet t.mem A from hall s
  induction ws with
  | nil => exact fun _ => rfl
  | cons x ws ih =>
    intro t
    rw [List.foldl_cons, ih fun y hy => h y (by simp [hy])]
    exact writeAt_memGet (h x (by simp))

/-! ### The store commits -/

section
variable {s : State} {a b : BitVec 5} {f : BitVec 4} {w : Window}

theorem doStore_own (hc : s.iss.core < 512) (hk : w.kind = 1) (hw : findWindow s.cx.windows (s.cx.sreg a).toNat = some w)
    (ws : List VWrite) : s.doStore (s.tileAcc a b f false) ws = (s.scratchWrites w ws).takePorts (s.tileAcc a b f false).ports := by
  have hwrite : s.writeVas s.iss.core (s.winReq (some w)) w ws = (none, s.scratchWrites w ws) := by
    rw [State.writeVas, writeEach_scratch hc hk]
    have hplace (va : Nat) : ownPlace s w va = scratchPlace (pairOf s.iss.core) (w.toIa va % 2 ^ 21) := if_pos hk
    simp only [State.scratchWrites, hplace]
  unfold State.doStore
  rw [tileAcc_win hw]
  dsimp only
  rw [hwrite]

/-- A tile store in a core's own scratchpad. -/
theorem tileStore_own {i : Instr} {p : BitVec 4} {d : BitVec 6} {writes : TileReq → List Span → Tile → List VWrite} {t : State}
    (he : exec i s = tileStore i p d a f b writes s) (hp : some p = predOf i) (hv : d ∈ vregsOf i)
    (hcauses : s.tileCauses (s.tileAcc a b f false) .write storeKinds = [])
    (ht : s.doStore (s.tileAcc a b f false) (writes (s.tileAcc a b f false).q (s.tileAcc a b f false).spans (s.vreg d)) = t) :
    DoesIf (s.portWait (s.tileAcc a b f false).ports = false) i s t := by
  unfold tileStore at he
  refine doesIf_slotOp he hp (fun n hn => ?_) (fun h => ?_) (fun _ => hcauses) ht
  · obtain rfl : n = d := by simpa using hn
    exact hv
  · simp [waitIf, h]

end

/-! ### Runs that the window names (R192, R283) -/

section
variable {w : Window} {sp : Span} {fia : Nat}

theorem named_byte {va : Nat} (h : w.badByte fia va = false) : w.vabase ≤ va / 65536 ∧ w.iabase * 65536 + (va - w.vabase * 65536) < 2 ^ 52 := by
  simp only [Window.badByte, Bool.or_eq_false_iff, decide_eq_false_iff_not, not_lt, not_le] at h
  obtain ⟨⟨⟨⟨⟨hlo, _⟩, hia⟩, _⟩, _⟩, _⟩ := h
  exact ⟨hlo, hia⟩

/-- Where cell `i` of a run begins. -/
def cellLo (sp : Span) (k i : Nat) : Nat := if i = 0 then sp.va else sp.va / 2 ^ k * 2 ^ k + 2 ^ k * i

theorem mem_cells {k : Nat} {c : Span} : c ∈ sp.cells k ↔ ∃ i, i < (sp.va % 2 ^ k + sp.len + (2 ^ k - 1)) / 2 ^ k ∧
    c = { va := cellLo sp k i % 2 ^ 64, len := min (sp.va + sp.len) (sp.va / 2 ^ k * 2 ^ k + 2 ^ k * (i + 1)) - cellLo sp k i } := by
  rw [Span.cells, List.mem_map]
  refine exists_congr fun i => and_congr List.mem_range ?_
  exact eq_comm

/-- A run whose 64 KiB cells are all named lies in the window, and does not wrap. -/
theorem span_named (h : ∀ c ∈ sp.cells 16, w.badByte fia c.va = false) (hva : sp.va < 2 ^ 64) (hlen : 0 < sp.len) :
    w.vabase * 65536 ≤ sp.va ∧ sp.va + sp.len ≤ 2 ^ 64 := by
  have hcell (i : Nat) (hi : i < (sp.va % 2 ^ 16 + sp.len + (2 ^ 16 - 1)) / 2 ^ 16) : w.vabase ≤ cellLo sp 16 i % 2 ^ 64 / 65536 ∧
      w.iabase * 65536 + (cellLo sp 16 i % 2 ^ 64 - w.vabase * 65536) < 2 ^ 52 := named_byte (h _ (mem_cells.2 ⟨i, hi, rfl⟩))
  obtain ⟨hlo, hia⟩ := hcell 0 (by omega)
  rw [cellLo, if_pos rfl, Nat.mod_eq_of_lt hva] at hlo hia
  refine ⟨by omega, ?_⟩
  by_contra hwrap
  obtain ⟨hbase, _⟩ := hcell (2 ^ 48 - sp.va / 65536) (by omega)
  rw [cellLo, if_neg (by omega)] at hbase
  obtain ⟨_, hlast⟩ := hcell (2 ^ 36 - sp.va / 65536) (by omega)
  rw [cellLo, if_neg (by omega)] at hlast
  omega

end

/-- An access without causes names all its bytes. -/
theorem tileCauses_named {s : State} {acc : TileAcc} {w : Window} {use : Use} {kinds : List Nat}
    (h : s.tileCauses acc use kinds = []) (hw : findWindow s.cx.windows acc.q.base.toNat = some w) {sp : Span} (hsp : sp ∈ acc.spans)
    (hva : sp.va < 2 ^ 64) (hlen : 0 < sp.len) : w.vabase * 65536 ≤ sp.va ∧ sp.va + sp.len ≤ 2 ^ 64 := by
  unfold State.tileCauses accessCauses at h
  rw [hw] at h
  simp only [List.append_eq_nil_iff] at h
  obtain ⟨_, ⟨hcells, _⟩, _⟩ := h
  refine span_named (fia := w.toIa acc.q.base.toNat) (fun c hc => ?_) hva hlen
  by_contra hbad
  have hsome : ((acc.spans.flatMap fun sp => sp.cells 16).find? fun c => w.badByte (w.toIa acc.q.base.toNat) c.va).isSome := by
    rw [List.find?_isSome]
    exact ⟨c, List.mem_flatMap.2 ⟨sp, hsp, hc⟩, by simpa using hbad⟩
  obtain ⟨c', hc'⟩ := Option.isSome_iff_exists.1 hsome
  rw [hc'] at hcells
  cases hcells

theorem tileCauses_aligned {s : State} {acc : TileAcc} {use : Use} {kinds : List Nat} (h : s.tileCauses acc use kinds = [])
    (hf : acc.q.fmt = 12) : acc.q.base.toNat % 64 = 0 ∧ acc.q.stride.toNat % 64 = 0 ∧ pqStride acc.q.pq % 64 = 0 := by
  unfold State.tileCauses TileReq.alignCauses at h
  rw [if_pos hf] at h
  simp only [List.append_eq_nil_iff] at h
  obtain ⟨⟨_, halign⟩, _⟩ := h
  by_contra hno
  rw [if_neg hno] at halign
  cases halign

/-! ### What a store covers (R75, R194) -/

section
variable {q : TileReq} {spans : List Span} {t : Tile} {x : VWrite}

/-- The write covers `n` bytes from byte `d` of a run on, within one block. -/
def Within (sp : Span) (x : VWrite) (d n : Nat) : Prop :=
  x.va = (sp.va + d) % 2 ^ 64 ∧ d + n ≤ sp.len ∧ (sp.va + d) % 64 + n ≤ 64 ∧ x.w.mask = byteMask ((sp.va + d) % 64) n

theorem planeVa_aligned (h : q.base.toNat % 64 = 0 ∧ q.stride.toNat % 64 = 0 ∧ pqStride q.pq % 64 = 0) (p j : Nat) : q.planeVa p j % 64 = 0 := by
  obtain ⟨hb, hs, hp⟩ := h
  have hs' : (64 : Int) ∣ q.stride.toInt := by
    rw [BitVec.toInt_eq_toNat_cond]
    split <;> omega
  have hsum : (64 : Int) ∣ q.base.toNat + j * (pqStride q.pq : Int) + p * q.stride.toInt :=
    dvd_add (dvd_add (by omega) (Dvd.dvd.mul_left (by omega) _)) (Dvd.dvd.mul_left hs' _)
  have hva : (q.planeVa p j : Int) = (q.base.toNat + j * (pqStride q.pq : Int) + p * q.stride.toInt) % 2 ^ 64 := wrap64_eq _
  omega

theorem storePatch_within (hal : q.base.toNat % 64 = 0 ∧ q.stride.toNat % 64 = 0 ∧ pqStride q.pq % 64 = 0)
    (hs : ∀ p, p < 2 → ∀ j, j < pqQ q.pq → { va := q.planeVa p j, len := 64 } ∈ spans) (hf : q.fmt = 12) (hx : x ∈ q.storeWrites spans t) :
    ∃ sp ∈ spans, ∃ d n, Within sp x d n := by
  rw [TileReq.storeWrites, if_pos hf, List.mem_flatMap] at hx
  obtain ⟨p, hp, hx⟩ := hx
  obtain ⟨j, hj, rfl⟩ := List.mem_map.1 hx
  have hp : p < 2 := by simp at hp; omega
  have hva := planeVa_aligned hal p j
  have hlt : q.planeVa p j < 2 ^ 64 := by have := wrap64_eq (q.base.toNat + j * (pqStride q.pq : Int) + p * q.stride.toInt); rw [TileReq.planeVa]; omega
  refine ⟨_, hs p hp j (List.mem_range.1 hj), 0, 64, ?_, ?_, ?_, ?_⟩
  · dsimp only
    omega
  · dsimp only
    omega
  · dsimp only
    omega
  · show 2 ^ 512 - 1 = byteMask ((q.planeVa p j + 0) % 64) 64
    rw [Nat.add_zero, hva, byteMask, Nat.mul_zero, Nat.pow_zero, Nat.mul_one]

theorem storeRows_within (hf : q.fmt ≠ 12) (hx : x ∈ q.storeWrites spans t) : ∃ sp ∈ spans, ∃ d n, Within sp x d n := by
  rw [TileReq.storeWrites, if_neg hf, List.mem_flatMap] at hx
  obtain ⟨y, hy, hx⟩ := hx
  obtain ⟨z, hz, rfl⟩ := List.mem_map.1 hx
  obtain ⟨i, hi, hb⟩ := mem_cells.1 (List.fst_mem_of_mem_zipIdx hz)
  obtain ⟨d, hd⟩ : ∃ d, cellLo y.1 6 i = y.1.va + d := by
    refine ⟨cellLo y.1 6 i - y.1.va, ?_⟩
    unfold cellLo
    split <;> omega
  rw [hd] at hb
  refine ⟨y.1, List.fst_mem_of_mem_zipIdx hy, d, z.1.len, congrArg Span.va hb, ?_, ?_, ?_⟩
  · rw [hb]
    unfold cellLo at hd
    dsimp only
    split at hd <;> omega
  · rw [hb]
    unfold cellLo at hd
    dsimp only
    split at hd <;> omega
  · show byteMask (z.1.va % 64) z.1.len = _
    rw [show z.1.va % 64 = (y.1.va + d) % 64 by rw [hb]; dsimp only; omega]

end

/-! ### The frame of a store (R169, R194, R196) -/

section
variable {s : State} {w : Window}

/-- Bytes of one block of the scratchpad follow one another as their addresses do. -/
theorem ownPlace_byte (hk : w.kind = 1) {va j : Nat} (hv : w.vabase * 65536 ≤ va) (hj : va % 64 + j < 64) :
    ownPlace s w va / 64 * 64 + (va % 64 + j) = ownPlace s w (va + j) := by
  have hplace (va : Nat) : ownPlace s w va = scratchPlace (pairOf s.iss.core) (w.toIa va % 2 ^ 21) := if_pos hk
  rw [hplace, hplace, scratchPlace, scratchPlace, Window.toIa, Window.toIa]
  omega

/-- A byte that no run covers is not in the mask of a write within a run. -/
theorem within_mask (hk : w.kind = 1) {sp : Span} {x : VWrite} {d n A : Nat} (h : Within sp x d n)
    (hnamed : 0 < sp.len → w.vabase * 65536 ≤ sp.va ∧ sp.va + sp.len ≤ 2 ^ 64) (hA : ∀ j, j < sp.len → A ≠ ownPlace s w (sp.va + j))
    {i k : Nat} (hi : A = ownPlace s w x.va / 64 * 64 + i) (hk8 : k < 8) : x.w.mask.testBit (8 * i + k) = false := by
  obtain ⟨hva, hlen, hblock, hmask⟩ := h
  rw [hmask, byteMask_testBit, decide_eq_false_iff_not]
  rintro ⟨hlo, hhi⟩
  obtain ⟨hv, hend⟩ := hnamed (by omega)
  rw [Nat.mod_eq_of_lt (by omega)] at hva
  obtain ⟨j, rfl⟩ : ∃ j, i = (sp.va + d) % 64 + j := ⟨i - (sp.va + d) % 64, by omega⟩
  refine hA (d + j) (by omega) ?_
  rw [hi, hva, ownPlace_byte hk (by omega) (by omega), Nat.add_assoc]

theorem tileSpans_va {core : Nat} {r : Req} {win : Option Window} {q : TileReq} {sp : Span} (h : sp ∈ s.tileSpans core r win q) :
    sp.va < 2 ^ 64 := by
  have hwrap (x : Int) : wrap64 x < 2 ^ 64 := by have := wrap64_eq x; omega
  have hcoat (va : Nat) : (s.coatSpan core r win q.nfr va).va = va := by
    unfold State.coatSpan
    repeat' split
    all_goals rfl
  unfold State.tileSpans at h
  split at h
  · obtain ⟨p, _, hp⟩ := List.mem_flatMap.1 h
    obtain ⟨j, _, rfl⟩ := List.mem_map.1 hp
    exact hwrap _
  · obtain ⟨i, _, rfl⟩ := List.mem_map.1 h
    split
    · rw [hcoat]
      exact hwrap _
    · exact hwrap _

theorem tileSpans_planes {core : Nat} {r : Req} {win : Option Window} {q : TileReq} (hf : q.fmt = 12) :
    ∀ p, p < 2 → ∀ j, j < pqQ q.pq → { va := q.planeVa p j, len := 64 } ∈ s.tileSpans core r win q := by
  intro p hp j hj
  rw [State.tileSpans, if_pos hf]
  exact List.mem_flatMap.2 ⟨p, by simp; omega, List.mem_map.2 ⟨j, List.mem_range.2 hj, rfl⟩⟩

/-- CTST writes no byte. -/
theorem coatWrites_mask {q : TileReq} {spans : List Span} {t : Tile} {x : VWrite} (hx : x ∈ q.coatWrites spans t) : x.w.mask = 0 := by
  have hput (va : Nat) (v : Lane) (h : x ∈ if v.toNat / 65536 = 0 then [({ va := va, w := BWrite.coatOnly (v.truncate 16) } : VWrite)] else []) :
      x.w.mask = 0 := by
    split at h
    · rw [List.mem_singleton.1 h]; rfl
    · cases h
  unfold TileReq.coatWrites at hx
  dsimp only at hx
  split at hx
  · obtain ⟨y, _, hy⟩ := List.mem_flatMap.1 hx
    exact hput _ _ hy
  · obtain ⟨y, _, hy⟩ := List.mem_flatMap.1 hx
    obtain ⟨z, _, hz⟩ := List.mem_flatMap.1 hy
    exact hput _ _ hz

theorem scratchTileStores : ScratchTileStores := by
  intro s p d a b f w hc hk hw acc hcauses stored
  have hwin : findWindow s.cx.windows acc.q.base.toNat = some w := hw
  refine ⟨tileStore_own rfl rfl (by simp [vregsOf]) hcauses (doStore_own hc hk hw _),
    tileStore_own rfl rfl (by simp [vregsOf]) hcauses (doStore_own hc hk hw _), fun A hA => ?_, fun A => ?_⟩
  · refine scratchWrites_memGet (w := w) fun x hx i _ hi k hk8 => ?_
    obtain ⟨sp, hsp, d, n, hin⟩ : ∃ sp ∈ acc.spans, ∃ d n, Within sp x d n := by
      by_cases hf : acc.q.fmt = 12
      · exact storePatch_within (tileCauses_aligned hcauses hf) (tileSpans_planes hf) hf hx
      · exact storeRows_within hf hx
    exact within_mask hk hin (tileCauses_named hcauses hwin hsp (tileSpans_va hsp)) (hA sp hsp) hi hk8
  · refine scratchWrites_memGet (w := w) fun x hx i _ _ k _ => ?_
    rw [coatWrites_mask hx, Nat.zero_testBit]

end

/-- Settles O16: loads and stores by the rows' own blocks, every format's lanes element by element, and the stored blocks
with the least scale at which their lanes fit; that a stored tile loads back joins the two. -/
theorem ownMemoryTiles : Obligations.OwnMemoryTiles :=
  ⟨ownMemoryTileLoads, scratchTileStores, storedTilesLoadBack_holds, explicitLanes_holds, coatedLanes_holds, planeLanes_holds,
    storedBlocks_hold, storedPlanes_hold⟩

end Sys2Proof.Machine
end
